-- ==== Sys2Proof/Word.lean ====
section
/-! DEFINITION. The word types of the YL9640's register space (R12, R563): bytes, half-words, 32-bit register
words and the 64-bit values that span two of them. -/

namespace Sys2Proof

/-- One byte of flash, OTP, work SRAM or a frame. -/
abbrev Byte := BitVec 8

/-- A 16-bit register field (every saturating counter of the register cards is one). -/
abbrev Half := BitVec 16

/-- One 32-bit word of the register space (R563). -/
abbrev Word := BitVec 32

/-- A 64-bit value, low word first where it spans two registers (R12). -/
abbrev DWord := BitVec 64

end Sys2Proof
end

