-- ==== Sys2Proof/Machine/Bits.lean ====
section
/-! DEFINITION. Plain arithmetic shared by every block: saturating counters, rounding divisions, clamping,
little-endian byte lists (R12) and access to the elements of a fixed-size table. -/

namespace Sys2Proof.Machine

/-- A saturating counter of a register card ("Counters saturate"): one more, or unchanged at its top. -/
def satInc {w : Nat} (x : BitVec w) : BitVec w :=
  if x = BitVec.allOnes w then x else x + 1

/-- `n` added to a saturating counter. -/
def satAdd {w : Nat} (x : BitVec w) (n : Nat) : BitVec w :=
  if 2 ^ w ≤ x.toNat + n then BitVec.allOnes w else BitVec.ofNat w (x.toNat + n)

/-- A natural number put into a field of `w` bits, saturated at the field's top. -/
def satOf (w n : Nat) : BitVec w :=
  if 2 ^ w ≤ n then BitVec.allOnes w else BitVec.ofNat w n

/-- A natural number saturated below `2 ^ w`. -/
def satNat (w n : Nat) : Nat := min n (2 ^ w - 1)

/-- An integer saturated to the signed range of `w` bits (R228, R274 and the formats of Table 0.3). -/
def satInt (w : Nat) (n : Int) : Int :=
  if n < -(2 ^ (w - 1) : Int) then -(2 ^ (w - 1) : Int)
  else if n > 2 ^ (w - 1) - 1 then 2 ^ (w - 1) - 1 else n

/-- Exact division rounded half away from zero (R206, R271). A zero divisor gives 0; no formula of the
spec reaches it on an image that passes R28. -/
def roundDiv (n d : Int) : Int :=
  if d = 0 then 0 else (2 * n.natAbs + d.natAbs) / (2 * d.natAbs) * (n.sign * d.sign)

/-- Exact division of natural numbers rounded half up. -/
def roundDivNat (n d : Nat) : Nat := (2 * n + d) / (2 * d)

/-- Division rounded up. -/
def ceilDiv (n d : Nat) : Nat := (n + d - 1) / d

/-- `x` held inside `[lo, hi]` (the clamp of the adaptive loops, R2). -/
def clamp (x lo hi : Int) : Int := if x < lo then lo else if hi < x then hi else x

/-- The clamp on natural numbers. -/
def clampN (x lo hi : Nat) : Nat := if x < lo then lo else if hi < x then hi else x

/-- The run of consecutive evaluations on a bound after one more evaluation (R4). -/
def boundRun (run : Nat) (onBound : Bool) : Nat := if onBound then run + 1 else 0

/-- The clamp-event counter after that evaluation: one more at the eighth of a run (R4). -/
def boundCount {w : Nat} (c : BitVec w) (run : Nat) : BitVec w := if run = 8 then satInc c else c

/-- The low `k` bytes of `n`, lowest first (R12). -/
def bytesLE : (k n : Nat) → List Byte
  | 0, _ => []
  | k + 1, n => BitVec.ofNat 8 n :: bytesLE k (n / 256)

/-- The low `k` bytes of `n`, highest first (AES and the wire order of a debug byte). -/
def bytesBE (k n : Nat) : List Byte := (bytesLE k n).reverse

/-- The number a byte list spells, lowest byte first (R12). -/
def ofLE : List Byte → Nat
  | [] => 0
  | b :: bs => b.toNat + 256 * ofLE bs

/-- The number a byte list spells, highest byte first. -/
def ofBE (bs : List Byte) : Nat := bs.foldl (fun acc b => acc * 256 + b.toNat) 0

/-- `k` bytes of an integer in two's complement, lowest first. -/
def bytesInt (k : Nat) (n : Int) : List Byte := bytesLE k (n.emod (256 ^ k)).toNat

/-- The integer that `w` bits of `n` spell in two's complement. -/
def signed (w n : Nat) : Int :=
  let m := n % 2 ^ w
  if 2 ^ (w - 1) ≤ m then (m : Int) - 2 ^ w else m

/-- `k` bytes of `l` from offset `o`; bytes beyond its end read 0. -/
def slice (l : List Byte) (o k : Nat) : List Byte :=
  let t := (l.drop o).take k
  t ++ List.replicate (k - t.length) 0

/-- The list padded with `v` to `k` bytes. -/
def padTo (k : Nat) (v : Byte) (l : List Byte) : List Byte := l ++ List.replicate (k - l.length) v

/-- The little-endian number in `k` bytes of `l` from offset `o`. -/
def leAt (l : List Byte) (o k : Nat) : Nat := ofLE (slice l o k)

/-- The field `[hi:lo]` of a number (the bit ranges of the register cards). -/
def bits (hi lo n : Nat) : Nat := n / 2 ^ lo % 2 ^ (hi + 1 - lo)

/-- Bit `i` of a number. -/
def bit (i n : Nat) : Bool := n.testBit i

/-- 1 for true, 0 for false. -/
def b2n (b : Bool) : Nat := if b then 1 else 0

/-- A bit vector whose bit `i` is the `i`-th element. -/
def packBits (w : Nat) (l : List Bool) : BitVec w :=
  BitVec.ofNat w (l.foldr (fun b acc => b2n b + 2 * acc) 0)

/-- Bit `i` of `x` replaced by `v`. -/
def setBit {w : Nat} (x : BitVec w) (i : Nat) (v : Bool) : BitVec w :=
  if v then x ||| BitVec.ofNat w (2 ^ i) else x &&& ~~~ (BitVec.ofNat w (2 ^ i))

/-- Element `i` of a fixed-size table; the type's default outside it. -/
def nth {α : Type} [Inhabited α] {n : Nat} (v : Vector α n) (i : Nat) : α := v[i]?.getD default

/-- Element `i` of a fixed-size table changed by `f`; the table itself outside its range. -/
def upd {α : Type} [Inhabited α] {n : Nat} (v : Vector α n) (i : Nat) (f : α → α) : Vector α n :=
  if h : i < n then v.set i (f v[i]) else v

/-- Element `i` of a fixed-size table replaced. -/
def put {α : Type} [Inhabited α] {n : Nat} (v : Vector α n) (i : Nat) (x : α) : Vector α n := upd v i (fun _ => x)

/-- Element `i` of a list; the type's default outside it. -/
def at0 {α : Type} [Inhabited α] (l : List α) (i : Nat) : α := l[i]?.getD default

/-- The list with its `i`-th element changed by `f`. -/
def updL {α : Type} (l : List α) (i : Nat) (f : α → α) : List α := l.modify i f

/-- The last `k` elements of a queue that drops its oldest entries (first element oldest). -/
def keepNewest {α : Type} (k : Nat) (l : List α) : List α := l.drop (l.length - k)

theorem nth_upd_same {α : Type} [Inhabited α] {n : Nat} (v : Vector α n) (i : Nat) (f : α → α) (h : i < n) :
    nth (upd v i f) i = f (nth v i) := by
  simp [nth, upd, h]

theorem nth_upd_ne {α : Type} [Inhabited α] {n : Nat} (v : Vector α n) (i j : Nat) (f : α → α) (h : i ≠ j) :
    nth (upd v i f) j = nth v j := by
  unfold nth upd
  split
  · rename_i hi
    by_cases hj : j < n
    · simp [hj, h]
    · simp [hj]
  · rfl

theorem nth_put_same {α : Type} [Inhabited α] {n : Nat} (v : Vector α n) (i : Nat) (x : α) (h : i < n) :
    nth (put v i x) i = x := nth_upd_same v i _ h

theorem nth_put_ne {α : Type} [Inhabited α] {n : Nat} (v : Vector α n) (i j : Nat) (x : α) (h : i ≠ j) :
    nth (put v i x) j = nth v j := nth_upd_ne v i j _ h

end Sys2Proof.Machine
end

