-- ==== Sys2Proof/Machine/Checks.lean ====
section
/-! DEFINITION. The cyclic checks of the manual: CRC-8 with polynomial 0x07 (OTP companions, journal page heads,
service-port frames, work of R6) and the IEEE CRC-32 (image trailer, METRO_CRC, journal pages). -/

namespace Sys2Proof.Machine

/-- One bit step of the CRC-8 with polynomial 0x07, highest bit first. -/
def crc8Bit (c : Byte) : Byte := if c.msb then (c <<< 1) ^^^ 0x07#8 else c <<< 1

/-- One byte into the CRC-8. -/
def crc8Byte (c b : Byte) : Byte :=
  crc8Bit (crc8Bit (crc8Bit (crc8Bit (crc8Bit (crc8Bit (crc8Bit (crc8Bit (c ^^^ b))))))))

/-- CRC-8, polynomial 0x07. The start value 0 is the log's choice (the spec names the polynomial only). -/
def crc8 (bs : List Byte) : Byte := bs.foldl crc8Byte 0

/-- One bit step of the reflected CRC-32. -/
def crc32Bit (c : Word) : Word := if c.getLsbD 0 then (c >>> 1) ^^^ 0xEDB88320#32 else c >>> 1

/-- One byte into the CRC-32. -/
def crc32Byte (c : Word) (b : Byte) : Word :=
  crc32Bit (crc32Bit (crc32Bit (crc32Bit (crc32Bit (crc32Bit (crc32Bit (crc32Bit (c ^^^ b.zeroExtend 32))))))))

/-- CRC-32 (IEEE), R26. -/
def crc32 (bs : List Byte) : Word := ~~~ (bs.foldl crc32Byte 0xFFFFFFFF#32)

end Sys2Proof.Machine
end

