-- ==== Sys2Proof/Machine/Gyale.lean ====
section
/-! DEFINITION. The Gyale frame on air (R416, Table 12.1): the PHY header with its check, the rate-1/2 code, and the bits of
a whole frame in their order. -/

namespace Sys2Proof.Machine

/-- Bits [15:0] of a PHR (Table 12.1): LEN, RATE and FEC; `phy` holds RATE in bit 0 and FEC in bit 1. -/
def phrFields (len phy : Nat) : Nat := len % 256 + phy % 4 * 256

/-- HCRC: the CRC-8 over bits [15:0], the byte with LEN first (log 16, DEDUCED). -/
def phrCheck (fields : Nat) : Byte := crc8 [BitVec.ofNat 8 fields, BitVec.ofNat 8 (fields / 256)]

/-- The PHR of an MPDU's length and PHY. -/
def phrOf (len phy : Nat) : BitVec 24 :=
  BitVec.ofNat 24 (phrFields len phy + (phrCheck (phrFields len phy)).toNat * 2 ^ 16)

/-- A PHR's LEN, its PHY, and whether its HCRC agrees. -/
def phrLen (p : BitVec 24) : Nat := p.toNat % 256
def phrPhy (p : BitVec 24) : Nat := p.toNat / 256 % 4
def phrOk (p : BitVec 24) : Bool := phrCheck (p.toNat % 2 ^ 16) == BitVec.ofNat 8 (p.toNat / 2 ^ 16)

/-- The lowest `n` bits of a number, least significant first; and most significant first. -/
def bitsUp (n v : Nat) : List Bool := (List.range n).map v.testBit
def bitsDown (n v : Nat) : List Bool := (bitsUp n v).reverse

/-- The parity of seven bits. -/
def parity7 (v : Nat) : Bool := ((List.range 7).filter v.testBit).length % 2 == 1

/-- The rate-1/2 code of constraint length 7 with generators 0o171 and 0o133, the 0o171 output first; `st` holds the six
bits before, the newest highest. -/
def convolve : (st : Nat) → List Bool → List Bool
  | _, [] => []
  | st, b :: bs =>
    let reg := b.toNat * 64 + st % 64
    parity7 (Nat.land reg 0o171) :: parity7 (Nat.land reg 0o133) :: convolve (reg / 2) bs

/-- The MPDU's bits as they are sent: each byte least significant bit first (log 16, DEDUCED), coded with 6 zero tail bits
where FEC is set. -/
def mpduBits (fec : Bool) (mpdu : List Byte) : List Bool :=
  let raw := mpdu.flatMap fun b => bitsUp 8 b.toNat
  if fec then convolve 0 (raw ++ List.replicate 6 false) else raw

/-- The bits of a frame on air (R416): the preamble, starting with 1; the synchronisation word, most significant bit first;
the PHR, bits [15:0] least significant first and HCRC most significant first; the MPDU. -/
def gyaleBits (phy : Nat) (mpdu : List Byte) : List Bool :=
  let p := (phrOf mpdu.length phy).toNat
  (List.range 32).map (· % 2 == 0) ++ bitsDown 32 0x5B0E9C27 ++ bitsUp 16 (p % 2 ^ 16) ++ bitsDown 8 (p / 2 ^ 16)
    ++ mpduBits (phy.testBit 1) mpdu

end Sys2Proof.Machine
end

