-- ==== Sys2Proof/Machine/Types.lean ====
section
/-! DEFINITION. The names every chapter shares: completion statuses (Table 0.8), blocks and their bases
(Table 17.1), fault sources (Table 15.8), masters and ranks (Table 0.5), roles (Table 14.1), job classes (Table 3.1)
and the job descriptor (Table 3.2). -/

namespace Sys2Proof.Machine

/-- The completion statuses of Table 0.8 (R19). -/
inductive Status where
  | done | doneFlagged | deferred | refusedCapacity | refusedEnergy | refusedPolicy | refusedRole | conflictLost
  | fenced | aborted | timeout | checkFailed | synthTimeout | slotMissed | rxInterfered | brownout
  deriving DecidableEq, Repr, Inhabited

/-- The code of a status (Table 0.8). -/
def Status.code : Status → Nat
  | .done => 0x00 | .doneFlagged => 0x01 | .deferred => 0x10 | .refusedCapacity => 0x20 | .refusedEnergy => 0x21
  | .refusedPolicy => 0x22 | .refusedRole => 0x23 | .conflictLost => 0x30 | .fenced => 0x40 | .aborted => 0x41
  | .timeout => 0x42 | .checkFailed => 0x50 | .synthTimeout => 0x51 | .slotMissed => 0x52 | .rxInterfered => 0x53
  | .brownout => 0x54

/-- The two statuses that count as a normal end for chaining (R114). -/
def Status.ok : Status → Bool
  | .done => true | .doneFlagged => true | _ => false

/-- Whether the status is one of the REFUSED_* codes (Table 3.9, REFUSE_COUNT). -/
def Status.refused : Status → Bool
  | .refusedCapacity => true | .refusedEnergy => true | .refusedPolicy => true | .refusedRole => true | _ => false

/-- The rank of an ending among several of one cycle (R20); lower comes first. -/
def Status.precedence : Status → Nat
  | .brownout => 0 | .fenced => 1 | .aborted => 2 | .timeout => 3 | _ => 4

/-- The blocks of Table 17.1 that carry a fault window (R509). -/
inductive Block where
  | ident | boot | lintel | clock | time | fabric | front | scribe | ftu | shot | temp | integ | bill | tamper
  | journal | radio | link | cipher | keyslot | roles | entropy | lcd | ports | debug
  deriving DecidableEq, Repr, Inhabited

/-- The base address of a block (Table 17.1). -/
def Block.base : Block → Nat
  | .ident => 0x000000 | .boot => 0x001000 | .lintel => 0x002000 | .clock => 0x003000 | .time => 0x004000
  | .fabric => 0x005000 | .front => 0x020000 | .scribe => 0x021000 | .ftu => 0x022000 | .shot => 0x023000
  | .temp => 0x024000 | .integ => 0x025000 | .bill => 0x026000 | .tamper => 0x027000 | .journal => 0x028000
  | .radio => 0x029000 | .link => 0x02A000 | .cipher => 0x02B000 | .keyslot => 0x02C000 | .roles => 0x02D000
  | .entropy => 0x02E000 | .lcd => 0x02F000 | .ports => 0x030000 | .debug => 0x031000

/-- Every block, in address order. -/
def Block.all : List Block :=
  [.ident, .boot, .lintel, .clock, .time, .fabric, .front, .scribe, .ftu, .shot, .temp, .integ, .bill, .tamper,
   .journal, .radio, .link, .cipher, .keyslot, .roles, .entropy, .lcd, .ports, .debug]

/-- The place of a block's window in the window table. -/
def Block.idx (b : Block) : Nat := (Block.all.findIdx (· == b))

/-- The block byte of a fault record: block base [23:12], low byte (R512). -/
def Block.byte (b : Block) : Nat := b.base / 0x1000 % 256

/-- The block whose window holds a byte address, none outside every block (QUEUE and the SRAM window included). -/
def Block.ofAddr (a : Nat) : Option Block := Block.all.find? fun b => b.base / 0x1000 == a / 0x1000

/-- A fault source: a numbered condition of one block (R509). -/
structure FaultSrc where
  block : Block
  num : Nat
  deriving DecidableEq, Repr, Inhabited

/-- Event or level source (R513). -/
inductive SourceKind where
  | event | level
  deriving DecidableEq, Repr, Inhabited

/-- A row of Table 15.8: default class (0 A, 1 B, 2 C, 3 D), kind, and floor. -/
structure SourceRow where
  cls : Nat
  kind : SourceKind
  floor : Nat := 0
  deriving DecidableEq, Repr, Inhabited

/-- A class A event source. -/
def SourceRow.ae : SourceRow := ⟨0, .event, 0⟩
/-- A class A level source. -/
def SourceRow.al : SourceRow := ⟨0, .level, 0⟩
/-- A class B event source. -/
def SourceRow.be : SourceRow := ⟨1, .event, 0⟩
/-- A class C level source. -/
def SourceRow.cl : SourceRow := ⟨2, .level, 0⟩
/-- A class C event source. -/
def SourceRow.ce : SourceRow := ⟨2, .event, 0⟩

open SourceRow in
/-- The catalogue of Table 15.8: the sources of a block in number order (R536). -/
def Block.sources : Block → List SourceRow
  | .ident => []
  | .boot => [ae, ae, ae, ⟨1, .level, 0⟩, ae, ae]
  | .lintel => [al, ae, ae, al, ae, ⟨3, .event, 3⟩]
  | .clock => [al, ae, ae, ae, ae, ⟨3, .level, 3⟩]
  | .time => [al, al, ae]
  | .fabric => [ae, ae, ae, ae, be, ae, ae, ⟨3, .event, 3⟩, ae, ae, ae, ae, ae]
  | .front => [be, be, ae, ae, al, al, ae, ae, cl]
  | .scribe => [ae, cl, al, cl, ae, ce]
  | .ftu => [ce, ae, ae, al, al]
  | .shot => [al, cl, ae, ae, ae, ae, ae, ae, ae]
  | .temp => [cl, cl, cl, cl, cl, al, ae, cl, ae]
  | .integ => [ae, ae, ae, ae, ae, al]
  | .bill => [al, ae, ae, ae]
  | .tamper => [ae, ae, ae, ae, ae, ae, ae, ae]
  | .journal => [ae, ae, ae, ae, ae, be, ae, al, be, be, be, be, ae, ae]
  | .radio => [ae, ae, al, ae, ae, al, ae, ae]
  | .link => [ae, al, ae, ae, al, al, al]
  | .cipher => [⟨3, .event, 2⟩, al]
  | .keyslot => [⟨3, .event, 0⟩, ae, ae, ⟨3, .event, 3⟩, ae]
  | .roles => [ae, al, ae, ae, al, al]
  | .entropy => [ae, ⟨1, .level, 0⟩]
  | .lcd => [al, ae]
  | .ports => [ae, ae, ae, ae]
  | .debug => [ae, ae]

namespace Src
/-! The sources of Table 15.8 by name. -/
def cfgCopyDiverge : FaultSrc := ⟨.boot, 0⟩
def cfgSeqTie : FaultSrc := ⟨.boot, 1⟩
def copyInvalid : FaultSrc := ⟨.boot, 2⟩
def bare : FaultSrc := ⟨.boot, 3⟩
def reseatCheckFailed : FaultSrc := ⟨.boot, 4⟩
def stagingFailed : FaultSrc := ⟨.boot, 5⟩
def vbakLow : FaultSrc := ⟨.lintel, 0⟩
def coldStart : FaultSrc := ⟨.lintel, 1⟩
def brownout : FaultSrc := ⟨.lintel, 2⟩
def vbatReversed : FaultSrc := ⟨.lintel, 3⟩
def switchDip : FaultSrc := ⟨.lintel, 4⟩
def vcoreRange : FaultSrc := ⟨.lintel, 5⟩
def xlFail : FaultSrc := ⟨.clock, 0⟩
def xo39Fail : FaultSrc := ⟨.clock, 1⟩
def rc32mRange : FaultSrc := ⟨.clock, 2⟩
def wdogReset : FaultSrc := ⟨.clock, 3⟩
def d06Range : FaultSrc := ⟨.clock, 4⟩
def d25ActiveSealed : FaultSrc := ⟨.clock, 5⟩
def timeUnsynced : FaultSrc := ⟨.time, 0⟩
def timeInvalid : FaultSrc := ⟨.time, 1⟩
def timeStepped : FaultSrc := ⟨.time, 2⟩
def timeoutOf (cls : Nat) : FaultSrc := ⟨.fabric, cls⟩
def engineStuck : FaultSrc := ⟨.fabric, 4⟩
def mDelayLate : FaultSrc := ⟨.fabric, 5⟩
def granuleAccess : FaultSrc := ⟨.fabric, 6⟩
def scrubFail : FaultSrc := ⟨.fabric, 7⟩
def ringOverrun : FaultSrc := ⟨.fabric, 8⟩
def trigDrop : FaultSrc := ⟨.fabric, 9⟩
def lockOverrun : FaultSrc := ⟨.fabric, 10⟩
def chainMiss : FaultSrc := ⟨.fabric, 11⟩
def queueAccess : FaultSrc := ⟨.fabric, 12⟩
def lineFault (p : Nat) : FaultSrc := ⟨.front, p⟩
def overcurrent (p : Nat) : FaultSrc := ⟨.front, 2 + p⟩
def polarity (p : Nat) : FaultSrc := ⟨.front, 4 + p⟩
def peakClipped : FaultSrc := ⟨.front, 6⟩
def pumpSlow : FaultSrc := ⟨.front, 7⟩
def noPath : FaultSrc := ⟨.front, 8⟩
def pllLockFail : FaultSrc := ⟨.scribe, 0⟩
def pllDead : FaultSrc := ⟨.scribe, 1⟩
def laneSkew : FaultSrc := ⟨.scribe, 2⟩
def laneStuck : FaultSrc := ⟨.scribe, 3⟩
def fifoOverrun : FaultSrc := ⟨.scribe, 4⟩
def captureRamParity : FaultSrc := ⟨.scribe, 5⟩
def ftuCalRange : FaultSrc := ⟨.ftu, 0⟩
def ftuDnl : FaultSrc := ⟨.ftu, 1⟩
def alignPersist : FaultSrc := ⟨.ftu, 2⟩
def scaleStale : FaultSrc := ⟨.ftu, 3⟩
def scaleRange : FaultSrc := ⟨.ftu, 4⟩
def emptyPipe : FaultSrc := ⟨.shot, 0⟩
def noValidFlow : FaultSrc := ⟨.shot, 1⟩
def cyclePersist : FaultSrc := ⟨.shot, 2⟩
def noisePersist : FaultSrc := ⟨.shot, 3⟩
def plumbRange : FaultSrc := ⟨.shot, 4⟩
def plumbStep : FaultSrc := ⟨.shot, 5⟩
def orientReversed : FaultSrc := ⟨.shot, 6⟩
def pathDisagree : FaultSrc := ⟨.shot, 7⟩
def flowOverrange : FaultSrc := ⟨.shot, 8⟩
def sensorFault (c : Nat) : FaultSrc := ⟨.temp, c⟩
def refFault : FaultSrc := ⟨.temp, 4⟩
def sensorsSwapped : FaultSrc := ⟨.temp, 5⟩
def noisePersistT : FaultSrc := ⟨.temp, 6⟩
def pressFault : FaultSrc := ⟨.temp, 7⟩
def pressRange : FaultSrc := ⟨.temp, 8⟩
def accOverflow : FaultSrc := ⟨.integ, 0⟩
def stepGap : FaultSrc := ⟨.integ, 1⟩
def tempTableRange : FaultSrc := ⟨.integ, 2⟩
def shadowDiverge : FaultSrc := ⟨.integ, 3⟩
def shadowLost : FaultSrc := ⟨.integ, 4⟩
def errorRun : FaultSrc := ⟨.integ, 5⟩
def billUnjournaled : FaultSrc := ⟨.bill, 0⟩
def billCatchup : FaultSrc := ⟨.bill, 1⟩
def billShadowBad : FaultSrc := ⟨.bill, 2⟩
def snapLost : FaultSrc := ⟨.bill, 3⟩
def tamperOf (t : Nat) : FaultSrc := ⟨.tamper, t⟩
def pulseOverrate : FaultSrc := ⟨.tamper, 6⟩
def tamperStateBad : FaultSrc := ⟨.tamper, 7⟩
def tornVoided : FaultSrc := ⟨.journal, 0⟩
def readCheckFailed : FaultSrc := ⟨.journal, 1⟩
def programFail : FaultSrc := ⟨.journal, 2⟩
def eraseFail : FaultSrc := ⟨.journal, 3⟩
def defectDiverge : FaultSrc := ⟨.journal, 4⟩
def defectTableLost : FaultSrc := ⟨.journal, 5⟩
def journalFull : FaultSrc := ⟨.journal, 6⟩
def wearSpread : FaultSrc := ⟨.journal, 7⟩
def journalWorn : FaultSrc := ⟨.journal, 8⟩
def flashUnsupported : FaultSrc := ⟨.journal, 9⟩
def flashProtected : FaultSrc := ⟨.journal, 10⟩
def flashBusyTimeout : FaultSrc := ⟨.journal, 11⟩
def dupDiverge : FaultSrc := ⟨.journal, 12⟩
def pendingLost : FaultSrc := ⟨.journal, 13⟩
def synthPersist : FaultSrc := ⟨.radio, 0⟩
def antMismatch : FaultSrc := ⟨.radio, 1⟩
def antFallback : FaultSrc := ⟨.radio, 2⟩
def paLow : FaultSrc := ⟨.radio, 3⟩
def ctrReserveFail : FaultSrc := ⟨.radio, 4⟩
def ctrExhausted : FaultSrc := ⟨.radio, 5⟩
def wakeLimit : FaultSrc := ⟨.radio, 6⟩
def peerFull : FaultSrc := ⟨.radio, 7⟩
def parentLost : FaultSrc := ⟨.link, 0⟩
def orphan : FaultSrc := ⟨.link, 1⟩
def neighFull : FaultSrc := ⟨.link, 2⟩
def fcntReserveFail : FaultSrc := ⟨.link, 3⟩
def fcntExhausted : FaultSrc := ⟨.link, 4⟩
def relayPaused : FaultSrc := ⟨.link, 5⟩
def linkKeyLost : FaultSrc := ⟨.link, 6⟩
def fiDetect : FaultSrc := ⟨.cipher, 0⟩
def maskStale : FaultSrc := ⟨.cipher, 1⟩
def keyAlarm : FaultSrc := ⟨.keyslot, 0⟩
def keyUnwrapFail : FaultSrc := ⟨.keyslot, 1⟩
def slotCheckFail : FaultSrc := ⟨.keyslot, 2⟩
def eraseVerifyFail : FaultSrc := ⟨.keyslot, 3⟩
def loadAborted : FaultSrc := ⟨.keyslot, 4⟩
def authFail : FaultSrc := ⟨.roles, 0⟩
def authLockout : FaultSrc := ⟨.roles, 1⟩
def consentExpired : FaultSrc := ⟨.roles, 2⟩
def auditLost : FaultSrc := ⟨.roles, 3⟩
def auditKeyMissing : FaultSrc := ⟨.roles, 4⟩
def debugOpen : FaultSrc := ⟨.roles, 5⟩
def entHealth : FaultSrc := ⟨.entropy, 0⟩
def entDead : FaultSrc := ⟨.entropy, 1⟩
def vlcdRange : FaultSrc := ⟨.lcd, 0⟩
def segShort : FaultSrc := ⟨.lcd, 1⟩
def spCrcFail : FaultSrc := ⟨.ports, 0⟩
def spFrameError : FaultSrc := ⟨.ports, 1⟩
def optTagFail : FaultSrc := ⟨.ports, 2⟩
def optFrameError : FaultSrc := ⟨.ports, 3⟩
def forcedHalt : FaultSrc := ⟨.debug, 0⟩
def dbgProtocol : FaultSrc := ⟨.debug, 1⟩
end Src

/-- The rank of a master (Table 0.5); 1 is highest, 99 for a master that never writes shared items. -/
def masterRank (m : Nat) : Nat :=
  match m with
  | 1 => 2 | 2 => 1 | 3 => 3 | 4 => 4 | 5 => 5 | 8 => 6 | _ => 99

/-- The masters of radio commands: the Gyale link and the wireless M-Bus window (R485). -/
def radioMaster (m : Nat) : Bool := m == 4 || m == 5

/-- Who submits a job or writes a word: the master and the role it acts under (R110, R485). Role codes are those
of Table 14.1: 0 chip, 1 operator, 2 installer, 3 maker, 4 public. -/
structure Actor where
  master : Nat
  role : Nat
  deriving DecidableEq, Repr, Inhabited

/-- A write seen by the fabric's write port: its master and the other masters that write a word in the same fabric
cycle (R17, R124), each with the word address (byte address / 4) it writes. -/
structure WriteCtx where
  master : Nat
  rivals : List (Nat × Nat)
  deriving DecidableEq, Repr, Inhabited

/-- The job class of a queue (Table 3.1): 0 M, 1 B, 2 C, 3 H. -/
def classOfQueue (q : Nat) : Nat := q / 16

/-- The class job watchdog in D04 ticks (Table 3.1): 50 ms, 2 s, 5 s, 10 s. -/
def watchdogTicks (cls : Nat) : Nat :=
  match cls with
  | 0 => 1638 | 1 => 65536 | 2 => 163840 | _ => 327680

/-- The reserved tags of a class (Table 3.1). -/
def tagReserve (cls : Nat) : Nat := if cls < 3 then 64 else 32

/-- A job descriptor (Table 3.2). `reservedSet` says that some reserved bit is 1. -/
structure Desc where
  opcode : Nat := 0
  engine : Nat := 0
  hold : Bool := false
  strict : Bool := false
  autoRetry : Bool := false
  notify : Bool := false
  wait : Nat := 0
  nextQ : Nat := 0
  nextEn : Bool := false
  nextId : Nat := 0
  chainId : Nat := 0
  outCount : Nat := 0
  inHeads : List Nat := [0xFF, 0xFF, 0xFF, 0xFF]
  user : Nat := 0
  args : List Word := [0, 0, 0, 0]
  reservedSet : Bool := false
  deriving DecidableEq, Repr, Inhabited

/-- The descriptor that eight words spell (Table 3.2). -/
def Desc.ofWords (ws : List Word) : Desc :=
  let w := fun i => ((ws[i]?).getD 0).toNat
  { opcode := bits 7 0 (w 0), engine := bits 11 8 (w 0), hold := bit 12 (w 0), strict := bit 13 (w 0),
    autoRetry := bit 14 (w 0), notify := bit 15 (w 0), wait := bits 17 16 (w 0), nextQ := bits 5 0 (w 1),
    nextEn := bit 6 (w 1), nextId := bits 15 8 (w 1), chainId := bits 23 16 (w 1), outCount := bits 27 24 (w 1),
    inHeads := [bits 7 0 (w 2), bits 15 8 (w 2), bits 23 16 (w 2), bits 31 24 (w 2)], user := bits 15 0 (w 3),
    args := (List.range 4).map fun i => ((ws[4 + i]?).getD 0),
    reservedSet := bits 31 18 (w 0) != 0 || bit 7 (w 1) || bits 31 28 (w 1) != 0 || bits 31 16 (w 3) != 0 }

/-- Argument word `i` as a number. -/
def Desc.arg (d : Desc) (i : Nat) : Nat := (d.args[i]?.getD 0).toNat

/-- One of the five locked sequences (R132) with its LOCK_KIND code (Table 3.9). -/
inductive LockKind where
  | keySlotLoad | billingCommit | journalCommit | consentCommit | reseat
  deriving DecidableEq, Repr, Inhabited

/-- LOCK_KIND of Table 3.9. -/
def LockKind.code : LockKind → Nat
  | .keySlotLoad => 1 | .billingCommit => 2 | .journalCommit => 3 | .consentCommit => 4 | .reseat => 5

end Sys2Proof.Machine
end

