-- ==== Sys2Proof/Syntax.lean ====
section
/-! DEFINITION. The commands of the block: one constructor per row of the opcode table, with what happens outside the
registers (voltages, counts of a converter, received bytes, read-backs) as operands. -/

namespace Sys2Proof

open Sys2Proof.Machine

/-- What a flash program or erase reports and how it reads back: a failed erase, a failure because of protection
(R335), and bytes that do not read back as programmed, each with the bits that stayed 1. -/
structure FlashObs where
  eraseFail : Bool := false
  protectedFail : Bool := false
  stuck : List (Nat × Byte) := []
  deriving DecidableEq, Repr, Inhabited

/-- Charge counted since the last command that carried a count: the eight groups of Table 2.5 (µC), the part drawn
by class C and class H jobs, and the charge from VBAK (R83, R86). -/
structure Charge where
  groups : List Nat := []
  cClass : Nat := 0
  hClass : Nat := 0
  vbak : Nat := 0
  deriving DecidableEq, Repr, Inhabited

/-- One line check: D15 counts to 0.5 V (none on the 64 µs timeout) and whether the voltage held (R153). -/
structure LineObs where
  counts : Option Nat := none
  holdOk : Bool := true
  deriving DecidableEq, Repr, Inhabited

/-- What a bring-up meets outside the chip's registers: the flash's answers at stage 0x3 (R334), stage times, the
copies' re-read at stage 0x7 (R39), the AON contents that fail their checks at a warm start (R459, R286, R316, R322),
the self-tests of stage 0x8 (R42) and a stage that does not end (R40). -/
structure BootObs where
  /-- The JEDEC ID, none where the flash does not answer. -/
  jedec : Option Nat := none
  /-- Flash size in bytes; whether its SFDP table and protection bits meet R333; the dual and quad reads, the clock, the
  longest page program and the longest sector erase that it declares (R336, R338). -/
  flashSize : Nat := 0
  sfdpOk : Bool := true
  dual : Bool := false
  quad : Bool := false
  sfdpMhz : Nat := 50
  progUs : Nat := 3000
  eraseMs : Option Nat := none
  /-- Milliseconds from the reference to stage 0x9. -/
  bootMs : Nat := 0
  /-- The re-read of copy A or B at stage 0x7 fails its CRC. -/
  rereadFailA : Bool := false
  rereadFailB : Bool := false
  /-- A stage that does not end by itself, and the slot whose load is in progress where that is stage 0x2 or 0x7. -/
  stallAt : Option Nat := none
  loading : Option Nat := none
  /-- VAON touches VRET in the same instant as the start (R72). -/
  vretTouch : Bool := false
  /-- Key slots whose AON content fails its check (R459), and those whose load meets a mismatch of the cipher engine's own
  check (R455). -/
  slotsBad : List Nat := []
  loadFi : List Nat := []
  /-- AON shadow copies that fail: accumulators 1 and 2, billing shadow, tamper state (R286, R316, R322). -/
  accBad1 : Bool := false
  accBad2 : Bool := false
  /-- Billing slots whose CRC-32 fails (R316). -/
  billBad : List Nat := []
  tamperBad : Bool := false
  pendingBad : Bool := false
  /-- The AON retention pattern reads intact; false sets RETLOST (R70). -/
  patternOk : Bool := true
  /-- Raw start-up bits of the random source (R469). -/
  entropyBits : List Bool := []
  /-- Granules whose stage 0x8 zeroing does not read back zero (R127). -/
  scrubBad : List Nat := []
  /-- The launches of the FTU calibration, the hits of each tap in the density measurement, and ALIGN_OFS as measured at
  stage 0x8 (R185, R188, R190). -/
  calTaps : List Nat := List.replicate 16 500
  dnlCounts : List Nat := List.replicate 512 16
  alignOfs : Int := 0
  /-- The line checks of the self-test: path, upstream line, what the check saw (R153, R156). -/
  lines : List (Nat × Bool × LineObs) := []
  /-- The lanes that cannot be trimmed to their nominal phase, and the trims of stage 0x8 (R173, R176). -/
  laneBad : List Nat := []
  laneTrims : List Nat := []
  /-- The pair of segments the stage 0x8 check finds shorted (R556). -/
  segShort : Option (Nat × Nat) := none
  /-- The supplies measured at the start. -/
  vbatMv : Nat := 0
  vbakMv : Nat := 0
  deriving DecidableEq, Repr, Inhabited

/-- What one direction meets: the two line checks, the drive current, the reservoir, the PLL lock, the first calibration,
the amplifier's output in the echo window and the FTU's samples (chapters 4 and 5). -/
structure DirObs where
  tx : LineObs := {}
  rx : LineObs := {}
  /-- The drive-current limit was active for more than two half-periods (R149). -/
  overcurrent : Bool := false
  /-- The reservoir at the scheduled burst and for 50 µs after it, mV (R147). -/
  pumpMv : Nat := 0
  /-- Lock time, 0.1 µs. -/
  lock : Nat := 120
  /-- The µs that the direction's start waited after it fell due (R163, R168, R199). -/
  waitUs : Nat := 0
  /-- The first calibration: the tap counts of its 16 launches, 512 for a pulse that left the line's end (R185, R186). -/
  calA : List Nat := List.replicate 16 500
  /-- The amplifier's output against the baseline, µV, from each time (ps from window open) on, in order of time. -/
  wave : List (Nat × Int) := []
  /-- The grid units at which the lane that samples them reads the other level of the zero-crossing output (R174). -/
  flips : List Nat := []
  /-- Coarse and fine count of each stop, in the order of their launches (R184). -/
  taps : List (Nat × Nat) := []
  deriving DecidableEq, Repr, Inhabited

/-- What the end of an echo window brings: the D15 cycles after which lock was lost, where it was, and the second
calibration. -/
structure CloseObs where
  winRun : Nat := 0
  calB : List Nat := List.replicate 16 500
  /-- A parity error in the capture RAM. -/
  parity : Bool := false
  deriving DecidableEq, Repr, Inhabited


/-- A wireless M-Bus frame as it is received: what EN 13757-4 coding gives of it (log 13, DESIGN CHOICE). -/
structure WmbRx where
  /-- Its coding and CRC are valid, and it is format A. -/
  crcOk : Bool := true
  formatA : Bool := true
  ci : Nat := 0
  /-- Its A-field equals the meter's own; its identification number (0xFFFFFFFF for the wildcard). -/
  own : Bool := true
  id : Nat := 0
  /-- Security profile 0, 1 (A) or 2 (B), its key slot, the sender, its counter, and whether its CMAC passes. -/
  profile : Nat := 0
  slot : Nat := 0
  peer : List Byte := []
  counter : Nat := 0
  macOk : Bool := false
  payload : List Byte := []
  /-- Mean RSSI over the synchronisation word, 0.5 dBm, and its air time in ticks. -/
  rssi : Int := -160
  airTicks : Nat := 0
  deriving DecidableEq, Repr, Inhabited

/-- A Gyale frame as it is received: its MPDU after decoding, its PHR (Table 12.1), the RSSI of its synchronisation word in
0.5 dBm, and the measured minus the expected synchronisation instant in µs. -/
structure GyaleRx where
  mpdu : List Byte := []
  phr : BitVec 24 := phrOf mpdu.length 0
  rssi : Int := -160
  off : Int := 0
  deriving DecidableEq, Repr, Inhabited

/-- A received frame: wireless M-Bus, or Gyale in a SLOT_RX. -/
inductive RxObs where
  | wmb (x : WmbRx)
  | gyale (x : GyaleRx) (crcOk : Bool)
  deriving DecidableEq, Repr, Inhabited

/-- How an authentication step reaches the chip: as a job, or as a write of AUTH_CTRL (Tables 14.8 and 14.9a). -/
inductive AuthVia where
  | job (tag : Nat)
  | write (w : WriteCtx) (value : Word)
  deriving DecidableEq, Repr, Inhabited

/-- Who waits for the random FIFO (R472): a job, a port's AUTH_BEGIN, or the node's CONN_REQ. -/
inductive EntropyWaiter where
  | job (tag : Nat)
  | port (sess : Nat)
  | link
  deriving DecidableEq, Repr, Inhabited

/-- What the commands that act on flash, OTP and the key slots meet when a register write starts them: an image load's
flash operation and its bring-up, the OTP bits that do not program, and the erase time with the slots whose compare
does not pass at once, and a mismatch of the cipher engine's own check in an authentication (R33, R45, R455, R464). -/
structure WriteObs where
  flash : FlashObs := {}
  boot : BootObs := {}
  sealStuck : List (Nat × Byte) := []
  eraseNs : Nat := 0
  eraseRepeats : Nat := 0
  fi : Bool := false
  /-- The sources of a FAULT_FORCE write that also really occur in its cycle (R539). -/
  real : Nat := 0
  deriving DecidableEq, Repr, Inhabited

/-- The locked sequence that a forced halt or its bound cuts off: the one that holds the lock, a reseat and its key-slot
loads among them, or a job's consent commit (R58, R132, R462, R508). -/
inductive LockCut where
  | held
  | consent (tag : Nat)
  deriving DecidableEq, Repr, Inhabited

/-- The part of a reseat that a command brings: the whole of Table 1.9, or one of its steps, between which other events may
fall (R54, R57 to R59, R105, R132, R478): the lock (step 1), check and switch point (2 to 4), the STATE byte (5), the
beginning of the next key-slot load (5), and the rest up to unlock (6). -/
inductive ReseatPart where
  | whole | take | switch | store | load | finish
  deriving DecidableEq, Repr, Inhabited

/-- A request of a RESEAT job: the job's tag, and the masters that ask for a reseat in the same cycle (R61, R124, R623). -/
structure ReseatAsk where
  tag : Nat
  rivals : List Nat := []
  deriving DecidableEq, Repr, Inhabited

/-- The part of a reseat that runs and what the flash answers in it (Table 1.9). -/
structure ReseatObs where
  part : ReseatPart := .whole
  flash : FlashObs := {}
  deriving DecidableEq, Repr, Inhabited

/-- The two line checks of a direction, its transmit and its receive line (R153), and the µs from its scheduled start to its
own (R120, R163, R168). -/
structure LinePair where
  tx : LineObs := {}
  rx : LineObs := {}
  waitUs : Nat := 0
  deriving DecidableEq, Repr, Inhabited

/-- The level that an input shows and for how many samples of D23 it has shown it (R300). -/
structure InputRun where
  level : Bool := false
  samples : Nat := 0
  deriving DecidableEq, Repr, Inhabited

/-- What is written to FAULT_FORCE, and the sources that also really occur in its cycle (R518, R539). -/
structure Forced where
  mask : Half := 0
  real : Half := 0
  deriving DecidableEq, Repr, Inhabited

/-- One command per row of the opcode table. -/
inductive Instr where
  /-- VBAT_FALL: VBAT falls through VBAT_OK: main-domain clocks stop, jobs in flight and work SRAM are lost, and the
  AON domain runs on VAON. (R67) -/
  | vbatFall (mv : Int)
  /-- VBAT_RISE: VBAT rises through VBAT_OK and the chip starts bring-up from stage 0x0, warm or cold according to
  RETLOST. (R68) -/
  | vbatRise (mv : Int) (o : BootObs)
  /-- VIO_FALL: VIO falls through VIO_OK, which acts as a fall of VBAT through VBAT_OK. (R604) -/
  | vioFall (mv : Int)
  /-- RESET_N_PULSE: RESET_N held low for at least 10 us resets the main domain and leaves the AON domain unchanged.
  (R602) -/
  | resetNPulse (us : Nat) (taken : Bool) (fall : Bool) (o : BootObs)
  /-- VAON_SOURCE_SWITCH: The hysteresis comparator trips and VAON changes source between VBAT and VBAK within 2 us.
  (R64) -/
  | vaonSourceSwitch (vbatMv : Int) (vbakMv : Int) (dipMv : Nat)
  /-- VAON_TOUCHES_VRET: VAON touches VRET, which sets the RETLOST latch so that the next start is cold. (R70) -/
  | vaonTouchesVret
  /-- VBAK_LOW_CHANGE: VBAK crosses the VBAK_LOW threshold, which sets or clears SUPPLY_STATUS.VBAK_LOW and its
  fault source. (R66) -/
  | vbakLowChange (mv : Int)
  /-- VBAT_REVERSAL: VBAT goes below -0.3 V while VBAK feeds VAON, and the AON domain latches the reversal. (R74) -/
  | vbatReversal (mv : Int)
  /-- STAGE_TIMEOUT: A boot stage exceeds its maximum and the chip enters the bare state with STAGE_TIMEOUT. (R40)
  -/
  | stageTimeout
  /-- WATCHDOG_EXPIRY: No kick arrives within WDOG_PERIOD, so the chip resets the main domain, sets RESET_CAUSE.WDOG
  and makes a warm start. (R95) -/
  | watchdogExpiry (fall : Bool) (o : BootObs)
  /-- XL_FAIL_DETECT: No D04 edge arrives for XL_FAIL_MS, so DT continues from D05 and XL_FAIL is raised. (R93) -/
  | xlFailDetect (makeup : Nat)
  /-- XL_RETRY: Every 64 s the chip retries the failed 32.768 kHz crystal and returns DT to D04 on recovery. (R93)
  -/
  | xlRetry (ok : Bool) (ppm : Option Int)
  /-- XO39_START_TIMEOUT: The 39 MHz crystal does not start within 1 ms, so XO39_FAIL is raised and the radio job
  ends SYNTH_TIMEOUT. (R94) -/
  | xo39StartTimeout (lateUs : Nat)
  /-- D04_TICK: At each D04 tick DT advances by one unit of 1/32768 s. (R97) -/
  | d04Tick
  /-- TIME_SET_REQUEST: A SET_CTRL write with GO and the key requests an absolute set of DT at the next D04 tick.
  (R98) -/
  | timeSetRequest (w : WriteCtx) (key : Half)
  /-- TIME_ADJUST_REQUEST: A SET_CTRL write with GO and ADJUST requests a signed adjustment of DT at the next D04
  tick. (R98) -/
  | timeAdjustRequest (w : WriteCtx) (key : Half)
  /-- TIME_SET_APPLY: At the tick that carries a pending set, DT takes its new value and LAST_STEP, the step sums,
  SET_COUNT, the event record and the calendar are updated. (R99) -/
  | timeSetApply
  /-- VBAT_MEASURE: At every VBAT_MEAS_S interval, and before each peak operation, VBAT is measured against TX_MIN
  and FLASH_MIN. (R80) -/
  | vbatMeasure (vbatMv : Nat) (vbakMv : Nat) (c : Charge)
  /-- VBAT_RECOVERY: VBAT rises above the limit plus 100 mV, which releases queued B jobs and a held transmission.
  (R80) -/
  | vbatRecovery (mv : Nat)
  /-- TX_BROWNOUT: VBAT stays below TX_MIN for more than 20 us during a transmission, so the PA ramps down and the
  job completes BROWNOUT. (R81) -/
  | txBrownout (mv : Nat)
  /-- FLASH_BROWNOUT: VBAT falls below FLASH_MIN during a flash program or erase, so the job completes BROWNOUT.
  (R82) -/
  | flashBrownout (mv : Nat)
  /-- GOVERNOR_DAY_ROLL: At each governor-day roll the chip computes the allowance, clears the spend counters and
  writes a governor-day record. (R84) -/
  | governorDayRoll (c : Charge)
  /-- GOVERNOR_CATCHUP: After the journal mount ends, the chip evaluates the held governor-day rolls in day order.
  (R616) -/
  | governorCatchup
  /-- IMAGE_LOAD_ERASE: LOAD_CTRL ERASE erases the 16 sectors of the named copy in the bare state. (R45) -/
  | imageLoadErase (w : WriteCtx) (copyB : Bool) (o : FlashObs)
  /-- IMAGE_LOAD_PROGRAM: LOAD_CTRL PROGRAM writes LOAD_BUF to the page at LOAD_ADDR, with header bytes 0x00-0x0F
  written last. (R45) -/
  | imageLoadProgram (w : WriteCtx) (copyB : Bool) (o : FlashObs)
  /-- IMAGE_LOAD_FINISH: LOAD_CTRL FINISH verifies the copy by R28 and, if it is valid, marks it active and restarts
  at stage 0x3. (R45) -/
  | imageLoadFinish (w : WriteCtx) (copyB : Bool) (o : FlashObs) (boot : BootObs)
  /-- SEAL_COMMAND: A SEAL_CMD write from a maker session checks METRO_CRC and programs the sealed CRC, the seal DT
  and the seal byte in order. (R32) -/
  | sealCommand (w : WriteCtx) (metro : Word) (stuck : List (Nat × Byte))
  /-- STAGE: A STAGE job checks an amendment, builds the new image and programs it into the standby copy as a
  pending copy. (R47) -/
  | stage (tag : Nat) (mv : Nat)
  /-- STAGE_DEFERRED_RESUME: A staging or reseat request deferred during a staging is checked once that staging
  ends. (R60) -/
  | stageDeferredResume (mv : Nat)
  /-- RESEAT_REQUEST_GO: A write of GO with key 0xA5C3 to RESEAT_CTRL requests a reseat. (R50) -/
  | reseatRequestGo (w : WriteCtx) (key : Half)
  /-- RESEAT_JOB: A RESEAT job for the Mason core requests a reseat. (R623) -/
  | reseatJob (ask : ReseatAsk)
  /-- ACTIVATE_DT_REACHED: DT reaches a pending copy's non-zero ACTIVATE_DT while the clock-quality code is not 3,
  which requests a reseat. (R50) -/
  | activateDtReached
  /-- RESEAT_LOCK: After the shot pair, any locked sequence and any frame in the air have ended, the reseat lock is
  taken and Table 1.9 runs to unlock. (R51) -/
  | reseatLock (o : ReseatObs) (dur : Nat)
  /-- JOB_SUBMIT: A DESC7 write submits the master's staged descriptor, which is checked by Table 3.5 and then
  admitted, stalled or refused. (R617) -/
  | jobSubmit (w : WriteCtx) (q : Nat) (word7 : Word)
  /-- WAITING_ADMISSION: A released tag or granule admits a waiting job, M first, then B, then C and H. (R135) -/
  | waitingAdmission
  /-- FIFO_WAIT_EXPIRY: A C or H job not admitted within Q_WAIT_MS completes DEFERRED. (R119) -/
  | fifoWaitExpiry (q : Nat) (seq : Nat)
  /-- AUTO_RETRY_RESUBMIT: RETRY_S after a DEFERRED completion, the fabric resubmits an AUTO_RETRY descriptor once
  as a new job. (R119) -/
  | autoRetryResubmit (q : Nat)
  /-- JOB_DISPATCH: A free engine takes the ready job chosen by class, queue priority and age, and the power state
  is raised. (R121) -/
  | jobDispatch (n : Nat) (waitUs : Nat) (c : Charge)
  /-- JOB_COMPLETION: An engine ends a job: the fabric writes the completion record, releases the tag and applies
  the chaining. (R111) -/
  | jobCompletion (tag : Nat) (c : Charge)
  /-- JOB_WATCHDOG_EXPIRY: A job's class watchdog expires, so the engine is stopped and the job completes TIMEOUT.
  (R109) -/
  | jobWatchdogExpiry (tag : Nat)
  /-- HELD_JOB_TIMEOUT: A held job whose wait count has not reached 0 within four class watchdogs completes TIMEOUT.
  (R115) -/
  | heldJobTimeout (tag : Nat)
  /-- GRANULE_ZEROED: The scrubber finishes zeroing a granule and reads it back, and retires the granule on
  SCRUB_FAIL. (R127) -/
  | granuleZeroed (g : Nat) (stuck : List (Nat × Byte))
  /-- COMPLETION_POP: A service-port read of CPL3 pops the oldest completion record and copies it to SP_LAST_POP.
  (R571) -/
  | completionPop (q : Nat)
  /-- QUEUE_OVERRUN_CLEAR: A write of 1 to Q_CTRL.OVERRUN_CLR clears the queue's OVERRUN bit. (R130) -/
  | queueOverrunClear (w : WriteCtx) (q : Nat) (notifyEn : Bool)
  /-- HW_TRIGGER: One of hardware triggers 2-7 reaches its D04 instant and submits its descriptor template. (R140)
  -/
  | hwTrigger (n : Nat)
  /-- DT_BOUNDARY_EVENT: A second, minute, hour or day DT boundary raises the Mason event of that kind. (R622) -/
  | dtBoundaryEvent (kind : Nat)
  /-- MASON_TIMER_EVENT: An event-table timer period expires and raises a kind-10 event. (R619) -/
  | masonTimerEvent (i : Nat)
  /-- RECIPE_START: A waiting trigger-FIFO entry finds a free context and starts its recipe. (R131) -/
  | recipeStart
  /-- RECIPE_SUBMIT: A SUBMIT step submits a template to a queue as master 0x08. (R110) -/
  | recipeSubmit (i : Nat)
  /-- RECIPE_WAIT: A WAIT step waits for the job that its context submitted last. (R620) -/
  | recipeWait (i : Nat)
  /-- RECIPE_IFST: An IFST step skips n steps forward when the status tested equals its operand. (R620) -/
  | recipeIfst (i : Nat)
  /-- RECIPE_LOCK: A LOCK step takes a locked sequence of the named kind. (R132) -/
  | recipeLock (i : Nat)
  /-- RECIPE_UNLOCK: An UNLOCK step ends the context's locked sequence. (R132) -/
  | recipeUnlock (i : Nat)
  /-- RECIPE_SETITEM: A SETITEM step writes an item, settled against same-cycle writes by R17. (R124) -/
  | recipeSetitem (i : Nat) (rivals : List (Nat × Nat)) (o : WriteObs)
  /-- RECIPE_END: An END step ends the recipe, releases any lock it holds and frees its context. (R621) -/
  | recipeEnd (i : Nat)
  /-- LOCK_OVERRUN: A locked sequence passes its bound, so it is rolled back, completes TIMEOUT, raises LOCK_OVERRUN
  and ends its recipe. (R132) -/
  | lockOverrun (o : FlashObs) (cut : LockCut)
  /-- SHOT_TRIGGER: Trigger 0 fires at the shot period plus jitter and submits the path-1 SHOT_PAIR job. (R207) -/
  | shotTrigger
  /-- SHOT_PAIR: A dispatched SHOT_PAIR job fires the pair of directions on a path in the order given by the pair
  number, and evaluates it by Table 6.1. (R209) -/
  | shotPair (tag : Nat)
  /-- SHOT_DIRECTION: A direction starts: the matrix is set, the lines are checked, the PLL and the burst
  synthesiser lock, and the burst fires. (R148) -/
  | shotDirection (o : DirObs)
  /-- PUMP_SLOW: The reservoir does not reach VPUMP within 50 us of the scheduled burst, so the direction is not
  fired. (R147) -/
  | pumpSlow (lines : LinePair) (mv : Nat)
  /-- PLL_LOCK_TIMEOUT: The capture PLL does not lock within 20 us, so the direction is not fired and PLL_LOCK_FAIL
  is raised. (R170) -/
  | pllLockTimeout (lines : LinePair) (mv : Nat)
  /-- PLL_UNLOCK_IN_WINDOW: The PLL loses lock inside the echo window, so the window closes at once and the FTU
  stops. (R172) -/
  | pllUnlockInWindow (c : CloseObs)
  /-- ECHO_WINDOW_CLOSE: The echo window ends, the second FTU calibration runs, the stop times are composed and the
  kept span is copied to work SRAM. (R171) -/
  | echoWindowClose (c : CloseObs)
  /-- NOISE_RETRY: After a REJECT_NOISE outcome, the pair is fired once more after a random delay. (R215) -/
  | noiseRetry
  /-- FLOW: The FLOW job computes dt, time of flight, sound speed, velocity and flow, combines the paths and writes
  the flow record. (R225) -/
  | flow (tag : Nat)
  /-- PLUMB_REQUEST: A PLUMB_REQUEST job makes a plumb check due for the next pair. (R222) -/
  | plumbRequest (tag : Nat)
  /-- ORIENT_CHECK: An ORIENT_CHECK job judges the sign of the last 16 accepted flows and records FORWARD, REVERSE
  or UNDECIDED. (R230) -/
  | orientCheck (tag : Nat)
  /-- LINE_CHECK: A LINE_CHECK job checks the named lines and updates the CAP registers. (R161) -/
  | lineCheck (tag : Nat) (o : List LineObs)
  /-- PEAK_PROBE: A PEAK_PROBE job fires one direction and returns the peak code. (R161) -/
  | peakProbe (tag : Nat) (o : DirObs)
  /-- RAW_CAPTURE: A RAW_CAPTURE job copies the records of a capture buffer to its output granules. (R196) -/
  | rawCapture (tag : Nat)
  /-- CALIBRATE: A CALIBRATE job runs one FTU calibration and returns CAL16. (R196) -/
  | calibrate (tag : Nat) (taps : List Nat) (escaped : Bool)
  /-- DENSITY: A DENSITY job applies 8192 asynchronous hits and returns the delay-line DNL. (R188) -/
  | density (tag : Nat) (counts : List Nat)
  /-- SCALE_MEASURE: The fabric counts D07 cycles over 4096 D04 cycles and updates SCALE_PPB. (R191) -/
  | scaleMeasure (count : Nat)
  /-- SCALE_STALE: No scale measurement completes within 4 x SCALE_S, so SCALE_STALE is raised. (R191) -/
  | scaleStale
  /-- TEMP_TRIGGER: Trigger 1 fires every TEMP_PERIOD_S and submits a TEMP_SET job. (R257) -/
  | tempTrigger
  /-- TEMP_SET: A TEMP_SET job measures every used channel, the reference and the bridge, and publishes a
  temperature record. (R257) -/
  | tempSet (tag : Nat)
  /-- EXC_SETTLE_END: The excitation settle of EXC_SETTLE D04 ticks ends and conversion A starts. (R248) -/
  | excSettleEnd
  /-- CONVERSION_END: A sigma-delta conversion delivers its third decimated output as a SETTLED result. (R245) -/
  | conversionEnd (vin : Int) (vref : Int) (limit : Bool) (ua : Nat)
  /-- CH_PROBE: A CH_PROBE job converts one input at OSR 64 and returns the top bits of D. (R259) -/
  | chProbe (tag : Nat)
  /-- STEP: An integration step classifies itself and adds volume, energy, base volume, times and tariff increments
  in one effect cycle. (R273) -/
  | step (tag : Nat)
  /-- ACC_RESET: An ACC_RESET job zeroes every accumulator, time, maximum and tariff register on an unsealed chip.
  (R287) -/
  | accReset (tag : Nat)
  /-- ERROR_RUN: ERR_TIME grows for ERR_ALARM_S without a NORMAL step, so ERROR_RUN is raised. (R289) -/
  | errorRun
  /-- CALENDAR_EVALUATE: At each local minute boundary the calendar recomputes the tariff and raises event 6 on a
  change. (R309) -/
  | calendarEvaluate
  /-- SNAP_REQUEST: A SNAP_REQUEST job raises event 9 for an on-demand snapshot, within SNAP_DAY_MAX per day. (R311)
  -/
  | snapRequest (tag : Nat)
  /-- BILL_COMMIT: BILL_COMMIT builds the snapshot into the older AON slot, advances SNAP_SEQ, restarts the maxima
  and submits its journal job. (R313) -/
  | billCommit (tag : Nat)
  /-- TAR_IN_CHANGE: A debounced change of TAR_IN changes the external tariff source. (R303) -/
  | tarInChange (run : InputRun)
  /-- TAMPER_INPUT_CHANGE: A change on MAG_IN or CASE_IN starts or restarts the debounce run of that source. (R318)
  -/
  | tamperInputChange (n : Nat) (level : Bool)
  /-- TAMPER_DEBOUNCE_END: A MAG_IN or CASE_IN run stays stable for its debounce time, and the MAGNET or CASE source
  opens or closes. (R318) -/
  | tamperDebounceEnd (n : Nat)
  /-- PULSE_EDGE: A debounced leading edge on PLS1 or PLS2 adds to a pulse counter or to REF_VOL. (R320) -/
  | pulseEdge (n : Nat) (leading : Bool) (run : InputRun)
  /-- BYPASS_WINDOW: Every BYP_WIN_MIN the bypass window compares reference and own volume to open or close BYPASS.
  (R319) -/
  | bypassWindow
  /-- TAMPER_ACK: A TAMPER_ACK job clears the named ACK_PENDING bits. (R324) -/
  | tamperAck (tag : Nat)
  /-- WRITE: A journal WRITE job packs records into a page, fills the pending slot and programs the page body.
  (R345) -/
  | write (tag : Nat) (mv : Nat)
  /-- FLASH_OP_READY: A flash program or erase reports ready, and the chip reads it back and goes on to the next
  operation of its job. (R347) -/
  | flashOpReady (o : FlashObs)
  /-- COMMIT_SETTLE_END: COMMIT_SETTLE_US after the commit program, COMMIT is read twice and the page is committed,
  or it is voided and rewritten. (R348) -/
  | commitSettleEnd (mv : Nat)
  /-- BROWNOUT_REWRITE: After VBAT has stayed above FLASH_MIN plus 100 mV for 10 ms, the pending page is rewritten
  at the next position with REWRITE set. (R350) -/
  | brownoutRewrite (mv : Nat)
  /-- FLASH_BUSY_TIMEOUT: A flash operation does not end within twice its declared maximum, so FLASH_BUSY_TIMEOUT is
  raised. (R338) -/
  | flashBusyTimeout
  /-- FLASH_IDLE_POWER_DOWN: After DPD_IDLE_US without access, the flash is sent to deep power-down or NV_PWR is
  switched off. (R337) -/
  | flashIdlePowerDown
  /-- READ: A journal READ job checks a page by Table 10.11 and returns a corrected copy, or reports CHECK_FAILED.
  (R353) -/
  | read (tag : Nat)
  /-- RAW_READ: A RAW_READ job returns one page uncorrected, with its check results. (R355) -/
  | rawRead (tag : Nat)
  /-- RECLAIM: A RECLAIM job copies the kept pages of the oldest sector forward, then erases and verifies that
  sector. (R359) -/
  | reclaim (tag : Nat) (mv : Nat)
  /-- RELOCATE: A RELOCATE job reclaims the in-use sector with the lowest erase count. (R361) -/
  | relocate (tag : Nat) (mv : Nat)
  /-- JOURNAL_REFRESH: A journal REFRESH job copies forward a page that needs correction or has reached
  REFRESH_DAYS. (R362) -/
  | journalRefresh (tag : Nat) (mv : Nat)
  /-- MOUNT: A MOUNT job indexes the journal, voids torn pages, rewrites the pending slot and writes a mount
  summary. (R356) -/
  | mount (tag : Nat) (mv : Nat) (ms : Nat)
  /-- TELEGRAM_DUE: A drive-by telegram falls due at its period of the active profile. (R394) -/
  | telegramDue
  /-- WMB_BUILD: A WMB_BUILD job builds a telegram from its template and takes the next TXC. (R393) -/
  | wmbBuild (tag : Nat)
  /-- CTR_RESERVE_COMMIT: The counter-reservation record commits and the waiting telegram is built. (R396) -/
  | ctrReserveCommit
  /-- WMB_SEND: A dispatched WMB_SEND job waits in a radio context for its jitter point. (R394) -/
  | wmbSend (tag : Nat)
  /-- JITTER_POINT: An activity's instant falls due and its radio start-up begins, subject to arbitration between
  activities. (R376) -/
  | jitterPoint (tag : Nat)
  /-- SYNTH_LOCK: The synthesiser locks, and transmission or listening begins. (R384) -/
  | synthLock (xo : Option (Nat × Int)) (lateUs : Nat)
  /-- SYNTH_TIMEOUT: Lock is not detected within 400 us of calibration, so the activity ends SYNTH_TIMEOUT. (R385)
  -/
  | synthTimeout (lateUs : Nat)
  /-- LOCK_LOST_IN_FRAME: Lock is lost during a frame, so the PA ramps down and the activity ends SYNTH_TIMEOUT.
  (R384) -/
  | lockLostInFrame
  /-- LBT_LISTEN_END: A listen-before-talk period ends, and the frame is sent or the chip backs off. (R391) -/
  | lbtListenEnd (rssi : Int) (lateUs : Nat)
  /-- LBT_BACKOFF_END: The random LBT backoff ends and the chip listens again. (R391) -/
  | lbtBackoffEnd
  /-- SEND_RETRY: A failed SEND is retried once at its next jitter point. (R387) -/
  | sendRetry (tag : Nat)
  /-- TX_END: A transmission ends and its return loss is measured; `minMv` is the lowest VBAT in it. (R381) -/
  | txEnd (rl : Nat) (low : Bool) (airUs minMv : Nat)
  /-- WATCH_PROBE_DUE: In watch state 2, a probe telegram under profile P falls due every PROBE_MIN. (R381) -/
  | watchProbeDue
  /-- WATCH_PROBE: A WATCH_PROBE job sends a probe and returns its return loss. (R381) -/
  | watchProbe (tag : Nat)
  /-- RF_TEST: An RF_TEST job emits an unmodulated carrier for up to 1 s. (R405) -/
  | rfTest (tag : Nat)
  /-- SLOT_TX: A SLOT_TX job transmits a Gyale frame at its instant, or completes SLOT_MISSED. (R386) -/
  | slotTx (tag : Nat)
  /-- SLOT_RX: A SLOT_RX job listens over its interval and delivers a frame. (R386) -/
  | slotRx (tag : Nat)
  /-- RX_INTERFERENCE_ABORT: A frame being received is abandoned for an RSSI jump or a timing error. (R389) -/
  | rxInterferenceAbort
  /-- RX_FRAME_END: A received frame ends and is checked, then discarded or delivered. (R390) -/
  | rxFrameEnd (obs : RxObs)
  /-- RX_WINDOW_OPEN: RXW_DELAY_MS after a telegram, a receive window opens. (R398) -/
  | rxWindowOpen
  /-- RX_WINDOW_CLOSE: A receive window's time ends and the window closes. (R398) -/
  | rxWindowClose
  /-- COMMAND_HOLD_END: A held radio command's hold ends, and the command is submitted or loses under R438. (R437)
  -/
  | commandHoldEnd (rivals : List (Nat × Nat)) (o : WriteObs)
  /-- COMMAND_ANSWER: RSP_DELAY_MS after a command frame, the answer telegram carrying the completion record is
  sent. (R400) -/
  | commandAnswer
  /-- SNIFF: Every SNIFF_PERIOD_MS the radio listens for SNIFF_US, and extends the listen to WAKE_WAIT_MS on a
  match. (R401) -/
  | sniff (rssi : Int) (rateOk : Bool)
  /-- GYALE_BEACON_RX: A received beacon is judged as a candidate parent during SCAN. (R424) -/
  | gyaleBeaconRx (x : GyaleRx) (ch : Nat)
  /-- GYALE_CONN_REQ_RX: A relay receives a CONN_REQ and answers with a CONN_RSP. (R425) -/
  | gyaleConnReqRx (x : GyaleRx) (ch : Nat)
  /-- GYALE_CONN_RSP_RX: A received CONN_RSP sets up the connection and the FCNT floor. (R425) -/
  | gyaleConnRspRx (x : GyaleRx)
  /-- GYALE_DATA_RX: A received DATA frame passes Table 12.4 and is delivered or acknowledged. (R427) -/
  | gyaleDataRx (x : GyaleRx)
  /-- GYALE_ACK_RX: A received ACK acknowledges an SN, carries ADJUST_US and gives a link-margin report. (R427) -/
  | gyaleAckRx (x : GyaleRx)
  /-- GYALE_FLOOD_RX: A received FLOOD is checked against the seen cache, taken if addressed and queued for
  forwarding. (R432) -/
  | gyaleFloodRx (x : GyaleRx)
  /-- GYALE_UPLINK_RX: A received UPLINK is checked against the seen cache and forwarded to the parent. (R433) -/
  | gyaleUplinkRx (x : GyaleRx)
  /-- GYALE_TERM_RX: A received TERM ends the connection at once. (R430) -/
  | gyaleTermRx (x : GyaleRx)
  /-- SCAN_LISTEN: In SCAN the link listens for SCAN_MS on each advertising channel, every SCAN_PERIOD_S. (R424) -/
  | scanListen
  /-- CONN_REQ_SEND: 300 us after a chosen beacon ends, the node sends CONN_REQ. (R425) -/
  | connReqSend
  /-- CONN_RSP_TIMEOUT: No valid CONN_RSP arrives within REQ_WIN_US, and the node returns to SCAN. (R425) -/
  | connRspTimeout
  /-- BEACON_SEND: A connected relay sends its beacon every BEACON_MS. (R414) -/
  | beaconSend
  /-- CONNECTION_EVENT: An active connection's anchor falls due and the central sends first on the hopped channel.
  (R427) -/
  | connectionEvent (c : Nat)
  /-- EVENT_ANSWER_TIMEOUT: An expected answer does not begin within 350 us, or EVT_MAX_MS passes, and the event
  ends. (R427) -/
  | eventAnswerTimeout (c : Nat)
  /-- SLEEPY_SLOT: A sleepy node's slot instant falls due and it sends a pending frame or a poll. (R428) -/
  | sleepySlot (c : Nat)
  /-- GUARD_LISTEN_TIMEOUT: A guard listen ends without the peer's first frame, and the slot counts as missed.
  (R429) -/
  | guardListenTimeout (c : Nat)
  /-- SUPERVISION_TIMEOUT: SUPERV passes without a valid frame, so the connection is lost. (R430) -/
  | supervisionTimeout (c : Nat)
  /-- RELAY_FORWARD: The relay delay expires and a flood or uplink is forwarded with TTL reduced by one. (R432) -/
  | relayForward
  /-- REASSEMBLY_TIMEOUT: A message is not complete within REASM_S, so it is discarded and counted in REASM_FAIL.
  (R422) -/
  | reassemblyTimeout
  /-- ORPHAN_TIMEOUT: After ORPHAN_H hours without CONNECTED, ORPHAN is raised. (R424) -/
  | orphanTimeout
  /-- LINK_SEND: A LINK_SEND job fragments a message into FLOOD or UPLINK frames and sends them. (R440) -/
  | linkSend (tag : Nat)
  /-- LINK_LEAVE: A LINK_LEAVE job sends TERM reason 1 to the parent and enters SCAN. (R440) -/
  | linkLeave (tag : Nat)
  /-- LINK_RESCAN: A LINK_RESCAN job enters SCAN at once. (R440) -/
  | linkRescan (tag : Nat)
  /-- CCM_SEAL: A CCM_SEAL cipher job encrypts and tags a payload. (R450) -/
  | ccmSeal (tag : Nat) (fi : Option Nat)
  /-- CCM_OPEN: A CCM_OPEN cipher job decrypts and verifies the tag, and zeroes its output on a mismatch. (R454) -/
  | ccmOpen (tag : Nat) (fi : Option Nat)
  /-- CTR: A CTR cipher job encrypts or decrypts in counter mode. (R450) -/
  | ctr (tag : Nat) (fi : Option Nat)
  /-- CBC_ENC: A CBC_ENC cipher job encrypts whole blocks in CBC mode. (R450) -/
  | cbcEnc (tag : Nat) (fi : Option Nat)
  /-- CBC_DEC: A CBC_DEC cipher job decrypts whole blocks in CBC mode. (R450) -/
  | cbcDec (tag : Nat) (fi : Option Nat)
  /-- CMAC_GEN: A CMAC_GEN cipher job computes a CMAC. (R450) -/
  | cmacGen (tag : Nat) (fi : Option Nat)
  /-- CMAC_VER: A CMAC_VER cipher job verifies a CMAC tag. (R454) -/
  | cmacVer (tag : Nat) (fi : Option Nat)
  /-- ZEROIZE: A ZEROIZE job raises alarm source 5 on the named slots. (R463) -/
  | zeroize (tag : Nat) (ns : Nat) (repeats : Nat)
  /-- ERASE_CMD: A write of GO with key 0xC1A5 to ERASE_CMD raises alarm source 5 on every slot. (R463) -/
  | eraseCmd (w : WriteCtx) (key : Half) (ns : Nat) (repeats : Nat)
  /-- ALARM: An alarm reaches Quoin and erases the selected key slots within 2 us. (R463) -/
  | alarm (source : Nat) (ns : Nat) (repeats : Nat)
  /-- ERASE_REPEAT: A failed erase compare repeats the erase pulse every 1 us until it passes. (R464) -/
  | eraseRepeat (failing : Nat) (ns : Nat)
  /-- RANDOM: A RANDOM job takes bytes from the random FIFO. (R472) -/
  | random (tag : Nat)
  /-- RAW_SAMPLES: A RAW_SAMPLES job returns raw entropy bits on an unsealed chip. (R475) -/
  | rawSamples (tag : Nat) (raw : List Bool)
  /-- ENTROPY_WAIT_TIMEOUT: A consumer waits 2 ms for an empty random FIFO, and its job completes REFUSED_POLICY.
  (R472) -/
  | entropyWaitTimeout (w : EntropyWaiter)
  /-- CONDITIONED_BLOCK: COND_RAW raw bits are conditioned into a 128-bit block for the FIFO or the mask expander.
  (R470) -/
  | conditionedBlock (raw : List Bool)
  /-- STARTUP_TEST_PASS: 1024 start-up raw bits pass both health tests and the random output becomes available.
  (R469) -/
  | startupTestPass (raw : List Bool)
  /-- HEALTH_TEST_FAIL: A repetition or proportion test reaches its cutoff, so the FIFO is flushed and the source
  restarts. (R471) -/
  | healthTestFail (raw : List Bool)
  /-- MASK_STALE: The mask expander outputs 16 x RESEED_BITS bits without a reseed, which sets MASK_STALE. (R473) -/
  | maskStale
  /-- AUTH_BEGIN: AUTH_BEGIN takes a role and a host nonce and returns a challenge. (R488) -/
  | authBegin (via : AuthVia)
  /-- AUTH_FINISH: AUTH_FINISH verifies RESP, derives the session key into the port's slot and returns CONF. (R488)
  -/
  | authFinish (via : AuthVia)
  /-- SESSION_END: SESSION_END ends the port's session and erases its slot. (R491) -/
  | sessionEnd (via : AuthVia)
  /-- SESSION_IDLE_TIMEOUT: SESS_IDLE_S passes without a request, so the session ends. (R491) -/
  | sessionIdleTimeout (i : Nat)
  /-- SESSION_MAX_TIMEOUT: SESS_MAX_S after opening, the session ends. (R491) -/
  | sessionMaxTimeout (i : Nat)
  /-- CHALLENGE_EXPIRY: A challenge expires after AUTH_CHAL_S. (R489) -/
  | challengeExpiry (i : Nat)
  /-- LOCKOUT_END: A port's lockout for a role runs out. (R492) -/
  | lockoutEnd
  /-- CONSENT_PROPOSE: CONSENT_PROPOSE verifies the proposer's token and takes a consent entry with a new REF.
  (R496) -/
  | consentPropose (tag : Nat)
  /-- CONSENT_SIGN: CONSENT_SIGN verifies the countersign and runs the consent-commit locked sequence. (R496) -/
  | consentSign (tag : Nat)
  /-- CONSENT_WITHDRAW: CONSENT_WITHDRAW withdraws a proposed or committed entry. (R497) -/
  | consentWithdraw (tag : Nat)
  /-- CONSENT_SIGN_EXPIRY: A proposal not countersigned within 24 h expires. (R496) -/
  | consentSignExpiry (e : Nat)
  /-- CONSENT_USE_EXPIRY: A committed consent not used within 24 h expires. (R496) -/
  | consentUseExpiry (e : Nat)
  /-- DEBUG_HOURS_EXPIRY: DEBUG_HOURS after installation, the effective debug level falls to 0. (R501) -/
  | debugHoursExpiry
  /-- FAULT_STATUS_CLEAR: A write of 1 to FAULT_STATUS clears event sources and re-arms the first-fault capture.
  (R516) -/
  | faultStatusClear (w : WriteCtx) (b : Block) (mask : Half)
  /-- FAULT_FORCE: A write to FAULT_FORCE raises its source exactly as a real occurrence would. (R518) -/
  | faultForce (w : WriteCtx) (b : Block) (forced : Forced)
  /-- ALIVE_TOGGLE: At each half-second boundary of the D05 counter, ALIVE toggles while no class B, C or D source
  is raised. (R530) -/
  | aliveToggle
  /-- LCD_FRAME_START: A frame starts, and at an even frame the changed lines are taken into drive memory. (R548) -/
  | lcdFrameStart
  /-- DISPLAY_REFRESH: A REFRESH job renders a page into shadow memory from one fabric cycle of source words. (R549)
  -/
  | displayRefresh (tag : Nat)
  /-- SEG_CHECK: A SEG_CHECK drives each segment in turn and detects shorts between neighbours. (R556) -/
  | segCheck (tag : Option Nat) (short : Option (Nat × Nat))
  /-- CONTRAST_UPDATE: Every 60 s the die temperature is measured and the VLCD target is set. (R551) -/
  | contrastUpdate (tDie : Int) (mv : Int)
  /-- VLCD_RANGE_TIMER: VLCD stays outside +-10 % of its target for 1 s, so VLCD_RANGE is raised. (R551) -/
  | vlcdRangeTimer (mv : Int)
  /-- PAGE_SELECT: A PAGE_SEL write with SEL_GO shows the chosen page from the next REFRESH. (R553) -/
  | pageSelect (w : WriteCtx) (page : Nat) (hold : Bool)
  /-- PAGE_HOLD: A write of HOLD stops or restarts the page scroll. (R553) -/
  | pageHold (w : WriteCtx) (page : Nat) (hold : Bool)
  /-- PAGE_DWELL_END: PAGE_S passes and the scroll moves to the next page. (R553) -/
  | pageDwellEnd
  /-- HOLD_TIMEOUT: SESS_IDLE_S after HOLD was set, the scroll resumes. (R553) -/
  | holdTimeout
  /-- SP_READ: A service-port read transaction stages N words in one cycle and returns them, or WAIT. (R570) -/
  | spRead (b : List Byte) (ready : Bool) (popped : List Nat)
  /-- SP_WRITE: A service-port write transaction checks rights for every word and applies the words in ascending
  address. (R572) -/
  | spWrite (b : List Byte) (rivals : List (Nat × Nat)) (o : WriteObs) (ready : Bool)
  /-- SP_FRAME_ERROR: SP_CS rises before the request is complete, so nothing is done and SP_FRAME_ERROR is raised.
  (R568) -/
  | spFrameError (b : List Byte)
  /-- REGISTER_WRITE: A write to a register word that has no row of its own is applied through the fabric write
  port. (R124) -/
  | registerWrite (w : WriteCtx) (addr : Nat) (v : Word) (o : WriteObs)
  /-- RESET_CAUSE_READ: A service-port read of RESET_CAUSE has the RS side effect on the register. (R18) -/
  | resetCauseRead
  /-- LATCHED_WORD_READ: A read of the low word of a 64-bit value latches its high word and fraction for the same
  master. (R292) -/
  | latchedWordRead (master : Nat) (addr : Nat)
  /-- GRAN_ALLOC_C: GRAN_CTRL ALLOC C draws one granule for the port's C owner. (R573) -/
  | granAllocC (w : WriteCtx)
  /-- GRAN_ALLOC_H: GRAN_CTRL ALLOC H draws one granule from the H reserve. (R573) -/
  | granAllocH (w : WriteCtx)
  /-- GRAN_FREE: GRAN_CTRL FREE returns a granule the port holds. (R573) -/
  | granFree (w : WriteCtx) (g : Nat)
  /-- PORT_GRANULE_IDLE_FREE: A port's granules are freed after OPT_IDLE_S without access when no session is open.
  (R573) -/
  | portGranuleIdleFree (master : Nat)
  /-- MSG_IDENT: An IDENT message returns the IDENT words 0x000-0x02C. (R574) -/
  | msgIdent (f : List Byte)
  /-- MSG_READ: A READ message reads N words with their side effects. (R575) -/
  | msgRead (f : List Byte)
  /-- MSG_WRITE: A WRITE message writes N words as the service port does. (R575) -/
  | msgWrite (f : List Byte) (rivals : List (Nat × Nat)) (o : WriteObs)
  /-- MSG_SUBMIT: A SUBMIT message submits a descriptor to a queue and returns Q_SUBMIT. (R575) -/
  | msgSubmit (f : List Byte)
  /-- MSG_POLL: A POLL message pops and returns the oldest completion record of a queue. (R575) -/
  | msgPoll (f : List Byte)
  /-- MSG_GRANULE_ALLOC_C: A GRANULE message with CMD 1 allocates a C granule. (R573) -/
  | msgGranuleAllocC (f : List Byte)
  /-- MSG_GRANULE_ALLOC_H: A GRANULE message with CMD 2 allocates an H granule. (R573) -/
  | msgGranuleAllocH (f : List Byte)
  /-- MSG_GRANULE_FREE: A GRANULE message with CMD 3 frees a granule. (R573) -/
  | msgGranuleFree (f : List Byte)
  /-- MSG_GRANULE_WRITE: A GRANULE message with CMD 4 writes data into a held granule. (R565) -/
  | msgGranuleWrite (f : List Byte)
  /-- MSG_PAGE: A PAGE message returns the LCD drive memory. (R574) -/
  | msgPage (f : List Byte)
  /-- MSG_AUTH_BEGIN: An AUTH message with SUB 0 begins the authentication exchange. (R576) -/
  | msgAuthBegin (f : List Byte)
  /-- MSG_AUTH_FINISH: An AUTH message with SUB 1 finishes the exchange and returns CONF. (R576) -/
  | msgAuthFinish (f : List Byte)
  /-- MSG_AUTH_END: An AUTH message with SUB 2 ends the session. (R576) -/
  | msgAuthEnd (f : List Byte)
  /-- MSG_RATE: A RATE message agrees a new optical rate. (R580) -/
  | msgRate (f : List Byte)
  /-- OPT_CHAR_GAP_TIMEOUT: A gap of more than 30 bit times between characters discards the frame. (R579) -/
  | optCharGapTimeout
  /-- OPT_REPLY: Between 20 and 200 ms after a request, the optical reply frame is sent. (R579) -/
  | optReply
  /-- OPT_RATE_SWITCH: 50 ms after the RATE reply ends, both sides switch rate. (R580) -/
  | optRateSwitch
  /-- OPT_WAKE_DETECT: OPT_RX stays lit for OPT_WAKE_MS, so the port enters WAKE. (R580) -/
  | optWakeDetect
  /-- OPT_WAKE_LISTEN_TIMEOUT: No valid frame arrives within 2 s in WAKE, and the port returns to SLEEP. (R580) -/
  | optWakeListenTimeout
  /-- OPT_IDLE_TIMEOUT: OPT_IDLE_S without a valid frame returns the port to SLEEP and ends the optical session.
  (R580) -/
  | optIdleTimeout
  /-- DBG_PEEK: PEEK returns a word without any side effect. (R583) -/
  | dbgPeek (p : List Byte) (staged : Bool)
  /-- DBG_POKE: POKE writes a word at rank 1 once its DCHK passes. (R583) -/
  | dbgPoke (p : List Byte) (data : List Byte) (rivals : List (Nat × Nat)) (o : WriteObs)
  /-- DBG_POP: POP performs a register's RS side effect and returns the word. (R583) -/
  | dbgPop (p : List Byte) (staged : Bool) (contended : Bool)
  /-- DBG_STATUS: STATUS returns DBG_STATUS. (R582) -/
  | dbgStatus (p : List Byte)
  /-- DBG_HALT: HALT stops every Mason context before its next step, or pends until unlock. (R585) -/
  | dbgHalt (p : List Byte)
  /-- DBG_HALT_FORCED: HALT with FORCE aborts and rolls back a running locked sequence and raises FORCED_HALT.
  (R585) -/
  | dbgHaltForced (p : List Byte) (cut : LockCut) (o : FlashObs)
  /-- HALT_PENDING_EFFECT: A pending halt takes effect when the locked sequence unlocks. (R585) -/
  | haltPendingEffect
  /-- DBG_RESUME: RESUME restarts every context where it stopped. (R586) -/
  | dbgResume (p : List Byte)
  /-- DBG_STEP: STEP executes one step of a context of a halted core. (R587) -/
  | dbgStep (p : List Byte) (rivals : List (Nat × Nat)) (o : WriteObs)
  /-- DBG_FREEZE: FREEZE stops the dispatch of C and H jobs. (R588) -/
  | dbgFreeze (p : List Byte)
  /-- DBG_THAW: FREEZE with bit 0 clear ends a freeze. (R588) -/
  | dbgThaw (p : List Byte)
  /-- FREEZE_MAX_EXPIRY: A freeze ends FREEZE_MAX_S after it began. (R588) -/
  | freezeMaxExpiry
  /-- DBG_IDLE_RESET: DCK stays low for more than 64 us, so the packet in progress is discarded. (R581) -/
  | dbgIdleReset
  /-- VIO_RISE: VIO rises through VIO_OK while VBAT holds, and the main domain starts by R68. (R604) -/
  | vioRise (mv : Int) (o : BootObs)
  /-- VAON_POWER_ON: VAON first comes up from nothing, the AON domain starts, and the D05 counter that paces ALIVE
  begins. (R70) -/
  | vaonPowerOn
  /-- SYNC_WORD_DETECT: The receiver detects a frame's synchronisation word, starts the interference watch and keeps
  a receive window open until the frame ends. (R389) -/
  | syncWordDetect
  /-- XO39_RUN_ON_EXPIRY: 2 ms after a radio activity ends with none following, the 39 MHz crystal stops and XO_ON
  clears. (R75) -/
  | xo39RunOnExpiry
  /-- TEST_EN_CHANGE: TEST_EN changes level; on an unsealed chip a high level enables clock domain D25, and on a
  sealed chip D25 found running raises D25_ACTIVE_SEALED. (R600) -/
  | testEnChange (level : Bool) (runs : Bool)
  /-- CLOCK_MONITOR_FAIL: A clock monitor finds D07 or D06 out of range, latches MON_FAIL and raises RC32M_RANGE or
  D06_RANGE. (R101) -/
  | clockMonitorFail (d06 : Bool)
  deriving DecidableEq, Repr

end Sys2Proof
end

