-- ==== Sys2Proof/Machine/Items.lean ====
section
/-! DEFINITION. The items of the foundation image, one structure per section, and the range check of test 9 of R28:
every item in its range and obeying its relations. Defaults are the spec's own default columns where it has them. -/

namespace Sys2Proof.Machine

/-- `x` lies in `[lo, hi]`. -/
def within (lo hi x : Nat) : Bool := decide (lo ≤ x) && decide (x ≤ hi)

/-- An integer lies in `[lo, hi]`. -/
def withinI (lo hi x : Int) : Bool := decide (lo ≤ x) && decide (x ≤ hi)

/-! ### Section 0x02: power, clocks and the energy governor (Table 2.6) -/

/-- Items of section 0x02 (Table 2.6). Limits in mV, charge in mC and µC. -/
structure PowerItems where
  bakFitted : Nat := 1
  txMin : Nat := 2200
  flashMin : Nat := 2150
  vbatMeasS : Nat := 60
  cellUsableMc : Nat := 0
  designDays : Nat := 5844
  allowMin : Nat := 0
  allowMax : Nat := 0
  cShare : Nat := 64
  hShare : Nat := 16
  shotThrottle : Nat := 224
  xlFailMs : Nat := 4
  wdogPeriod : Nat := 4
  deriving DecidableEq, Repr, Inhabited

/-- Every item of section 0x02 lies in its range and obeys its relations (Table 2.6). -/
def PowerItems.inRange (p : PowerItems) : Bool :=
  decide (p.bakFitted ≤ 1) && within 1900 2600 p.txMin && within 2050 2600 p.flashMin && within 1 3600 p.vbatMeasS
  && within 1000 200000000 p.cellUsableMc && within 365 7305 p.designDays
  && decide (p.allowMin ≤ 4000000000) && decide (p.allowMax ≤ 4000000000) && decide (p.allowMin ≤ p.allowMax)
  && decide (p.cShare ≤ 256) && decide (p.hShare ≤ 256) && decide (p.cShare + p.hShare ≤ 256)
  && within 128 256 p.shotThrottle && within 1 64 p.xlFailMs && within 1 16 p.wdogPeriod

/-! ### Section 0x03: queue map, budgets and triggers (Table 3.7) -/

/-- One hardware trigger: its period in D04 ticks (triggers 2 to 7; 0 = unused), its template and queue. -/
structure TrigItem where
  period : Nat := 0
  queue : Nat := 0
  template : List Word := []
  deriving DecidableEq, Repr, Inhabited

/-- Items of section 0x03 (Table 3.7), the per-queue items in queue order. -/
structure FabricItems where
  qEnable : List Nat := []
  qEngines : List Nat := []
  qPriority : List Nat := []
  qRingLen : List Nat := []
  qWaitMs : List Nat := []
  qPorts : List Nat := []
  granM : Nat := 48
  granB : Nat := 48
  granC : Nat := 48
  granH : Nat := 16
  trig : List TrigItem := []
  deriving DecidableEq, Repr, Inhabited

/-- The granule reserve of a class. -/
def FabricItems.granReserve (f : FabricItems) (cls : Nat) : Nat :=
  match cls with
  | 0 => f.granM | 1 => f.granB | 2 => f.granC | _ => f.granH

/-- GRAN_SHARED (Table 3.7). -/
def FabricItems.granShared (f : FabricItems) : Nat := 192 - (f.granM + f.granB + f.granC + f.granH)

/-- Every item of section 0x03 lies in its range and obeys its relations (Table 3.7, R108). -/
def FabricItems.inRange (f : FabricItems) : Bool :=
  f.qEnable.length == 64 && f.qEngines.length == 64 && f.qPriority.length == 64 && f.qRingLen.length == 64
  && f.qWaitMs.length == 64 && f.qPorts.length == 64 && f.trig.length == 8
  && f.qEnable.all (fun x => decide (x ≤ 1)) && f.qEngines.all (fun x => decide (x < 65536))
  && f.qPriority.all (fun x => decide (x ≤ 3)) && f.qRingLen.all (fun x => [4, 8, 16, 32, 64].contains x)
  && decide (f.qRingLen.foldl (· + ·) 0 ≤ 1024) && f.qWaitMs.all (fun x => decide (x ≤ 60000))
  && f.qPorts.all (fun x => decide (x < 32)) && (f.qPorts.take 32).all (· == 0)
  && within 16 96 f.granM && within 16 96 f.granB && within 16 96 f.granC && within 8 32 f.granH
  && decide (f.granM + f.granB + f.granC + f.granH ≤ 192)
  && f.trig.all (fun t => decide (t.queue < 64))

/-! ### Section 0x04: Mason recipe tables (Table 3.6) -/

/-- One event-table entry (Tables 3.6 and 3.6a). -/
structure EventEntry where
  kind : Nat := 0
  param : Nat := 0
  recipe : Nat := 0
  arg : Nat := 0
  deriving DecidableEq, Repr, Inhabited

/-- A recipe step (Table 3.6). -/
inductive MStep where
  | submit (template queue : Nat)
  | wait
  | ifst (status skip : Nat)
  | lock (kind : LockKind)
  | unlock
  | setItem (addr : Nat) (value : Word)
  | stop
  deriving DecidableEq, Repr, Inhabited

/-- One entry of the recipe index: first step and step count. -/
structure RecipeEntry where
  first : Nat := 0
  count : Nat := 0
  deriving DecidableEq, Repr, Inhabited

/-- Items of section 0x04 (Table 3.6). -/
structure MasonItems where
  events : List EventEntry := []
  recipes : List RecipeEntry := []
  steps : List MStep := []
  templates : List (List Word) := []
  deriving DecidableEq, Repr, Inhabited

/-- The parameter and argument of an event entry are ones that Table 3.6a allows (R619). -/
def EventEntry.inRange (e : EventEntry) : Bool :=
  match e.kind with
  | 1 => e.param == 0 && e.arg == 0
  | 2 => e.param == 0 && e.arg == 0
  | 3 => e.param == 0 && e.arg == 0
  | 4 => e.param == 0 && e.arg == 0
  | 5 => e.param == 0 && e.arg == 0
  | 6 => (decide (e.param ≤ 7) || e.param == 0xFF) && e.arg == 0
  | 7 => (decide (e.param ≤ 63) || e.param == 0xFF) && e.arg == 0
  | 8 => (Block.all.any (fun b => b.byte == e.param) || e.param == 0xFF) && within 1 0xFFFF e.arg
  | 9 => (e.param == 0x01 || e.param == 0x10) && e.arg == 0
  | 10 => e.param == 0 && within 1 0xFFFFFFFF e.arg
  | _ => false

/-- No IFST of the recipe skips past its last step (R620). -/
def MasonItems.skipsOk (m : MasonItems) (r : RecipeEntry) : Bool :=
  (List.range r.count).all fun i =>
    match m.steps[r.first + i]? with
    | some (.ifst _ n) => within 1 255 n && decide (i + n + 1 < r.count)
    | some _ => true
    | none => false

/-- A descriptor template has eight words with 0 in their reserved fields (Table 3.2, R28 test 9). -/
def templateOk (t : List Word) : Bool :=
  let w := fun (i : Nat) => (at0 t i).toNat
  t.length == 8 && bits 31 18 (w 0) == 0 && bits 7 7 (w 1) == 0 && bits 31 28 (w 1) == 0 && bits 31 16 (w 3) == 0

/-- Every item of section 0x04 lies in its range (Table 3.6, R619, R620). -/
def MasonItems.inRange (m : MasonItems) : Bool :=
  decide (m.events.length ≤ 256) && decide (m.recipes.length ≤ 128) && decide (m.steps.length ≤ 2048)
  && decide (m.templates.length ≤ 256)
  && m.events.all (fun e => e.inRange && decide (e.recipe < m.recipes.length))
  && m.recipes.all (fun r => decide (r.first + r.count ≤ m.steps.length) && m.skipsOk r)
  && m.steps.all (fun st => match st with
      | .submit t q => decide (t < m.templates.length) && decide (q < 64)
      | _ => true)
  && m.templates.all templateOk

/-! ### Section 0x10: fault-class map and fence policy (Table 15.7) -/

/-- The default class map of Table 15.8. -/
def FaultItems.defaultCls : List (List Nat) :=
  Block.all.map fun b => (List.range 16).map fun i => ((b.sources[i]?).map (·.cls)).getD 0

/-- The default enables: the sources of class B, C and D (Table 15.7). -/
def FaultItems.defaultEnable : List Nat :=
  Block.all.map fun b => (b.sources.zipIdx).foldl (fun acc r => if r.1.cls = 0 then acc else acc + 2 ^ r.2) 0

/-- Items of section 0x10 (Table 15.7): per block, in the order of `Block.all`, sixteen classes and an enable mask. -/
structure FaultItems where
  cls : List (List Nat) := FaultItems.defaultCls
  enableInit : List Nat := FaultItems.defaultEnable
  aliveEn : Nat := 1
  fltnEn : Nat := 1
  histMin : Nat := 0
  deriving DecidableEq, Repr, Inhabited

/-- The defaults of Table 15.7; R56 says they apply in the bare state. -/
def FaultItems.defaults : FaultItems := { cls := defaultCls, enableInit := defaultEnable }

/-- Every item of section 0x10 lies in its range and at or above its floor (R534). -/
def FaultItems.inRange (f : FaultItems) : Bool :=
  f.cls.length == 24 && f.enableInit.length == 24
  && (Block.all.zipIdx).all (fun b =>
      let row := at0 f.cls b.2
      row.length == 16
      && (List.range 16).all (fun i =>
          match b.1.sources[i]? with
          | some r => within r.floor 3 (at0 row i)
          | none => at0 row i == 0)
      && decide (at0 f.enableInit b.2 < 2 ^ b.1.sources.length))
  && decide (f.aliveEn ≤ 1) && decide (f.fltnEn ≤ 1) && decide (f.histMin ≤ 3)

/-! ### Sections 0x0F and 0x12: roles, rights and debug enable (Tables 14.2, 14.3, 14.8a) -/

/-- The rights of Table 14.2. -/
inductive Right where
  | readId | readTotals | readStatus | readJournal (stream : Nat) | tariff | time | snapZeroize | field | diag
  | linkLeave | reseat | stage (sec : Nat) | makerOnly | debug | consent | queue (q : Nat)
  deriving DecidableEq, Repr, Inhabited

/-- Items of section 0x0F. A mask has bit r for role code r (1 operator, 2 installer, 3 maker, 4 public). -/
structure RoleItems where
  roleSlot : List Nat := [1, 2, 3]
  auditSlot : Nat := 0
  readTotals : Nat := 30
  readStatus : Nat := 30
  readJournal : List Nat := [8, 10, 14, 10, 14, 10, 14, 10]
  tariff : Nat := 10
  time : Nat := 10
  reseat : Nat := 10
  debug : Nat := 8
  qRoles : List Nat := []
  stageMask : List Nat := []
  pairs : List Nat := [2, 3, 2, 2, 2, 2, 6, 2]
  authChalS : Nat := 60
  sessIdleS : Nat := 300
  sessMaxS : Nat := 14400
  authFailMax : Nat := 5
  lockBaseS : Nat := 60
  auditStrict : Nat := 0
  deriving DecidableEq, Repr, Inhabited

/-- The mask of roles a staging right may name for a section (Table 14.3), and the part of it that is fixed. -/
def stageAllowed (sec : Nat) : Nat × Nat :=
  if sec = 0x09 || sec = 0x0A || sec = 0x0C || sec = 0x0D || sec = 0x11 then (10, 0)
  else if (1 ≤ sec && sec ≤ 4) || sec = 0x0B then (8, 0)
  else if 5 ≤ sec && sec ≤ 8 then (8, 8)
  else (0, 0)

/-- The roles that hold a right, as a mask over role codes 1 to 4 (Table 14.2). -/
def RoleItems.holders (r : RoleItems) : Right → Nat
  | .readId => 30
  | .readTotals => r.readTotals
  | .readStatus => r.readStatus
  | .readJournal s => at0 r.readJournal s
  | .tariff => r.tariff
  | .time => r.time
  | .snapZeroize => 10
  | .field => 14
  | .diag => 12
  | .linkLeave => 10
  | .reseat => r.reseat
  | .stage sec => at0 r.stageMask (sec - 1)
  | .makerOnly => 8
  | .debug => r.debug
  | .consent => 14
  | .queue q => at0 r.qRoles (q - 32)

/-- A mask that contains every fixed role and no role outside `fixed` and `conf`. -/
def maskOk (fixed conf m : Nat) : Bool := (m &&& fixed) == fixed && (m ||| (fixed ||| conf)) == (fixed ||| conf)

/-- Every item of section 0x0F lies in its range and the matrix keeps its fixed entries (R484, R487, R495, R502). -/
def RoleItems.inRange (r : RoleItems) : Bool :=
  r.roleSlot.length == 3 && r.roleSlot.all (within 1 19) && r.roleSlot.Nodup && within 1 19 r.auditSlot
  && maskOk 14 16 r.readTotals && maskOk 10 20 r.readStatus
  && r.readJournal.length == 8 && r.readJournal.all (maskOk 8 6)
  && maskOk 0 14 r.tariff && maskOk 0 14 r.time && maskOk 0 14 r.reseat && maskOk 0 10 r.debug
  && r.qRoles.length == 32 && r.qRoles.all (maskOk 0 30)
  && r.stageMask.length == 18
  && (List.range 18).all (fun i =>
      let a := stageAllowed (i + 1)
      maskOk a.2 a.1 (at0 r.stageMask i))
  && r.pairs.length == 8 && r.pairs.all (fun p => p.testBit 1 && decide (p < 8))
  && within 5 600 r.authChalS && within 10 3600 r.sessIdleS && within 60 86400 r.sessMaxS
  && decide (r.sessIdleS ≤ r.sessMaxS) && within 1 16 r.authFailMax && within 1 3600 r.lockBaseS
  && decide (r.auditStrict ≤ 1)

/-! ### Section 0x05: front end, capture and shot sequencer (Tables 4.4, 5.4, 6.4) -/

/-- Per-path items of section 0x05. -/
structure PathItems where
  f16Q : Nat := 0
  burstHalf : Nat := 0
  pulses : Nat := 0
  dampN : Nat := 0
  dampShift : Nat := 0
  clampQ : Nat := 0
  zMatch : Nat := 0
  gain : Nat := 0
  thrPol : Nat := 0
  expectPol : Nat := 0
  thrInit : Nat := 0
  thrMin : Nat := 0
  thrMax : Nat := 0
  thrRatio : Nat := 0
  thrStep : Nat := 0
  trackEn : Nat := 0
  iTest : Nat := 0
  cMinU : Nat := 0
  cMaxU : Nat := 0
  cMinD : Nat := 0
  cMaxD : Nat := 0
  lineConfirm : Nat := 0
  polConfirm : Nat := 0
  zcHyst : Nat := 0
  thHyst : Nat := 0
  holdoffW : Nat := 0
  thPulses : Nat := 0
  edgeMax : Nat := 0
  closeOnFull : Nat := 0
  keepN : Nat := 0
  keepPre : Nat := 0
  agreeMin : Nat := 0
  stopPol : Nat := 0
  stopFirst : Nat := 0
  stopN : Nat := 0
  calDriftMax : Nat := 0
  alignTol : Nat := 0
  dirGapUs : Nat := 400
  winOpen : Nat := 0
  winLen : Nat := 0
  stopsMin : Nat := 4
  pwrMin : Nat := 150
  pwrMax : Nat := 216
  repairEn : Nat := 1
  plumbPeriodMin : Nat := 15
  plumbShift : Nat := 2
  plumbMaxPs : Nat := 200
  plumbStepPs : Nat := 20
  zeroInitPs : Int := 0
  deriving DecidableEq, Repr, Inhabited

/-- Items of section 0x05: two paths and the common items. -/
structure ShotItems where
  paths : List PathItems := []
  vpumpMv : Nat := 0
  scaleS : Nat := 1
  perMinMs : Nat := 125
  perMaxMs : Nat := 8000
  perInitMs : Nat := 500
  jitterMs : Nat := 8
  qSlow : Nat := 0
  qFast : Nat := 0
  dqFast : Nat := 0
  pathGapUs : Nat := 500
  emptyN : Nat := 8
  emptyClear : Nat := 4
  bridgeLimit : Nat := 60
  flowTpl : Nat := 0
  shot2Tpl : Nat := 0
  deriving DecidableEq, Repr, Inhabited

/-- Every per-path item lies in its range (Tables 4.4, 5.4 and 6.4, R145, R171, R194). -/
def PathItems.inRange (p : PathItems) : Bool :=
  within 32 512 p.f16Q && within 4 255 p.burstHalf && within 1 63 p.pulses && decide (p.dampN ≤ 7)
  && decide (p.dampShift ≤ 255) && decide (p.clampQ ≤ 80) && decide (p.zMatch ≤ 3) && decide (p.gain ≤ 30)
  && decide (p.thrPol ≤ 1) && decide (p.expectPol ≤ 1) && decide (p.thrMin ≤ p.thrInit)
  && decide (p.thrInit ≤ p.thrMax) && decide (p.thrMax ≤ 255) && within 16 224 p.thrRatio && within 1 32 p.thrStep
  && decide (p.trackEn ≤ 1) && decide (p.iTest ≤ 2)
  && within 50 50000 p.cMinU && within 50 50000 p.cMaxU && decide (p.cMinU < p.cMaxU)
  && within 50 50000 p.cMinD && within 50 50000 p.cMaxD && decide (p.cMinD < p.cMaxD)
  && within 1 8 p.lineConfirm && within 4 64 p.polConfirm
  && decide (150000 * 2 * p.burstHalf ≤ 250000 * p.f16Q) && decide (250000 * p.f16Q ≤ 4000000 * 2 * p.burstHalf)
  && decide (p.zcHyst ≤ 24) && decide (p.thHyst ≤ 15) && within 5 255 p.holdoffW && within 1 16 p.thPulses
  && within 16 1024 p.edgeMax && decide (p.closeOnFull ≤ 1) && within 16 1024 p.keepN && decide (p.keepPre ≤ 15)
  && decide (p.keepN ≤ p.edgeMax) && within 1 4 p.agreeMin && decide (p.stopPol ≤ 1) && decide (p.stopFirst ≤ 63)
  && within 1 8 p.stopN && decide (p.stopFirst + p.stopN ≤ 64) && within 1 255 p.calDriftMax
  && within 25 200 p.alignTol && within 100 5000 p.dirGapUs && within 2500 500000 p.winOpen
  && within 250 100000 p.winLen && within 1 8 p.stopsMin && decide (p.stopsMin ≤ p.stopN)
  && decide (p.pwrMin ≤ p.pwrMax) && decide (p.pwrMax ≤ 255) && decide (p.repairEn ≤ 1)
  && decide (p.plumbPeriodMin ≤ 1440) && decide (p.plumbShift ≤ 4) && within 1 500 p.plumbMaxPs
  && within 1 500 p.plumbStepPs && withinI (-500) 500 p.zeroInitPs

/-- Granules one direction of a path needs (R192). -/
def PathItems.granules (p : PathItems) : Nat := ceilDiv (96 + 4 * p.keepN) 512

/-- OUT_COUNT of a template of section 0x04, by its word 1. -/
def MasonItems.outCount (m : MasonItems) (t : Nat) : Nat := bits 27 24 (at0 (at0 m.templates t) 1).toNat

/-- Every item of section 0x05 lies in its range; the shot templates give enough granules (R194, R232). The items of path 2 of a
one-path meter are not judged (log 39, DESIGN CHOICE). -/
def ShotItems.inRange (s : ShotItems) (m : MasonItems) (trig0 : List Word) (pathCount : Nat) : Bool :=
  s.paths.length == 2 && (s.paths.take pathCount).all (·.inRange)
  && within 1250 2500 s.vpumpMv && (s.vpumpMv - 1250) % 50 == 0 && within 1 600 s.scaleS
  && within 125 8000 s.perMinMs && within 125 8000 s.perMaxMs && decide (s.perMinMs ≤ s.perInitMs)
  && decide (s.perInitMs ≤ s.perMaxMs) && decide (s.jitterMs ≤ 31)
  && decide (s.qFast ≤ 2000000000) && decide (s.qSlow ≤ s.qFast) && decide (s.dqFast ≤ 2000000000)
  && within 100 5000 s.pathGapUs && within 1 64 s.emptyN && within 1 64 s.emptyClear
  && within 2 255 s.bridgeLimit && decide (s.emptyN < s.bridgeLimit)
  && decide (s.flowTpl < m.templates.length)
  && decide (s.shot2Tpl < m.templates.length)
  && decide (2 * (at0 s.paths 0).granules ≤ bits 27 24 (at0 trig0 1).toNat)
  && (pathCount == 1 || decide (2 * (at0 s.paths 1).granules ≤ m.outCount s.shot2Tpl))

/-! ### Section 0x06: flow geometry and correction (Table 6.5) -/

/-- Per-path items of section 0x06. -/
structure FlowPath where
  lUm : Nat := 0
  laxUm : Nat := 0
  areaQ : Nat := 0
  tPrePs : Nat := 0
  pathSwap : Nat := 0
  /-- Correction points (K_Q, K_F). -/
  k : List (Nat × Nat) := []
  cMinMms : Nat := 0
  cMaxMms : Nat := 0
  deriving DecidableEq, Repr, Inhabited

/-- Items of section 0x06. -/
structure FlowItems where
  paths : List FlowPath := []
  w1 : Nat := 0
  w2 : Nat := 0
  soloK1 : Nat := 0
  soloK2 : Nat := 0
  cutoff : Nat := 0
  qMax : Nat := 0
  pathDiffPm : Nat := 0
  deriving DecidableEq, Repr, Inhabited

/-- A list rises strictly. -/
def rising : List Nat → Bool
  | a :: b :: rest => decide (a < b) && rising (b :: rest)
  | _ => true

/-- Per-path ranges of Table 6.5. -/
def FlowPath.inRange (p : FlowPath) : Bool :=
  within 5000 1000000 p.lUm && within 1000 p.lUm p.laxUm && within 100 10000000 p.areaQ
  && decide (p.tPrePs ≤ 40000000) && decide (p.pathSwap ≤ 1) && within 2 16 p.k.length
  && p.k.all (fun x => decide (x.1 ≤ 2000000000) && within 32768 98304 x.2) && rising (p.k.map (·.1))
  && within 200000 2500000 p.cMinMms && within 200000 2500000 p.cMaxMms && decide (p.cMinMms < p.cMaxMms)

/-- Every item of section 0x06 lies in its range (Table 6.5). -/
def FlowItems.inRange (f : FlowItems) (pathCount : Nat) : Bool :=
  f.paths.length == 2 && (f.paths.take pathCount).all (·.inRange)
  && decide (f.w1 ≤ 65536) && decide (f.w2 ≤ 65536) && within 32768 98304 f.soloK1 && within 32768 98304 f.soloK2
  && decide (f.cutoff ≤ 100000) && within 1 2000000000 f.qMax && decide (f.pathDiffPm ≤ 1000)


/-! ### Section 0x07: temperature and pressure channels (Table 7.5) -/

/-- Items of section 0x07 (Table 7.5); per-channel items in channel order. -/
structure TempItems where
  role : List Nat := [0, 0, 0, 0]
  wires : List Nat := [4, 4, 4, 4]
  r0 : List Nat := [1000000, 1000000, 1000000, 1000000]
  cvdA : Int := 3908300000
  cvdB : Int := -577500
  cvdC : Int := -4183000
  ofs : List Int := [0, 0, 0, 0]
  lead : List Nat := [0, 0, 0, 0]
  rOpen : List Nat := [0, 0, 0, 0]
  rShort : List Nat := [0, 0, 0, 0]
  rRef : Nat := 0
  iExc : Nat := 0
  osr : Nat := 256
  excSettle : Nat := 72
  ofsMax : Nat := 4096
  confirm : Nat := 3
  swapDt : Nat := 200
  swapN : Nat := 16
  refN : Nat := 16
  refTol : Nat := 50
  syncOnBurst : Nat := 1
  periodS : Nat := 4
  pbFitted : Nat := 0
  pbGain : Nat := 32
  pbSettle : Nat := 16
  pbIMin : Nat := 0
  pbIMax : Nat := 0
  p0 : Int := 0
  p0t : Int := 0
  p1 : Int := 0
  p1t : Int := 0
  p2 : Int := 0
  pMin : Nat := 0
  pMax : Nat := 0
  pbTDef : Int := 15000
  deriving DecidableEq, Repr, Inhabited

/-- The excitation current in µA (Table 7.5). -/
def TempItems.excUa (t : TempItems) : Nat :=
  match t.iExc with
  | 0 => 10 | 1 => 25 | 2 => 50 | _ => 100

/-- The channels with a role, in ascending number (R244, R257). -/
def TempItems.used (t : TempItems) : List Nat := (List.range 4).filter fun n => at0 t.role n != 0

/-- The channel of a role. -/
def TempItems.ofRole (t : TempItems) (r : Nat) : Option Nat := (List.range 4).find? fun n => at0 t.role n == r

/-- Every item of section 0x07 lies in its range and obeys its relations (R258, Table 7.5). -/
def TempItems.inRange (t : TempItems) (kind : Nat) : Bool :=
  let count := fun r => (t.role.filter (· == r)).length
  t.role.length == 4 && t.role.all (fun r => decide (r ≤ 4)) && [1, 2, 3].all (fun r => decide (count r ≤ 1))
  && t.wires.length == 4 && t.wires.all (fun w => w == 2 || w == 4)
  && t.r0.length == 4 && t.r0.all (within 400000 1200000)
  && withinI 3800000000 4000000000 t.cvdA && withinI (-700000) (-500000) t.cvdB && withinI (-5000000) 0 t.cvdC
  && t.ofs.length == 4 && t.ofs.all (withinI (-500) 500) && t.lead.length == 4 && t.lead.all (fun l => decide (l ≤ 50000))
  && t.rOpen.length == 4 && t.rShort.length == 4
  && (List.range 4).all (fun n => within 100000 4000000 (at0 t.rOpen n) && within 100000 4000000 (at0 t.rShort n)
      && decide (at0 t.rShort n < at0 t.rOpen n))
  && within 300000 4000000 t.rRef && decide (t.iExc ≤ 3) && [64, 128, 256, 512, 1024].contains t.osr
  && within 1 255 t.excSettle && within 16 65535 t.ofsMax && within 1 16 t.confirm && decide (t.swapDt ≤ 5000)
  && within 4 255 t.swapN && within 1 255 t.refN && within 10 200 t.refTol && decide (t.syncOnBurst ≤ 1)
  && within 1 3600 t.periodS && decide (t.pbFitted ≤ 1) && [1, 2, 4, 8, 16, 32, 64, 128].contains t.pbGain
  && within 1 255 t.pbSettle
  && within 10 2000 t.pbIMin && within 10 2000 t.pbIMax && decide (t.pbIMin < t.pbIMax)
  && decide (t.pMin < t.pMax) && decide (t.pMax ≤ 2000000)
  && [t.p0, t.p0t, t.p1, t.p1t, t.p2].all (fun p => withinI (-2147483648) 2147483647 p)
  && withinI (-40000) 70000 t.pbTDef
  && within 10000000 250000000 (t.excUa * t.rRef)
  && (!(kind == 1 || kind == 2) || (count 1 == 1 && count 2 == 1))

/-! ### Section 0x08: integration (Table 8.4) -/

/-- Items of section 0x08 (Table 8.4). -/
structure IntegItems where
  meterPos : Nat := 0
  rho : List Nat := []
  h : List Nat := []
  dtCut : Nat := 100
  coolTsMax : Nat := 18000
  stepMaxS : Nat := 20
  maxPeriodMin : Nat := 60
  gasConv : Nat := 0
  pBase : Nat := 101325
  pAtm : Nat := 101325
  tBase : Nat := 288150
  pFix : Nat := 102325
  pbGauge : Nat := 0
  zr : Nat := 65536
  errAlarmS : Nat := 3600
  deriving DecidableEq, Repr, Inhabited

/-- Every item of section 0x08 lies in its range and obeys its relations (R290, Table 8.4, R258). -/
def IntegItems.inRange (i : IntegItems) (perMaxMs : Nat) (t : TempItems) (kind : Nat) : Bool :=
  decide (i.meterPos ≤ 1) && i.rho.length == 37 && i.rho.all (within 800000 1100000)
  && i.h.length == 37 && i.h.all (fun x => decide (x ≤ 1000000000)) && rising i.h
  && decide (i.dtCut ≤ 3000) && decide (i.coolTsMax ≤ 30000) && within 2 60 i.stepMaxS
  && decide (2 * perMaxMs ≤ i.stepMaxS * 1000) && [1, 2, 3, 5, 10, 15, 30, 60].contains i.maxPeriodMin
  && decide (i.gasConv ≤ 2) && (i.gasConv != 2 || t.pbFitted == 1)
  && (i.gasConv == 0 || (t.ofRole 3).isSome)
  && within 80000 110000 i.pBase && within 80000 110000 i.pAtm && within 273150 293150 i.tBase
  && within 50000 2000000 i.pFix && decide (i.pbGauge ≤ 1) && within 58982 72090 i.zr && within 1 86400 i.errAlarmS

/-! ### Section 0x09: tariff calendar and billing (Table 9.6) -/

/-- A DST instant: month, week, weekday, hour UTC (R301). -/
structure DstRule where
  month : Nat := 1
  week : Nat := 1
  wday : Nat := 0
  hour : Nat := 0
  deriving DecidableEq, Repr, Inhabited

/-- A special day: year (0 for every year), month, day, profile. -/
structure SpecialDay where
  year : Nat := 0
  month : Nat := 1
  day : Nat := 1
  profile : Nat := 0
  deriving DecidableEq, Repr, Inhabited

/-- A condition (R304). -/
structure CondItem where
  val : Nat := 0
  op : Nat := 0
  thr : Int := 0
  tariff : Nat := 0
  deriving DecidableEq, Repr, Inhabited

/-- Items of section 0x09 (Table 9.6). -/
structure BillItems where
  qty : Nat := 1
  tariffN : Nat := 2
  localOfs : Int := 0
  dstEn : Nat := 0
  dstShift : Nat := 60
  dstStart : DstRule := {}
  dstEnd : DstRule := {}
  seasons : List (Nat × Nat) := [(1, 1)]
  week : List (List Nat) := [[0, 0, 0, 0, 0, 0, 0]]
  days : List (List (Nat × Nat)) := [[(0, 0)]]
  special : List SpecialDay := []
  extMode : Nat := 0
  extPol : Nat := 0
  extTariff : Nat := 0
  tarDebMs : Nat := 50
  conds : List CondItem := []
  billDay : Nat := 1
  billHour : Nat := 0
  maxRestart : Nat := 1
  snapDayMax : Nat := 4
  deriving DecidableEq, Repr, Inhabited

/-- Ranges of a DST instant. -/
def DstRule.inRange (d : DstRule) : Bool := within 1 12 d.month && within 1 5 d.week && decide (d.wday ≤ 6) && decide (d.hour ≤ 23)

/-- Every item of section 0x09 lies in its range and obeys its relations (R323, Table 9.6). -/
def BillItems.inRange (b : BillItems) : Bool :=
  let tar := fun t => decide (t < b.tariffN)
  decide (b.qty ≤ 3) && within 1 8 b.tariffN && withinI (-720) 840 b.localOfs && b.localOfs.emod 15 == 0
  && decide (b.dstEn ≤ 1) && [30, 60, 120].contains b.dstShift
  && b.dstStart.inRange && b.dstEnd.inRange
  && within 1 4 b.seasons.length && b.seasons.all (fun s => within 1 12 s.1 && within 1 31 s.2)
  && rising (b.seasons.map fun s => s.1 * 32 + s.2)
  && within 1 8 b.days.length && b.week.length == b.seasons.length
  && b.week.all (fun w => w.length == 7 && w.all (fun d => decide (d < b.days.length)))
  && b.days.all (fun d => within 1 8 d.length && (d.head?.map (·.1)) == some 0 && rising (d.map (·.1))
      && d.all (fun p => decide (p.1 ≤ 1439) && tar p.2))
  && decide (b.special.length ≤ 32)
  && b.special.all (fun s => (s.year == 0 || within 2000 2135 s.year) && within 1 12 s.month && within 1 31 s.day
      && decide (s.profile < b.days.length))
  && decide (b.extMode ≤ 1) && decide (b.extPol ≤ 1) && tar b.extTariff && within 1 1000 b.tarDebMs
  && decide (b.conds.length ≤ 4)
  && b.conds.all (fun c => decide (c.val ≤ 4) && decide (c.op ≤ 1) && withinI (-2147483648) 2147483647 c.thr && tar c.tariff)
  && within 1 28 b.billDay && decide (b.billHour ≤ 23) && decide (b.maxRestart ≤ 1) && decide (b.snapDayMax ≤ 16)

/-- The phases of a billing recipe after one step (R312): 0 before the lock, 1 locked, 2 submitted, 3 waited for,
4 unlocked; 9 a path that breaks the rule. -/
def billPhase (m : MasonItems) (reason : Nat) (st : MStep) (p : Nat) : Nat :=
  match st with
  | .lock .billingCommit => if p = 0 then 1 else 9
  | .submit t _ =>
    let d := at0 m.templates t
    let w0 := (at0 d 0).toNat
    if bits 7 0 w0 = 1 && bits 11 8 w0 = 8 then
      (if p = 1 && (at0 d 4).toNat % 4 = reason then 2 else 9)
    else if p = 2 then 9 else p
  | .wait => if p = 2 then 3 else p
  | .unlock => if p = 3 then 4 else 9
  | _ => p

/-- Every execution path of a recipe takes the billing commit in the order of R312. Skips go forward only, so the
places reached are found step by step: `reach` holds pairs of a step and a phase. -/
def MasonItems.billRecipeOk (m : MasonItems) (recipe reason : Nat) : Bool :=
  let r := at0 m.recipes recipe
  let walk := (List.range r.count).foldl (fun (acc : List (Nat × Nat) × Bool) i =>
    ((acc.1.filter (·.1 == i)).map (·.2)).eraseDups.foldl (fun acc p =>
      match m.steps[r.first + i]? with
      | some .stop => (acc.1, acc.2 && (p == 3 || p == 4))
      | some (.ifst _ n) => (acc.1 ++ [(i + 1, p), (i + 1 + n, p)], acc.2)
      | some st => (acc.1 ++ [(i + 1, billPhase m reason st p)], acc.2)
      | none => (acc.1, false)) acc) ([(0, 0)], true)
  walk.2 && !(walk.1.any fun x => decide (r.count ≤ x.1))

/-- The recipe section meets the three conditions of R312. -/
def MasonItems.billingOk (m : MasonItems) : Bool :=
  let five := m.events.filter fun e => e.kind == 5
  let nine := m.events.filter fun e => e.kind == 9 && e.param == 1
  five.length == 1 && nine.length == 1
  && five.all (fun e => m.billRecipeOk e.recipe 1) && nine.all (fun e => m.billRecipeOk e.recipe 2)

/-! ### Section 0x0A: tamper recorder (Table 9.7) -/

/-- Items of section 0x0A (Table 9.7). -/
structure TamperItems where
  en : Nat := 0x3F
  action : List Nat := [5, 5, 5, 5, 5, 5]
  magPol : Nat := 1
  casePol : Nat := 1
  magDebMs : Nat := 1000
  caseDebMs : Nat := 200
  plsMode : List Nat := [0, 0]
  plsDeb : Nat := 4
  plsNl : Nat := 0
  plsMaxHz : Nat := 16
  revOpenNl : Nat := 1000000
  revClearS : Nat := 600
  bypWinMin : Nat := 60
  bypMinNl : Nat := 10000000
  bypTolPm : Nat := 50
  leakQ : Nat := 2000
  leakH : Nat := 0
  deriving DecidableEq, Repr, Inhabited

/-- Every item of section 0x0A lies in its range and obeys its relations (R320, R323, Table 9.7). -/
def TamperItems.inRange (t : TamperItems) : Bool :=
  decide (t.en < 64) && t.action.length == 6 && t.action.all (fun a => decide (a < 8))
  && decide (t.magPol ≤ 1) && decide (t.casePol ≤ 1) && within 10 10000 t.magDebMs && within 10 10000 t.caseDebMs
  && t.plsMode.length == 2 && t.plsMode.all (fun m => decide (m ≤ 2)) && decide ((t.plsMode.filter (· == 1)).length ≤ 1)
  && within 1 16 t.plsDeb && within 1 1000000000 t.plsNl && within 1 200 t.plsMaxHz
  && within 1 1000000000000 t.revOpenNl && within 1 86400 t.revClearS && within 1 1440 t.bypWinMin
  && within 1 1000000000000 t.bypMinNl && decide (t.bypTolPm ≤ 1000) && within 1 100000 t.leakQ && decide (t.leakH ≤ 720)
/-! ### Section 0x0B: Dexul journal (Table 10.12) -/

/-- Items of section 0x0B (Table 10.12). -/
structure JournalItems where
  flashMhz : Nat := 25
  ioMax : Nat := 2
  pwrMode : Nat := 0
  pwrOnMs : Nat := 10
  dpdIdleUs : Nat := 200
  commitSettleUs : Nat := 2000
  keepPages : List Nat := [64, 40, 64, 512, 128, 1488, 64, 16]
  erasedMin : Nat := 4
  relocMin : Nat := 0
  relocMax : Nat := 4
  spreadLow : Nat := 200
  spreadHigh : Nat := 1000
  refreshDays : Nat := 1826
  jrnQ : List Nat := []
  deriving DecidableEq, Repr, Inhabited

/-- Data sectors of a flash of `size` bytes (R339). -/
def dataSectors (size : Nat) : Nat := (size - 0x020000 - 0x2000) / 0x1000

/-- Every item of section 0x0B lies in its range and obeys its relations (R364, Table 10.12). -/
def JournalItems.inRange (j : JournalItems) (f : FabricItems) (flashSize : Nat) : Bool :=
  within 1 50 j.flashMhz && decide (j.ioMax ≤ 2) && decide (j.pwrMode ≤ 1) && within 1 20 j.pwrOnMs
  && within 50 10000 j.dpdIdleUs && decide (j.commitSettleUs ≤ 3000)
  && j.keepPages.length == 8 && j.keepPages.all (within 1 65535) && within 2 16 j.erasedMin
  && decide (j.relocMin ≤ j.relocMax) && decide (j.relocMax ≤ 32)
  && decide (j.spreadLow < j.spreadHigh) && decide (j.spreadHigh ≤ 1500) && within 365 1826 j.refreshDays
  && decide (j.keepPages.foldl (· + ·) 0 ≤ 15 * (dataSectors flashSize - j.erasedMin - 8))
  && j.jrnQ.length == 8
  && j.jrnQ.all (fun q => within 16 31 q && at0 f.qEnable q == 1 && (at0 f.qEngines q).testBit 10)


/-! ### Section 0x0C: radio (Table 11.6) -/

/-- A band entry (Table 11.6); frequencies in kHz. -/
structure Band where
  port : Nat := 0
  fmin : Nat := 0
  fmax : Nat := 0
  txpMax : Int := 0
  lbtEn : Nat := 0
  lbtDbm : Int := 0
  lbtUs : Nat := 0
  lbtTries : Nat := 0
  lbtBackoffMs : Nat := 0
  deriving DecidableEq, Repr, Inhabited

/-- A telegram record: register address, 4 or 8 bytes, header bytes (R393). -/
structure TplRecord where
  addr : Nat := 0
  len : Nat := 4
  head : List Byte := []
  deriving DecidableEq, Repr, Inhabited

/-- A telegram template (R393). -/
structure TplItem where
  cField : Nat := 0
  ciField : Nat := 0
  slot : Nat := 0
  /-- 0 none, 1 profile A, 2 profile B. -/
  profile : Nat := 0
  /-- Its frame format: 0 A, 1 B (R383, R392; log 13, DEDUCED). -/
  format : Nat := 0
  rxwEn : Nat := 0
  recs : List TplRecord := []
  deriving DecidableEq, Repr, Inhabited

/-- What heads a telegram (R392, R393, R395): the template's fields, the meter's identity, the access number and, under
profile B, the message counter. -/
structure TelegramHead where
  format : Nat := 0
  cField : Nat := 0
  ciField : Nat := 0
  slot : Nat := 0
  profile : Nat := 0
  mField : Nat := 0
  id : Nat := 0
  version : Nat := 0
  devType : Nat := 0
  /-- The access number, TXC[7:0]. -/
  access : Byte := 0
  /-- The message counter of profile B, the whole of TXC; none under another profile. -/
  counter : Option Word := none
  deriving DecidableEq, Repr, Inhabited

/-- Items of section 0x0C (Table 11.6); two-element lists hold profiles P and F, or ports 0 and 1. -/
structure RadioItems where
  mode : List Nat := []
  freqHz : List Nat := []
  drvTxp : List Int := [10, 10]
  periodS : List Nat := [16, 16]
  sniffEn : List Nat := [0, 0]
  sniffPeriodMs : List Nat := [2000, 2000]
  sniffUs : List Nat := [1000, 1000]
  drvJitterMs : Nat := 500
  txpMin : List Int := [-10, -10]
  txpMax : List Int := [14, 14]
  marginTarget : Int := 10
  antMap : List Nat := [1, 2, 0]
  watchMin : Nat := 0
  watchMax : Nat := 2
  rlBad : Nat := 12
  rlGood : Nat := 20
  watchN : Nat := 4
  watchBoost : Nat := 4
  probeMin : Nat := 60
  bands : List Band := []
  mField : Nat := 0
  id : Nat := 0
  version : Nat := 0
  devType : Nat := 0
  templates : List TplItem := []
  estAirP : List Nat := []
  estAirF : List Nat := []
  rxwDelayMs : Nat := 100
  rxwLenMs : Nat := 50
  rspDelayMs : Nat := 150
  wakeCi : Nat := 0xA2
  wakeDbm : Int := -110
  wakeWaitMs : Nat := 100
  wakeSpreadMs : Nat := 500
  wakeQuietS : Nat := 60
  wakeDayMax : Nat := 8
  wakeTpl : Nat := 0
  ctrReserve : Nat := 1024
  startUc : Nat := 4
  txLeadUs : Nat := 700
  deriving DecidableEq, Repr, Inhabited

/-- The frequency range of a port, kHz (Table 11.1). -/
def portRange (port : Nat) : Nat × Nat := if port = 0 then (160000, 480000) else (400000, 960000)

/-- The band entry that holds a carrier (R377). -/
def RadioItems.bandOf (r : RadioItems) (hz : Nat) : Option Band :=
  r.bands.find? fun b => decide (b.fmin * 1000 ≤ hz) && decide (hz ≤ b.fmax * 1000)
    && decide ((portRange b.port).1 * 1000 ≤ hz) && decide (hz ≤ (portRange b.port).2 * 1000)

/-- The port of a profile's band. -/
def RadioItems.portOf (r : RadioItems) (f : Nat) : Nat := ((r.bandOf (at0 r.freqHz f)).map (·.port)).getD 0

/-- The carrier of a mode (Table 11.2): S1 and T1 and C1 fixed, N a channel of its band. -/
def modeFreqOk (mode hz : Nat) : Bool :=
  match mode with
  | 0 => hz == 868300000 | 1 => hz == 868950000 | 2 => hz == 868950000
  | _ => within 169400000 169475000 hz

/-- The profile in force in a watch state: F in state 2 (Table 11.4). -/
def watchProfile (watch : Nat) : Nat := if watch = 2 then 1 else 0

/-- A mode has a frame format: format A all, format B C1 and N only (R392). -/
def modeHas (mode format : Nat) : Bool := format == 0 || (format == 1 && decide (2 ≤ mode))

/-- Every item of section 0x0C lies in its range and obeys its relations (R377, R380, R383, R403, R404); `watch` is the watch
state, which says which profile is active. -/
def RadioItems.inRange (r : RadioItems) (m : MasonItems) (watch : Nat) : Bool :=
  r.mode.length == 2 && r.mode.all (fun x => decide (x ≤ 4)) && r.freqHz.length == 2 && r.drvTxp.length == 2
  && (List.range 2).all (fun i =>
      modeFreqOk (at0 r.mode i) (at0 r.freqHz i) && (r.bandOf (at0 r.freqHz i)).isSome
      && withinI (-10) 16 (at0 r.drvTxp i)
      && withinI (at0 r.txpMin (r.portOf i)) (at0 r.txpMax (r.portOf i)) (at0 r.drvTxp i)
      && within 2 3600 (at0 r.periodS i) && decide (at0 r.sniffEn i ≤ 1) && within 500 60000 (at0 r.sniffPeriodMs i)
      && within 500 10000 (at0 r.sniffUs i))
  && r.periodS.length == 2 && r.sniffEn.length == 2 && r.sniffPeriodMs.length == 2 && r.sniffUs.length == 2
  && decide (r.drvJitterMs ≤ 2000) && r.txpMin.length == 2 && r.txpMax.length == 2
  && (List.range 2).all (fun i => withinI (-10) 16 (at0 r.txpMin i) && withinI (-10) 16 (at0 r.txpMax i)
      && decide (at0 r.txpMin i ≤ at0 r.txpMax i))
  && withinI 0 30 r.marginTarget && r.antMap.length == 3 && r.antMap.all (fun x => decide (x ≤ 3))
  && decide (r.watchMin ≤ r.watchMax) && decide (r.watchMax ≤ 2) && decide (r.rlBad < r.rlGood) && decide (r.rlGood ≤ 63)
  && within 1 16 r.watchN && decide (r.watchBoost ≤ 6) && within 5 1440 r.probeMin
  && decide (r.bands.length ≤ 4)
  && r.bands.all (fun b => decide (b.port ≤ 1) && decide (b.fmin ≤ b.fmax) && decide (b.lbtEn ≤ 1)
      && withinI (-110) (-60) b.lbtDbm && within 100 10000 b.lbtUs && within 1 8 b.lbtTries && within 1 100 b.lbtBackoffMs)
  && decide (r.templates.length ≤ 16)
  && r.templates.all (fun t => decide (t.slot < 24) && decide (t.profile ≤ 2) && decide (t.rxwEn ≤ 1)
      && modeHas (at0 r.mode 0) t.format && modeHas (at0 r.mode 1) t.format && decide (t.recs.length ≤ 24)
      && t.recs.all (fun x => (x.len == 4 || x.len == 8) && decide (x.head.length ≤ 4) && x.addr % 4 == 0))
  && r.estAirP.length == r.templates.length && r.estAirF.length == r.templates.length
  && r.estAirP.all (within 1000 1000000) && r.estAirF.all (within 1000 1000000)
  && within 2 3000 r.rxwDelayMs && within 1 200 r.rxwLenMs && within 2 3000 r.rspDelayMs
  && within 0xA0 0xB7 r.wakeCi && withinI (-120) (-60) r.wakeDbm && within 10 500 r.wakeWaitMs
  && decide (r.wakeSpreadMs ≤ 2000) && within 10 3600 r.wakeQuietS && decide (r.wakeDayMax ≤ 255)
  && within 16 65535 r.ctrReserve && within 1 50 r.startUc && within 500 1500 r.txLeadUs
  && decide (r.wakeTpl < r.templates.length)
  && (at0 r.sniffEn (watchProfile (clampN watch r.watchMin r.watchMax)) == 0
      || m.events.any (fun e => e.kind == 9 && e.param == 0x10))

/-! ### Section 0x0D: Gyale link (Table 12.7) -/

/-- One channel plan. -/
structure PlanItem where
  port : Nat := 0
  ch0Khz : Nat := 0
  spacingKhz : Nat := 25
  chN : Nat := 2
  adv : List Nat := [0, 0, 0]
  map : Nat := 0
  deriving DecidableEq, Repr, Inhabited

/-- Items of section 0x0D (Table 12.7). -/
structure LinkItems where
  en : Nat := 0
  nodeKind : Nat := 0
  netId : Nat := 0
  childMax : Nat := 8
  planFEn : Nat := 0
  plans : List PlanItem := []
  rate : Nat := 0
  fec : Nat := 0
  slotPeriodS : Nat := 300
  actIntervalMs : Nat := 1000
  supervMs : Nat := 4000
  sleepyLossN : Nat := 4
  ownPpm : Nat := 60
  scanPeriodS : Nat := 600
  scanMs : Nat := 1200
  beaconMs : Nat := 1000
  reqWinUs : Nat := 2000
  depthMax : Nat := 6
  rssiMin : Int := -105
  evtMaxMs : Nat := 200
  retryN : Nat := 2
  ttlUp : Nat := 6
  reasmS : Nat := 30
  linkSlot : Nat := 0
  e2eSlot : Nat := 0
  ctrReserve : Nat := 1024
  orphanH : Nat := 24
  linkQ : Nat := 32
  deriving DecidableEq, Repr, Inhabited

/-- The channels set in a map, ascending (R426). -/
def mapUsed (map : Nat) : List Nat := (List.range 64).filter fun c => map.testBit c

/-- A band entry and the range of its port hold a carrier, in kHz (R377). -/
def Band.holds (b : Band) (khz : Nat) : Bool :=
  within b.fmin b.fmax khz && within (portRange b.port).1 (portRange b.port).2 khz

/-- A plan's ranges and its map: the band entry that CH0_KHZ lies in, of the plan's port, holds every carrier of the map and
of ADV_CH (R377, R426, Table 12.7). -/
def PlanItem.inRange (p : PlanItem) (r : RadioItems) : Bool :=
  decide (p.port ≤ 1) && within 25 1000 p.spacingKhz && within 2 64 p.chN && p.adv.length == 3
  && decide (2 ≤ (mapUsed p.map).length) && (mapUsed p.map ++ p.adv).all (fun c => decide (c < p.chN))
  && r.bands.any (fun b => b.port == p.port && b.holds p.ch0Khz
      && (mapUsed p.map ++ p.adv).all fun c => b.holds (p.ch0Khz + c * p.spacingKhz))

/-- Every item of section 0x0D lies in its range and obeys its relations (R439). -/
def LinkItems.inRange (l : LinkItems) (r : RadioItems) : Bool :=
  decide (l.en ≤ 1) && decide (l.nodeKind ≤ 1) && decide (l.netId ≤ 65535) && decide (l.childMax ≤ 15)
  && (l.nodeKind == 1 || l.childMax == 0) && decide (l.planFEn ≤ 1) && l.plans.length == 2
  && l.plans.all (·.inRange r) && l.linkSlot != l.e2eSlot
  && decide (l.rate ≤ 1) && decide (l.fec ≤ 1) && within 1 3600 l.slotPeriodS && within 20 10000 l.actIntervalMs
  && within 100 32000 l.supervMs && decide (3 * l.actIntervalMs ≤ l.supervMs) && within 2 16 l.sleepyLossN
  && within 5 250 l.ownPpm && within 10 86400 l.scanPeriodS && within 100 5000 l.scanMs && within 100 10000 l.beaconMs
  && within 1000 5000 l.reqWinUs && within 1 15 l.depthMax && withinI (-120) (-70) l.rssiMin && within 5 500 l.evtMaxMs
  && decide (l.retryN ≤ 7) && within 1 15 l.ttlUp && within 1 600 l.reasmS && decide (l.linkSlot < 24)
  && decide (l.e2eSlot < 24) && within 16 65535 l.ctrReserve && within 1 720 l.orphanH && within 32 47 l.linkQ

/-- Air time of a Gyale frame in µs, rounded up (R416). -/
def gyaleAir (rate fec len : Nat) : Nat :=
  let b := if rate = 0 then 8 * len else 4 * len
  let b := if fec = 1 then 2 * b + (if rate = 0 then 12 else 6) else b
  ceilDiv ((88 + b) * 10000) 384

/-- The drive-by power in a watch state (Table 11.4). -/
def RadioItems.drivePower (r : RadioItems) (watch : Nat) : Int :=
  match watch with
  | 0 => at0 r.drvTxp 0
  | 1 => min (at0 r.drvTxp 0 + r.watchBoost) (at0 r.txpMax (r.portOf 0))
  | _ => at0 r.drvTxp 1
/-! ### Section 0x0E: key slots and random source (Table 13.8) -/

/-- Attributes of a key slot (Table 13.3). -/
structure SlotAttr where
  /-- 0 image, 1 OTP, 2 session. -/
  source : Nat := 0
  use : Nat := 0
  role : Nat := 0
  minMode : Nat := 0
  outSecret : Bool := false
  eraseOn : Nat := 0
  deriving DecidableEq, Repr, Inhabited

/-- A slot entry of section 0x0E (40 bytes, Table 13.8). -/
structure SlotEntry where
  slot : Nat := 0
  kek : Nat := 0
  attr : SlotAttr := {}
  wrapped : List Byte := []
  reserved : List Byte := List.replicate 8 0
  deriving DecidableEq, Repr, Inhabited

/-- Items of section 0x0E (Table 13.8). -/
structure KeyItems where
  cipherFloor : Nat := 0
  entries : List SlotEntry := []
  reseedBits : Nat := 65536
  entHQ : Nat := 128
  rctCutoff : Nat := 41
  aptCutoff : Nat := 1024
  condRaw : Nat := 512
  failDayMax : Nat := 3
  deriving DecidableEq, Repr, Inhabited

/-- The attributes of slot 0, which are fixed (Table 13.3). -/
def slot0Attr : SlotAttr := ⟨1, 0xC, 3, 1, false, 0xFF⟩

/-- The image entry of a slot. -/
def KeyItems.entry (k : KeyItems) (n : Nat) : Option SlotEntry := k.entries.find? fun e => e.slot == n

/-- Every item of section 0x0E lies in its range and obeys its relations (Table 13.8, R470, R474). -/
def KeyItems.inRange (k : KeyItems) : Bool :=
  decide (k.cipherFloor ≤ 1) && within 4096 1048576 k.reseedBits && within 16 255 k.entHQ && within 8 255 k.rctCutoff
  && within 513 1024 k.aptCutoff && within 256 2048 k.condRaw && k.condRaw % 128 == 0
  && decide (192 * 256 ≤ k.condRaw * k.entHQ) && within 1 16 k.failDayMax
  && (k.entries.map (·.slot)).Nodup
  && k.entries.all (fun e => within 1 23 e.slot && e.wrapped.length == 24
      && e.reserved == List.replicate 8 0
      && ((e.attr.source == 0 && decide (e.kek ≤ 1))
          || (e.attr.source == 2 && e.kek == 0xFF && e.wrapped.all (· == 0xFF)))
      && decide (e.attr.use < 1024) && decide (e.attr.role ≤ 3) && decide (e.attr.minMode ≤ 1)
      && decide (e.attr.eraseOn < 256))

/-- A role key slot: USE bits ROLE_AUTH and MAC_VERIFY and attribute ROLE = r (R484). -/
def KeyItems.roleSlotOk (k : KeyItems) (slot r : Nat) : Bool :=
  match k.entry slot with
  | some e => e.attr.use.testBit 6 && e.attr.use.testBit 3 && e.attr.role == r
  | none => false


/-! ### Section 0x11: display (Table 16.1) -/

/-- A field of a page (R552). Pixels are numbers c × 40 + s; a digit position gives the pixels of its eight glyph bits. -/
inductive PageField where
  | number (addr width : Nat) (isSigned : Bool) (shift divisor : Nat) (digits : List (List Nat)) (point : Option Nat)
  | flag (addr mask pixel : Nat)
  | hex (addr : Nat) (digits : List (List Nat))
  deriving DecidableEq, Repr, Inhabited

/-- A page: its base pattern of 320 bits and up to eight fields (R552). -/
structure PageItem where
  base : Nat := 0
  fields : List PageField := []
  deriving DecidableEq, Repr, Inhabited

/-- Items of section 0x11 (Table 16.1). Without the section DISP_EN is 0 (R557). -/
structure DisplayItems where
  dispEn : Nat := 0
  bias : Nat := 4
  frameHz : Nat := 64
  invert : Nat := 1
  vlcd25 : Int := 3600
  vlcdTc : Int := -6000
  vlcdMin : Int := 3000
  vlcdMax : Int := 4500
  refreshS : Nat := 1
  pages : List PageItem := []
  pageS : Nat := 8
  /-- Eight glyph bits for each of 0 to F, blank (16) and minus (17). -/
  font : List Nat := []
  faultPat : Nat := 0
  faultDigits : List (List Nat) := []
  tamperPix : Nat := 0
  faultAltS : Nat := 4
  deriving DecidableEq, Repr, Inhabited

/-- Digit positions lie on the 8 × 40 glass. -/
def digitsOk (ds : List (List Nat)) : Bool := ds.all fun d => decide (d.length ≤ 8) && d.all fun p => decide (p < 320)

/-- A source address lies in a block. -/
def addrInBlock (a : Nat) : Bool := (Block.ofAddr a).isSome && a % 4 == 0

/-- A page field's ranges (R552). -/
def PageField.inRange : PageField → Bool
  | .number a w _ sh d ds pt =>
    addrInBlock a && (w == 32 || w == 64) && decide (sh ≤ 63) && within 1 1000000000 d && within 1 10 ds.length
    && digitsOk ds && (match pt with | some p => decide (p < 320) | none => true)
  | .flag a m p => addrInBlock a && decide (m < 2 ^ 32) && decide (p < 320)
  | .hex a ds => addrInBlock a && within 1 8 ds.length && digitsOk ds

/-- Every item of section 0x11 lies in its range (R552, R557, Table 16.1). -/
def DisplayItems.inRange (d : DisplayItems) : Bool :=
  decide (d.dispEn ≤ 1) && (d.bias == 3 || d.bias == 4) && [64, 128, 256].contains d.frameHz && decide (d.invert ≤ 2)
  && withinI 2500 5500 d.vlcd25 && withinI (-20000) 0 d.vlcdTc && withinI 2500 5500 d.vlcdMin
  && withinI 2500 5500 d.vlcdMax && decide (d.vlcdMin ≤ d.vlcdMax) && within 1 60 d.refreshS
  && within 1 32 d.pages.length && within 1 60 d.pageS && d.font.length == 18 && d.font.all (fun g => decide (g < 256))
  && d.pages.all (fun p => decide (p.base < 2 ^ 320) && decide (p.fields.length ≤ 8) && p.fields.all (·.inRange))
  && decide (d.faultPat < 2 ^ 320) && d.faultDigits.length == 4 && digitsOk d.faultDigits && decide (d.tamperPix < 320)
  && within 1 30 d.faultAltS

/-! ### Section 0x12: ports and debug enable (Tables 17.8 and 14.8a) -/

/-- Items of section 0x12. -/
structure PortItems where
  spEn : Nat := 1
  optOn : Nat := 1
  optMaxBd : Nat := 6
  optWakeMs : Nat := 50
  optIdleS : Nat := 60
  granMax : Nat := 4
  freezeMaxS : Nat := 10
  debugEn : Nat := 0
  debugHours : Nat := 0
  deriving DecidableEq, Repr, Inhabited

/-- Every item of section 0x12 lies in its range (R502, R591). -/
def PortItems.inRange (p : PortItems) : Bool :=
  decide (p.spEn ≤ 1) && decide (p.optOn ≤ 1) && decide (p.optMaxBd ≤ 6) && within 20 500 p.optWakeMs
  && within 5 600 p.optIdleS && within 1 8 p.granMax && within 1 60 p.freezeMaxS && decide (p.debugEn ≤ 2)
  && decide (p.debugHours ≤ 720)
/-! ### All sections -/

/-- Every item of the running image (R23). -/
structure Items where
  power : PowerItems := {}
  fabric : FabricItems := {}
  mason : MasonItems := {}
  shot : ShotItems := {}
  flow : FlowItems := {}
  temp : TempItems := {}
  integ : IntegItems := {}
  bill : BillItems := {}
  tamper : TamperItems := {}
  journal : JournalItems := {}
  radio : RadioItems := {}
  link : LinkItems := {}
  keys : KeyItems := {}
  roles : RoleItems := {}
  fault : FaultItems := FaultItems.defaults
  display : DisplayItems := {}
  ports : PortItems := {}
  deriving DecidableEq, Repr, Inhabited

end Sys2Proof.Machine
end

