-- ==== Sys2Proof/Config.lean ====
section
/-! DEFINITION. What the spec leaves open, as constants without a body: nothing can be proved of their values. -/

namespace Sys2Proof

/-- Which free tag or granule a draw takes (log 4, DESIGN CHOICE). The argument counts the draws. -/
opaque Config.freeIndex : Nat → Nat

/-- A byte that a cut program or erase left unstable, read at a draw and an address (R351). -/
opaque Config.freeByte : Nat → Nat → Byte

/-- The trimmed transmit current in mA for a power in dBm, from the OTP trims (R394, Table 11.3). -/
opaque Config.txCurrent : List Byte → Int → Nat

/-- The link-layer frame of a telegram by EN 13757-4: its head and its records (R392, R393; log 13, DESIGN CHOICE). -/
opaque Config.wmbFrame : Machine.TelegramHead → List Byte → List Byte

/-- What the mask expander outputs at a bit position of its state, and its state after absorbing a block (R473). -/
opaque Config.maskOut : BitVec 256 → Nat → Nat
opaque Config.maskAbsorb : BitVec 256 → List Byte → BitVec 256

/-- The quotient of a measured ratio whose denominator is zero: the spec states none (log 6, DESIGN CHOICE). -/
opaque Config.zeroDiv : Int → Int

/-- The conditioning key held in the OTP trims (R470). -/
opaque Config.conditioningKey : List Byte → List Byte

/-- What a section body gives: its items, put into those already read, the length that its format and its own counts call
for, and the places of its reserved bytes (R28 test 9). The spec gives the items but not their places in the body, but
for sections 0x01 and, in part, 0x04 (log 25, DESIGN CHOICE). -/
opaque Config.decodeSection : Nat → List Byte → Machine.Items → Machine.Items × Nat × List Nat

/-- The step that eight bytes of section 0x04 spell (Table 3.6 gives its operations, not the places of its operands;
log 25, DESIGN CHOICE). -/
opaque Config.decodeStep : List Byte → Option Machine.MStep

/-- The Scribe lane trims that the OTP trims give, 6 bits each (R176; the place in the trims is not stated). -/
opaque Config.laneTrim : List Byte → Nat → Nat

end Sys2Proof
end

