-- ==== Sys2Proof/Machine/Mem.lean ====
section
/-! DEFINITION. Byte memory as a canonical list of cells: the attached flash (an unlisted byte is erased, 0xFF),
the OTP array (an unlisted bit reads 0 until programmed) and the work SRAM (an unlisted byte is zeroed). -/

namespace Sys2Proof.Machine

/-- A byte memory: listed cells, addresses strictly rising, none equal to what an unlisted address reads. -/
abbrev Mem := List Host.Cell

/-- The byte at `a`, `d` where the address is not listed. -/
def Mem.get (d : Byte) (m : Mem) (a : Nat) : Byte :=
  match m with
  | [] => d
  | (b, v) :: rest => if a = b then v else Mem.get d rest a

/-- The memory with the byte at `a` written. Writing what an unlisted address reads removes the cell, so that
equal memories are equal lists. -/
def Mem.set (d : Byte) (m : Mem) (a : Nat) (v : Byte) : Mem :=
  match m with
  | [] => if v = d then [] else [(a, v)]
  | (b, w) :: rest =>
    if a < b then (if v = d then (b, w) :: rest else (a, v) :: (b, w) :: rest)
    else if a = b then (if v = d then rest else (a, v) :: rest)
    else (b, w) :: Mem.set d rest a v

/-- `k` bytes from `a`. -/
def Mem.read (d : Byte) (m : Mem) (a k : Nat) : List Byte := (List.range k).map fun i => m.get d (a + i)

/-- The bytes `bs` written from `a` upwards. -/
def Mem.write (d : Byte) (m : Mem) (a : Nat) (bs : List Byte) : Mem :=
  match bs with
  | [] => m
  | b :: rest => Mem.write d (Mem.set d m a b) (a + 1) rest

/-- Every byte of `[a, a + k)` put back to what an unlisted address reads (a sector erase, a zeroed granule). -/
def Mem.clear (m : Mem) (a k : Nat) : Mem := m.filter fun c => decide (c.1 < a ∨ a + k ≤ c.1)

/-- The canonical form: strictly rising addresses, and no cell that says what an unlisted address reads. -/
def Mem.wf (d : Byte) (m : Mem) : Bool :=
  match m with
  | [] => true
  | (a, v) :: rest => decide (v ≠ d) && (rest.all fun c => decide (a < c.1)) && Mem.wf d rest

end Sys2Proof.Machine
end

