-- ==== Sys2Proof/Machine/State.lean ====
section
/-! DEFINITION. The state of the block: every register, FIFO, buffer, counter, mode and pin the spec gives it, block
by block. Each field's default is its reset value (State.reset); where the spec states none, notes/assumptions/3.md
names the value. Fields without a register name are the state the chapters imply. -/

namespace Sys2Proof.Machine

open Sys2Proof

/-! ### Foundation image, OTP and bring-up (chapter 1) -/

/-- What BOOT shows of one copy (COPY_x_STATUS, COPY_x_SEQ; Table 1.11). -/
structure CopyStatus where
  /-- COPY_x_STATUS.VALID, 1 bit, R28. -/
  valid : Bool := false
  /-- COPY_x_STATUS.ACTIVE, 1 bit: the STATE byte read 0x5A (Table 1.11). -/
  active : Bool := false
  /-- COPY_x_STATUS.REJECT, 4 bits, Table 1.8. -/
  reject : Nat := 0
  /-- COPY_x_SEQ, 32 bits: SEQ as read (Table 1.11). -/
  seq : Nat := 0
  deriving DecidableEq, Repr, Inhabited

/-- What the chip keeps of the image that runs (IDENT and the engines' configuration, R23). -/
structure RunImage where
  /-- SEQ of the running copy, 32 bits (IDENT.IMAGE_SEQ); 0 in the bare state. -/
  seq : Nat := 0
  /-- METRO_CRC of the running copy, 32 bits (IDENT.IMAGE_METRO). -/
  metro : Word := 0
  /-- METER_TYPE of the running copy, 32 bits. -/
  meterType : Word := 0
  /-- BUILD_DT of the running copy, 64 bits (Table 1.2). -/
  buildDt : DWord := 0
  /-- Section bodies of the running copy by section ID (R25). -/
  bodies : List (Nat × List Byte) := []
  /-- Every item of every section (R23). -/
  items : Items := {}
  deriving DecidableEq, Repr, Inhabited

/-- A staging or reseat request held back (R60). -/
inductive Deferred where
  | stage (jobId : Nat)
  | reseatJob (jobId : Nat)
  | reseatWrite (actor : Actor)
  | reseatDt
  deriving DecidableEq, Repr, Inhabited

/-- BOOT block state (Table 1.11). -/
structure Boot where
  /-- BOOT_STAGE.STAGE, 4 bits (Table 1.5). -/
  stage : Nat := 0
  /-- BOOT_STAGE.BARE, 1 bit (R43). -/
  bare : Bool := false
  /-- BOOT_STAGE.RUNNING, 1 bit: stage 0x9 reached. -/
  running : Bool := false
  /-- BOOT_REASON.REASON, 8 bits. -/
  reason : Nat := 0
  /-- BOOT_REASON.STAGE_AT, 8 bits. -/
  stageAt : Nat := 0
  /-- COPY_A_STATUS and COPY_A_SEQ. -/
  copyA : CopyStatus := {}
  /-- COPY_B_STATUS and COPY_B_SEQ. -/
  copyB : CopyStatus := {}
  /-- SELECT.RUN_COPY, 1 bit: false = A runs. -/
  runB : Bool := false
  /-- SELECT.DIVERGE, 1 bit (Table 1.6). -/
  diverge : Bool := false
  /-- SELECT.SEQ_TIE, 1 bit (Table 1.6). -/
  seqTie : Bool := false
  /-- The tick at which the present boot stage began (R40). -/
  stageSince : Nat := 0
  /-- The D04 count of the present bring-up (R270). -/
  startTick : Nat := 0
  /-- BOOT_TIME.MS, 20 bits. -/
  bootMs : Nat := 0
  /-- RESET_CAUSE.POR, 1 bit. -/
  causePor : Bool := true
  /-- RESET_CAUSE.PIN, 1 bit. -/
  causePin : Bool := false
  /-- RESET_CAUSE.WDOG, 1 bit. -/
  causeWdog : Bool := false
  /-- RESET_CAUSE.COLD, 1 bit. -/
  causeCold : Bool := false
  /-- STAGING_STATUS.STATE, 2 bits. -/
  stgState : Nat := 0
  /-- STAGING_STATUS.LAST, 8 bits. -/
  stgLast : Nat := 0
  /-- STAGING_STATUS.REJECT, 4 bits (R47 check 6). -/
  stgReject : Nat := 0
  /-- The consent reference of the staging in progress (R497). -/
  stgRef : Nat := 0
  /-- STAGED_SEQ, 32 bits. -/
  stagedSeq : Nat := 0
  /-- BOOT.ACTIVATE_DT of the pending copy, 64 bits. -/
  activateDt : DWord := 0
  /-- RESEAT_STATUS.ACTIVE, 1 bit: the reseat lock is held (R51). -/
  reseatActive : Bool := false
  /-- RESEAT_STATUS.RESULT, 8 bits. -/
  reseatResult : Nat := 0
  /-- RESEAT_STATUS.DUR, 16 bits, 0.1 ms units. -/
  reseatDur : Nat := 0
  /-- RESEAT_COUNT, 16 bits, saturating. -/
  reseatCount : Half := 0
  /-- How far the reseat that holds the lock has come (Table 1.9): 0 no lock, 1 lock taken, 2 switched, 3 STATE byte
  programmed. -/
  reseatPhase : Nat := 0
  /-- A unit was fenced before the switch point, and the reseat rolls back (R540), 1 bit. -/
  reseatFenced : Bool := false
  /-- The tick at which its lock was taken (R52). -/
  reseatSince : Nat := 0
  /-- The configuration that ran before its switch point. -/
  reseatOld : Option RunImage := none
  /-- Triggers 2 to 7 that fell due while its lock was held, up to the switch point (R140). -/
  reseatTrigs : List (Nat × Nat) := []
  /-- The tick of the last unlock of a reseat (R54). -/
  unlockAt : Nat := 0
  /-- A reseat requested and waiting for its lock (R50, R51): the RESEAT job that asked, if one did. -/
  reseatWait : Option (Option Nat) := none
  /-- Who asked for it. -/
  reseatActor : Actor := ⟨0, 0⟩
  /-- Header and trailer CMAC of the amendment staged last since the start (Table 10.6). -/
  amendHead : List Byte := []
  amendMac : List Byte := []
  /-- Slots that a reseat has still to load; a forced halt leaves them to be loaded when the core resumes (R58, R481). -/
  reload : List Nat := []
  /-- Requests deferred during a staging, oldest first (R60). -/
  deferred : List Deferred := []
  /-- LOAD_CTRL.RESULT, 8 bits. -/
  loadResult : Nat := 0
  /-- LOAD_CTRL.COPY, 1 bit. -/
  loadCopyB : Bool := false
  /-- LOAD_ADDR.PAGE, 8 bits. -/
  loadPage : Nat := 0
  /-- LOAD_BUF, 256 bytes. -/
  loadBuf : List Byte := List.replicate 256 0
  /-- The copy that the last ERASE of the load path named (R45). -/
  loadTarget : Option Bool := none
  /-- First-page header bytes 0x00 to 0x0F held back until FINISH (R45). -/
  loadHead : Option (List Byte) := none
  /-- IDENT.SEAL.SEAL_DT_BAD, 1 bit, judged at stage 0x2 (R34). -/
  sealDtBad : Bool := false
  /-- The running image. -/
  img : RunImage := {}
  deriving DecidableEq, Repr, Inhabited

/-! ### Lintel, clocks and device time (chapter 2) -/

/-- The energy governor (R83 to R87, R616; Table 2.10). -/
structure Governor where
  /-- GOV_ALLOW, 32 bits, µC. -/
  allow : Nat := 0
  /-- GROUP_TODAY[0 to 7], 32 bits each, µC (Table 2.5). -/
  today : Vector Nat 8 := Vector.replicate 8 0
  /-- GROUP_YESTERDAY[0 to 7], 32 bits each, µC. -/
  yesterday : Vector Nat 8 := Vector.replicate 8 0
  /-- Today's spend of class C, µC (R86). -/
  cSpent : Nat := 0
  /-- Today's spend of class H, µC (R86). -/
  hSpent : Nat := 0
  /-- GOV_DAY.DAY_INDEX, 16 bits (R83, R616). -/
  dayIndex : Nat := 0
  /-- The D04 count at which the present governor day began (R83). -/
  dayStart : Nat := 0
  /-- Lifetime VBAT charge, µC; GOV_USED shows it in mC (R83). -/
  usedUc : Nat := 0
  /-- Lifetime VBAK charge, µC; BAK_USED shows it in mC (R83). -/
  bakUc : Nat := 0
  /-- Held governor-day rolls, oldest first, with their DAY_INDEX; at most 255 (R616). -/
  held : List Nat := []
  /-- Consecutive evaluations on a bound (R4). -/
  clampRun : Nat := 0
  /-- GOV_FLAGS.LOOP_CLAMPED, 1 bit (R4). -/
  clamped : Bool := false
  /-- CLAMP_COUNT, 16 bits (R4). -/
  clampCount : Half := 0
  /-- GOV_FLAGS.C_EXHAUSTED, 1 bit. -/
  cExhausted : Bool := false
  /-- GOV_FLAGS.H_EXHAUSTED, 1 bit. -/
  hExhausted : Bool := false
  /-- GOV_FLAGS.SHOT_THROTTLE, 1 bit (R87). -/
  throttle : Bool := false
  /-- ENERGY_REFUSED, 16 bits. -/
  refused : Half := 0
  deriving DecidableEq, Repr, Inhabited

/-- Who holds the peak-current grant of R77. -/
inductive PeakHolder where
  | none | tx | program | erase
  deriving DecidableEq, Repr, Inhabited

/-- LINTEL block and AON supply state (Table 2.10). -/
structure Lintel where
  /-- SUPPLY_STATUS.VBAT_OK, 1 bit (R66). -/
  vbatOk : Bool := false
  /-- VIO is above VIO_OK (R604), 1 bit. -/
  vioOk : Bool := false
  /-- The main domain runs (R67, R604). -/
  mainOn : Bool := false
  /-- SUPPLY_STATUS.VBAK_LOW, 1 bit (R66). -/
  vbakLow : Bool := false
  /-- SUPPLY_STATUS.SRC, 1 bit: VAON from VBAK (R64). -/
  srcVbak : Bool := false
  /-- The AON reversal latch, 1 bit (R74). -/
  revLatch : Bool := false
  /-- VBAT is below the reversal limit now (R74). -/
  reversedNow : Bool := false
  /-- SUPPLY_STATUS.VBAT_REV, 1 bit (R74). -/
  vbatRev : Bool := false
  /-- The RETLOST latch, 1 bit (R70). -/
  retlost : Bool := true
  /-- COLD_STATUS.RETLOST, 1 bit (R70). -/
  coldStatus : Bool := false
  /-- The main domain was off since the last run (R71). -/
  wasOff : Bool := false
  /-- VBAT_MV.NOW, 16 bits. -/
  vbatMv : Nat := 0
  /-- VBAT_MV.MIN_LOADED, 16 bits. -/
  minLoaded : Nat := 0
  /-- VBAK_MV.NOW, 16 bits. -/
  vbakMv : Nat := 0
  /-- HANDOVER_COUNT, 16 bits (R71). -/
  handover : Half := 0
  /-- SWITCH_COUNT, 16 bits. -/
  switches : Half := 0
  /-- COLD_COUNT, 16 bits. -/
  coldCount : Half := 0
  /-- BROWNOUT_COUNT, 16 bits (R82). -/
  brownouts : Half := 0
  /-- LOSS_DT, 64 bits. -/
  lossDt : DWord := 0
  /-- No transmission starts until VBAT recovers (R81). -/
  txHeld : Bool := false
  /-- The tick of the last VBAT measurement (VBAT_MEAS_S). -/
  measuredAt : Nat := 0
  /-- The peak-load grant (R77). -/
  peak : PeakHolder := .none
  /-- A sector erase is suspended for a frame (R77). -/
  eraseSuspended : Bool := false
  /-- The 39 MHz crystal runs (XO_ON), 1 bit (R75). -/
  xoOn : Bool := false
  /-- The tick at which the last radio activity ended (R75 run-on). -/
  xoIdleSince : Nat := 0
  /-- The energy governor. -/
  gov : Governor := {}
  deriving DecidableEq, Repr, Inhabited

/-- CLOCK block state (Table 2.11). -/
structure Clock where
  /-- XL_STATUS.XL_OK, 1 bit. -/
  xlOk : Bool := true
  /-- XL_STATUS.ON_RC, 1 bit (R93). -/
  onRc : Bool := false
  /-- XL_STATUS.RETRIES, 8 bits. -/
  retries : Nat := 0
  /-- XL_RC_PPM, signed 16 bits. -/
  rcPpm : Int := 0
  /-- XO39_STATUS.OK, 1 bit. -/
  xoOk : Bool := false
  /-- XO39_STATUS.START_US, 16 bits. -/
  xoStartUs : Nat := 0
  /-- LINK_PPM, signed 16 bits (R92). -/
  linkPpm : Int := 0
  /-- MON_FAIL, 25 bits, latched. -/
  monFail : BitVec 25 := 0
  /-- TEST_EN is high (R600). -/
  testEn : Bool := false
  /-- Clock domain D25 runs (R96). -/
  d25 : Bool := false
  /-- The tick of the last crystal retry (R93). -/
  retryAt : Nat := 0
  /-- The tick of the last watchdog kick (R95). -/
  kickAt : Nat := 0
  /-- WDOG_STATUS.PAUSED, 1 bit (R95). -/
  wdogPaused : Bool := false
  deriving DecidableEq, Repr, Inhabited

/-- A set held for the next tick (R98). -/
structure PendingSet where
  /-- Adjust by the value, or set to it. -/
  adjust : Bool
  /-- SET_VALUE as it was taken. -/
  value : DWord
  /-- The role and master that asked for it (event type 6). -/
  actor : Actor
  deriving DecidableEq, Repr, Inhabited

/-- TIME block state (Table 2.16), held in AON. -/
structure TimeState where
  /-- DT_NOW, 64 bits (R14, R97). -/
  dt : DWord := 0
  /-- Ticks of 1/32768 s since VAON came up, from D04 or, while the crystal has failed, from D05: the time base of stamps
  that name no clock (R93, R97, log 5, DEDUCED). -/
  ticks : Nat := 0
  /-- D04 ticks alone since VAON came up, without the time that D05 keeps while the crystal has failed: what the spec counts
  on D04 is counted here (R83, R93, R100). -/
  d04 : Nat := 0
  /-- D04 ticks since the last authenticated set; UNSYNC_DAYS shows its days (R100). -/
  sinceSet : Nat := 0
  /-- INVALID, 1 bit (R100). -/
  invalid : Bool := true
  /-- Step sums of the eight streams, in DT units (R100). -/
  stepSums : Vector Nat 8 := Vector.replicate 8 0
  /-- LAST_SET_DT, 64 bits. -/
  lastSetDt : DWord := 0
  /-- LAST_STEP, signed 32 bits. -/
  lastStep : Int := 0
  /-- SET_COUNT, 16 bits. -/
  setCount : Half := 0
  /-- SET_VALUE, 64 bits. -/
  setValue : DWord := 0
  /-- SET_STATUS.PENDING with what it holds. -/
  pend : Option PendingSet := none
  /-- SET_STATUS.LAST, 8 bits. -/
  last : Nat := 0
  /-- DT boundaries passed and not yet raised: second, minute, hour, day (R622). -/
  due : Vector Bool 4 := Vector.replicate 4 false
  /-- A local minute boundary passed and not yet evaluated by the calendar (R309). -/
  calDue : Bool := false
  /-- High words held for a master by a read of a low word: master, word address of the high word, value (R292). -/
  latches : List (Nat × Nat × Word) := []
  deriving DecidableEq, Repr, Inhabited

/-! ### Coursing fabric and Mason core (chapter 3) -/

/-- Where a tag or granule was drawn from (R116, R117). -/
inductive Pool where
  | none | reserve (cls : Nat) | shared | lent
  deriving DecidableEq, Repr, Inhabited

/-- What an engine ended a job with (R111). -/
structure JobResult where
  /-- The status code (Table 0.8). -/
  status : Status := .done
  /-- QFLAGS of the record (Table 3.3). -/
  qflags : Nat := 0
  /-- The master that won a conflict. -/
  winner : Nat := 0
  /-- BEAT_CLASS (Table 3.4). -/
  beat : Nat := 0
  /-- RETRY_S (Table 3.4). -/
  retryS : Nat := 0
  /-- RESULT, 20 bits. -/
  result : Nat := 0
  /-- The bytes put into the job's output granules. -/
  out : List Byte := []
  deriving DecidableEq, Repr, Inhabited

/-- A job's course: in its FIFO, held (R113), ready, on its engine, or ended by its engine and not yet completed. -/
inductive Phase where
  | waiting | held (left : Nat) | ready | running | ended (r : JobResult)
  deriving DecidableEq, Repr, Inhabited

/-- What a held job knows of a predecessor that released it (R114). -/
structure Pred where
  /-- The predecessor's output list. -/
  head : Nat := 0xFF
  /-- Its status. -/
  status : Status := .done
  /-- Its RESULT. -/
  result : Nat := 0
  /-- Its QFLAGS. -/
  qflags : Nat := 0
  deriving DecidableEq, Repr, Inhabited

/-- A submitted job. -/
structure Job where
  /-- Submission order, unique (R121 age). -/
  id : Nat := 0
  /-- The tag, 8 bits, once admitted. -/
  tag : Option Nat := none
  /-- The pool its tag was drawn from (R116, R117). -/
  tagPool : Pool := .none
  /-- Its queue, 6 bits. -/
  queue : Nat := 0
  /-- Its descriptor (Table 3.1). -/
  desc : Desc := {}
  /-- The master and role that submitted it (R617). -/
  actor : Actor := ⟨0, 0⟩
  /-- Completion SEQ, 16 bits (Table 3.3). -/
  seq : Half := 0
  /-- The tick of submission (R119). -/
  at_ : Nat := 0
  /-- The tick of admission (R115). -/
  admittedAt : Nat := 0
  /-- The tick of dispatch (R109). -/
  startedAt : Nat := 0
  /-- The tick at which it became ready: its submission, or its release where it was held (R120). -/
  readyAt : Nat := 0
  /-- Where it stands in its course. -/
  phase : Phase := .waiting
  /-- Output granules, in list order. -/
  outs : List Nat := []
  /-- Granules of its own that it holds as inputs or that a predecessor passed on (R126). -/
  ins : List Nat := []
  /-- Granules lent to it (R126). -/
  lent : List Nat := []
  /-- Its predecessors' results (R114). -/
  preds : List Pred := []
  /-- H tags and granules lent by evictions and not drawn: they stay owed to the H reserve until it completes (R117). -/
  creditTags : Nat := 0
  creditGran : Nat := 0
  /-- It has waited for a tag or granule (B_DELAY_COUNT). -/
  delayed : Bool := false
  /-- An AUTO_RETRY resubmission, whose completion is final (R119). -/
  final : Bool := false
  /-- The Mason context that submitted it. -/
  ctx : Option Nat := none
  /-- A mark: for a STEP, that a class C source of a metrology block was raised at its dispatch (R297); for a FLOW, the
  throttle request (R212); for a BILL_COMMIT, that it was submitted inside a billing-commit lock (R313); for a WMB_SEND,
  that the recipe of a wake submitted it (R402). -/
  mark : Bool := false
  /-- The temperature record's granule that a STEP took at its release (R269). -/
  tempGran : Option Nat := none
  /-- The record a chip-built journal WRITE carries, and other data the chip itself attaches. -/
  payload : List Byte := []
  /-- The template of the telegram that its chain builds, once its BUILD has built it (R394). -/
  tpl : Option Nat := none
  deriving DecidableEq, Repr, Inhabited

/-- A completion record (Table 3.3). -/
structure Cpl where
  /-- STATUS. -/
  status : Status := .done
  /-- TAG. -/
  tag : Nat := 0
  /-- QUEUE. -/
  queue : Nat := 0
  /-- NO_TAG. -/
  noTag : Bool := false
  /-- INHERITED. -/
  inherited : Bool := false
  /-- BEAT_CLASS. -/
  beat : Nat := 0
  /-- WINNER. -/
  winner : Nat := 0
  /-- QFLAGS. -/
  qflags : Nat := 0
  /-- RETRY_S. -/
  retryS : Nat := 0
  /-- OUT_HEAD. -/
  outHead : Nat := 0xFF
  /-- OUT_COUNT. -/
  outCount : Nat := 0
  /-- RESULT. -/
  result : Nat := 0
  /-- USER. -/
  user : Nat := 0
  /-- SEQ. -/
  seq : Nat := 0
  /-- The descriptor had NOTIFY = 1 (R618). -/
  notify : Bool := false
  /-- Granules the record holds until it is popped (R128). -/
  holds : List Nat := []
  deriving DecidableEq, Repr, Inhabited

/-- One queue (Table 3.11). -/
structure QueueSt where
  /-- The completion ring, oldest first (R130). -/
  ring : List Cpl := []
  /-- Q_STATUS.OVERRUN, 1 bit. -/
  overrun : Bool := false
  /-- Q_CTRL.NOTIFY_EN, 1 bit. -/
  notifyEn : Bool := false
  /-- The next submission's SEQ, 16 bits. -/
  seq : Half := 0
  /-- DESC0 to DESC7 staged per master: 0 to 5, and the Mason core's (R134). -/
  staging : Vector (Vector Word 8) 7 := Vector.replicate 7 (Vector.replicate 8 0)
  /-- Q_SUBMIT per master: SEQ and TAKEN. -/
  submit : Vector (Nat × Bool) 6 := Vector.replicate 6 (0, false)
  deriving DecidableEq, Repr, Inhabited

/-- One granule's row of GRAN_TABLE (Table 3.9). -/
structure Granule where
  /-- NEXT, 8 bits. -/
  next : Nat := 0xFF
  /-- OWNER, 8 bits (R125). -/
  owner : Nat := 0xFF
  /-- The number of jobs it is lent to; LENT shows whether any. -/
  lent : Nat := 0
  /-- SCRUBBING, 1 bit. -/
  scrubbing : Bool := false
  /-- SECRET, 1 bit (R127). -/
  secret : Bool := false
  /-- RETIRED, 1 bit (R127). -/
  retired : Bool := false
  /-- PUBLISHED, 1 bit (R269). -/
  published : Bool := false
  /-- The pool it was drawn from (R116, R117). -/
  pool : Pool := .none
  /-- The port that holds it by R573, and the tick of its last access. -/
  port : Option Nat := none
  /-- The tick of its last access by that port (R573). -/
  touched : Nat := 0
  deriving DecidableEq, Repr, Inhabited

/-- An event waiting in the trigger FIFO (R131). -/
structure TrigEntry where
  /-- The event type that waits in the trigger FIFO (Table 3.5). -/
  kind : Nat := 0
  /-- Its parameter. -/
  param : Nat := 0
  /-- Its argument. -/
  arg : Nat := 0
  /-- The recipe it starts. -/
  recipe : Nat := 0
  deriving DecidableEq, Repr, Inhabited

/-- One Mason context. -/
structure MContext where
  busy : Bool := false
  /-- The event kind that started it; kind 1 is the tick recipe of R95. -/
  kind : Nat := 0
  /-- The recipe it runs. -/
  recipe : Nat := 0
  /-- The step it executes next, counted from the recipe's first. -/
  pc : Nat := 0
  /-- The job it submitted last, and that job's completion status once known. -/
  lastJob : Option Nat := none
  lastEnd : Option Status := none
  /-- The status IFST tests (R620). -/
  test : Nat := 0
  /-- It waits in a WAIT step. -/
  waiting : Bool := false
  /-- The lock it holds (R132). -/
  lock : Option LockKind := none
  /-- The engine-0 job that occupies it (R623). -/
  job : Option Nat := none
  deriving DecidableEq, Repr, Inhabited

/-- The Mason core. -/
structure Mason where
  ctxs : Vector MContext 8 := Vector.replicate 8 {}
  /-- The 32-entry trigger FIFO, oldest first (R131). -/
  fifo : List TrigEntry := []
  /-- MASON_STATUS.HALTED, 1 bit. -/
  halted : Bool := false
  /-- The core runs (MASON_STATUS.RUNNING), 1 bit. -/
  running : Bool := false
  /-- The locked sequence in progress and the tick at which it began (R132). -/
  lock : Option (LockKind × Nat) := none
  /-- LOCK_US, 24 bits. -/
  lockUs : Nat := 0
  /-- TRIG_DROP, 16 bits. -/
  drops : Half := 0
  /-- The D04 count at which kind-10 timers began to count (R140, R619). -/
  timerBase : Nat := 0
  /-- The number of periods already raised per event-table entry of kind 10. -/
  timerFired : List (Nat × Nat) := []
  /-- The context whose stepped LOCK runs on through UNLOCK while the core is halted (R587). -/
  stepLock : Option Nat := none
  deriving DecidableEq, Repr, Inhabited

/-- A descriptor the fabric resubmits later (R119). -/
structure Retry where
  /-- The tick at which it is submitted again. -/
  due : Nat
  /-- Its queue. -/
  queue : Nat
  /-- Its descriptor. -/
  desc : Desc
  /-- Who submitted it. -/
  actor : Actor
  deriving DecidableEq, Repr, Inhabited

/-- The FABRIC and QUEUE blocks (Tables 3.9 and 3.11). -/
structure Fabric where
  /-- Every job that has not completed, oldest first. -/
  jobs : List Job := []
  /-- Jobs whose submitter stalls on a full M or B FIFO, oldest first (R118). -/
  stalled : List Job := []
  /-- The model's own number of the next job: the order of submission that R121 asks for. -/
  nextId : Nat := 1
  /-- The 64 queues (Table 3.11). -/
  queues : Vector QueueSt 64 := Vector.replicate 64 {}
  /-- GRAN_TABLE, 192 rows (Table 3.9). -/
  grans : Vector Granule 192 := Vector.replicate 192 {}
  /-- AUTO_RETRY resubmissions that wait (R119). -/
  retries : List Retry := []
  /-- M_DELAY_COUNT, 16 bits (R120). -/
  mDelay : Half := 0
  /-- M_DELAY_MAX, 24 bits, µs. -/
  mDelayMax : Nat := 0
  /-- B_DELAY_COUNT, 16 bits. -/
  bDelay : Half := 0
  /-- EVICT_COUNT, 16 bits. -/
  evicts : Half := 0
  /-- REFUSE_COUNT, C and H, 16 bits each. -/
  refuseC : Half := 0
  refuseH : Half := 0
  /-- DEFER_COUNT, C and H, 16 bits each. -/
  deferC : Half := 0
  deferH : Half := 0
  /-- CONFLICT_COUNT, 16 bits. -/
  conflicts : Half := 0
  /-- TIMEOUT_COUNT, M B C H, 8 bits each. -/
  timeouts : Vector Byte 4 := Vector.replicate 4 0
  /-- RING_OVERRUN, 16 bits. -/
  overruns : Half := 0
  /-- Consecutive TIMEOUT completions per engine (R109). -/
  stuck : Vector Nat 16 := Vector.replicate 16 0
  /-- Triggers 0 to 7: the D04 count of each one's last instant. -/
  trigLast : Vector Nat 8 := Vector.replicate 8 0
  /-- The debug freeze: dispatch of C and H jobs is stopped, and since which tick (R588). -/
  frozen : Option Nat := none
  deriving DecidableEq, Repr, Inhabited

/-! ### Fault windows (chapter 15) -/

/-- One block's fault window (Table 15.1). -/
structure FaultWin where
  /-- FAULT_STATUS.RAISED, 16 bits. -/
  raised : Half := 0
  /-- FAULT_ENABLE.EN, 16 bits. -/
  enable : Half := 0
  /-- FIRST_ADDR.ADDR, 24 bits. -/
  firstAddr : Nat := 0
  /-- FIRST_INFO.MASTER, 8 bits. -/
  firstMaster : Nat := 0
  /-- FIRST_INFO.ACCESS, 4 bits (Table 15.2). -/
  firstAccess : Nat := 0
  /-- FIRST_INFO.SOURCE, 6 bits. -/
  firstSource : Nat := 0
  /-- FIRST_INFO.VALID, 1 bit. -/
  firstValid : Bool := false
  /-- The capture is armed (R514). -/
  armed : Bool := true
  /-- FIRST_DT, 64 bits. -/
  firstDt : DWord := 0
  /-- FAULT_COUNT, 32 bits, saturating. -/
  count : Word := 0
  /-- The sources whose condition holds now (level sources, R516). -/
  holds : Half := 0
  /-- The class under which each source was last raised, two bits for each (R535), 32 bits. -/
  raisedCls : Word := 0
  /-- The class B sources whose raising fenced a unit: they stay raised for as long as it stays fenced (R513), 16 bits. -/
  pinned : Half := 0
  /-- UNIT_STATE.FENCED, 1 bit. -/
  fenced : Bool := false
  /-- UNIT_STATE.PART_FENCED, 4 bits. -/
  part : BitVec 4 := 0
  /-- UNIT_STATE.BY, 8 bits. -/
  by_ : Nat := 0
  /-- UNIT_STATE.BY_SOURCE, 8 bits. -/
  bySource : Nat := 0
  /-- HIST.DROPPED, 8 bits, AON. -/
  histDropped : Byte := 0
  deriving DecidableEq, Repr, Inhabited

/-- The units of Table 15.4. -/
inductive FaultUnit where
  | frontPath (p : Nat) | scribe | ftu | shot | temp | integ | bill | tamper | journal | radio | link | cipher
  | entropy | keyslot | lcd
  deriving DecidableEq, Repr, Inhabited

/-- A fault-history record waiting in AON (R533). -/
structure HistRec where
  /-- The block whose source was raised or cleared. -/
  block : Block := .ident
  /-- The record's bytes (R533). -/
  bytes : List Byte := []
  deriving DecidableEq, Repr, Inhabited

/-- What an audit record is made from (Table 14.6). -/
structure AuditReq where
  /-- KIND of an audit record (Table 14.7). -/
  kind : Nat := 0
  /-- Its role. -/
  role : Nat := 0
  /-- Its master. -/
  master : Nat := 0
  /-- Its item. -/
  item : Nat := 0
  /-- Its old value. -/
  old : List Byte := []
  /-- Its new value. -/
  new : List Byte := []
  /-- Its status. -/
  status : Nat := 0
  /-- ROLE [3]: a radio command. -/
  radio : Bool := false
  deriving DecidableEq, Repr, Inhabited

/-- A consequence that falls at the end of the cycle or in the next one (R131, R498, R512, R524, R532). -/
inductive Reaction where
  | mason (kind param arg : Nat)
  | audit (a : AuditReq)
  | change (src : FaultSrc) (set : Bool)
  | cls (src : FaultSrc)
  | fence (unit : FaultUnit) (src : FaultSrc)
  | grave (src : FaultSrc)
  /-- A SHOT_PAIR job of a path has completed (R207). -/
  | pairEnd (queue path job : Nat) (st : Status)
  deriving DecidableEq, Repr, Inhabited

/-- Every fault window, the grave latch and the fault pins (chapter 15). -/
structure Faults where
  /-- The windows in the order of `Block.all`. -/
  win : Vector FaultWin 24 := Vector.replicate 24 {}
  /-- The GRAVE latch, AON (R526). -/
  grave : Bool := false
  /-- The 16-entry AON queue of fault-history records, oldest first (R533). -/
  hist : List HistRec := []
  /-- Sources detected in AON while the main domain was off, with the DT of detection (R515). -/
  aonLatched : List (FaultSrc × DWord) := []
  /-- The ALIVE pin, as last toggled (R530). -/
  alive : Bool := false
  /-- ALIVE toggles again from the next half-second boundary (R530). -/
  aliveRun : Bool := false
  /-- The half-second count of the D05 counter that paces ALIVE, AON (R530). -/
  d05Halves : Nat := 0
  /-- The units that were fenced when the main domain last went off, and what fenced them (R156, R523). -/
  fencedBefore : List (FaultUnit × FaultSrc) := []
  /-- Consequences still to be taken in the present cycle or the next (model's own; empty between commands). -/
  todo : List Reaction := []
  deriving DecidableEq, Repr, Inhabited

/-! ### Transducer front end (chapter 4) -/

/-- One line: CAP_x (Table 4.7). -/
structure LineSt where
  /-- PF, 16 bits. -/
  pf : Nat := 0
  /-- RESULT, 2 bits (Table 4.2). -/
  result : Nat := 0
  /-- FAILS, 4 bits. -/
  fails : Nat := 0
  /-- The failures of this run have been confirmed (R155). -/
  told : Bool := false
  deriving DecidableEq, Repr, Inhabited

/-- One path's registers (Table 4.7). -/
structure FrontPath where
  /-- THR.NOW and TARGET, 8 bits each. -/
  thr : Nat := 0
  target : Nat := 0
  /-- PEAK.UP, DOWN, 8 bits each, CLIPPED. -/
  peakUp : Nat := 0
  peakDown : Nat := 0
  clipped : Bool := false
  /-- CAP_U: PF, RESULT and FAILS of the upstream line. -/
  up : LineSt := {}
  /-- CAP_D: PF, RESULT and FAILS of the downstream line. -/
  down : LineSt := {}
  /-- LINE_STATUS. -/
  confirmed : Bool := false
  reversed : Bool := false
  polMiss : Nat := 0
  /-- The misses of this run have been confirmed (R157). -/
  polTold : Bool := false
  /-- LOOP_FLAGS and the run of R4. -/
  clampRun : Nat := 0
  clamped : Bool := false
  atMin : Bool := false
  atMax : Bool := false
  /-- CLAMP_COUNT, 16 bits (R4). -/
  clampCount : Half := 0
  /-- LINE_FAIL_COUNT, OVERCURRENT_COUNT, CLIP_COUNT, POL_FAIL_COUNT, 16 bits each. -/
  lineFails : Half := 0
  overcurrents : Half := 0
  clips : Half := 0
  polFails : Half := 0
  /-- Consecutive clipped pairs (PEAK_CLIPPED). -/
  clipRun : Nat := 0
  deriving DecidableEq, Repr, Inhabited

/-- FRONT block (Tables 4.6 and 4.7). -/
structure Front where
  paths : Vector FrontPath 2 := Vector.replicate 2 {}
  /-- PUMP_MV, 12 bits. -/
  pumpMv : Nat := 0
  /-- FE_STATUS.ACTIVE_PATH. -/
  activePath : Nat := 0
  /-- BURST_COUNT, 32 bits. -/
  bursts : Word := 0
  deriving DecidableEq, Repr, Inhabited

/-! ### Scribe lanes and fine-time unit (chapter 5) -/

/-- SCRIBE block (Table 5.6) with the capture RAM. -/
structure Scribe where
  /-- The two capture buffers of edge records (R181). -/
  ram : Vector (List Word) 2 := Vector.replicate 2 []
  /-- Whether each buffer's direction overflowed. -/
  ramOverflow : Vector Bool 2 := Vector.replicate 2 false
  /-- SCR_STATUS.BUF and LANE_OK (LOCKED and WINDOW_OPEN show whether a direction is open). -/
  buf : Nat := 0
  /-- SCR_STATUS.LANE_OK, 4 bits. -/
  laneOk : Nat := 15
  /-- LAST_COUNT.STORED (11), DROPPED (16), LAST_FLAGS (8), LAST_WIN (17), LOCK_TIME (8). -/
  lastStored : Nat := 0
  lastDropped : Nat := 0
  lastFlags : Nat := 0
  lastWin : Nat := 0
  lockTime : Nat := 0
  /-- LANE_TRIM L0 to L3, 6 bits each. -/
  trims : Vector Nat 4 := Vector.replicate 4 0
  /-- AGREE_LOW_COUNT, OVERFLOW_COUNT, GLITCH_COUNT, LOCK_FAIL_COUNT, 16 bits each. -/
  agreeLow : Half := 0
  overflows : Half := 0
  glitches : Half := 0
  lockFails : Half := 0
  /-- Consecutive lock failures (PLL_DEAD). -/
  lockFailRun : Nat := 0
  /-- For how many directions in a row each lane has disagreed on every edge (LANE_STUCK). -/
  badRuns : Vector Nat 4 := Vector.replicate 4 0
  /-- DIRECTIONS, 32 bits, wrapping. -/
  directions : Word := 0
  deriving DecidableEq, Repr, Inhabited

/-- FTU block (Table 5.7). -/
structure Ftu where
  calOk : Bool := false
  /-- CAL.A, B, 16 bits each. -/
  calA : Nat := 0
  calB : Nat := 0
  /-- SCALE_PPB, signed 32 bits, and the tick of its measurement. -/
  scalePpb : Int := 0
  scaleAt : Nat := 0
  /-- FTU_ALIGN.OFS, signed 16 bits, and DEV_MAX, 16 bits. -/
  alignOfs : Int := 0
  devMax : Nat := 0
  /-- DNL, 8 bits. -/
  dnl : Nat := 0
  /-- STOP_RAW: fine and coarse counts of the stops taken. -/
  stopRaw : List (Nat × Nat) := []
  /-- CAL_DRIFT_COUNT, 16 bits. -/
  calDrifts : Half := 0
  /-- ALIGN_FAIL_COUNT, 16 bits. -/
  alignFails : Half := 0
  /-- STOP_SHORT_COUNT, 16 bits. -/
  stopShorts : Half := 0
  /-- Consecutive directions with ALIGN_FAIL. -/
  alignRun : Nat := 0
  deriving DecidableEq, Repr, Inhabited

/-! ### Shot sequencing and flow (chapter 6) -/

/-- How one direction ended: not fired for a line, capture failure, or a record. -/
inductive DirKind where
  | line | capture | record
  deriving DecidableEq, Repr, Inhabited

/-- One direction of a pair: its header (Table 5.3) and what the pair's evaluation needs. -/
structure DirRec where
  /-- KIND of the header (Table 5.3). -/
  kind : DirKind := .record
  /-- The upstream direction. -/
  isUp : Bool := true
  /-- FLAGS (Table 5.3). -/
  flags : Nat := 0
  /-- STORED. -/
  stored : Nat := 0
  /-- DROPPED. -/
  dropped : Nat := 0
  /-- WIN_RUN, D15 cycles (Table 5.3). -/
  winRun : Nat := 0
  /-- CAL16_A. -/
  calA : Nat := 0
  /-- CAL16_B. -/
  calB : Nat := 0
  /-- AGREE_LOW. -/
  agreeLow : Nat := 0
  /-- First kept record and the kept records. -/
  first : Nat := 0
  kept : List Word := []
  /-- t_stop of each stop (R187), and the kept-record index of its record (0xFFFF outside the span). -/
  stops : List Int := []
  stopIdx : List Nat := []
  /-- Widths of the threshold pulses, grid units (R216). -/
  pulses : List Nat := []
  /-- A calibration sum outside its range: no stops (R186). -/
  calBad : Bool := false
  /-- PEAK (Table 5.3). -/
  peak : Nat := 0
  /-- It tripped first on the side opposite to EXPECT_POL (R157). -/
  wrongSide : Bool := false
  /-- DT of its origin. -/
  originDt : DWord := 0
  /-- The D04 count since bring-up at the origin (R270). -/
  originTick : Nat := 0
  deriving DecidableEq, Repr, Inhabited

/-- What the tests of Table 6.1 say of a pair (R205, R213 to R217). -/
structure PairTest where
  /-- The outcome code (Table 6.1). -/
  outcome : Nat := 0
  /-- Δt_raw, 1/65 536 ns. -/
  dtRaw : Int := 0
  /-- t_mean of the upstream direction. -/
  meanUp : Int := 0
  /-- t_mean of the downstream direction. -/
  meanDn : Int := 0
  /-- Δt_raw was formed. -/
  timed : Bool := false
  /-- The cycle-slip count k. -/
  k : Int := 0
  /-- The repaired direction is down. -/
  repDown : Bool := false
  /-- A pulse-width ratio is outside its warning bounds. -/
  pwrWarn : Bool := false
  /-- PWR of each direction that has two threshold pulses (R216). -/
  pwrUp : Option Nat := none
  pwrDn : Option Nat := none
  deriving DecidableEq, Repr, Inhabited

/-- A pair being fired: its job, path, order, whether it is the retry or the plumb pair, and its directions so far. -/
structure PairRun where
  /-- The SHOT_PAIR job. -/
  job : Nat := 0
  /-- Its path. -/
  path : Nat := 0
  /-- The upstream direction fires first. -/
  upFirst : Bool := true
  /-- The pair is a retry. -/
  retried : Bool := false
  /-- It carries a plumb pair. -/
  plumb : Bool := false
  /-- A plumb check was due when the job was dispatched (R222). -/
  plumbDue : Bool := false
  /-- The tick at which its next direction falls due (R207, R209, R221), and that of the last one's start. -/
  dueAt : Nat := 0
  startedAt : Nat := 0
  /-- A direction's burst has left and its record is not complete: what it met, and the SCALE_PPB it uses (R201). -/
  openDir : Option DirRec := none
  /-- What that direction met. -/
  obs : DirObs := {}
  /-- SCALE_PPB in force, until its window opens. -/
  scale : Int := 0
  /-- The directions done. -/
  dirs : List DirRec := []
  /-- The normal pair's tests and direction records, kept while the plumb pair runs. -/
  normal : Option PairTest := none
  /-- Their records. -/
  records : List DirRec := []
  /-- The pair waits for its retry, which starts at this tick (R215). -/
  waitRetry : Option Nat := none
  /-- ZERO_OFS in force at dispatch (R224). -/
  zeroUsed : Int := 0
  /-- DT and D04 count of the pair's start. -/
  startDt : DWord := 0
  /-- D04 count of the pair's start. -/
  startTick : Nat := 0
  deriving DecidableEq, Repr, Inhabited

/-- What the FLOW job takes from a path's accepted pair (R208). -/
structure PairEval where
  /-- The outcome code. -/
  outcome : Nat := 0xF
  /-- Δt_raw after the corrections of Table 6.1. -/
  dtRaw : Int := 0
  /-- t_mean upstream. -/
  meanUp : Int := 0
  /-- t_mean downstream. -/
  meanDn : Int := 0
  /-- The zero offset applied. -/
  zeroUsed : Int := 0
  /-- PWR_WARN. -/
  pwrWarn : Bool := false
  /-- A cycle slip was repaired. -/
  repaired : Bool := false
  /-- The pair was a retry. -/
  retried : Bool := false
  /-- NO_ARM in a direction. -/
  noArm : Bool := false
  /-- A direction of the pair fired. -/
  fired : Bool := false
  /-- DT of the pair. -/
  pairDt : DWord := 0
  /-- ORIGIN_TICK (R270). -/
  pairTick : Nat := 0
  deriving DecidableEq, Repr, Inhabited

/-- A SHOT_PAIR job of a shot event: its FLOW job, its path, and what FLOW takes of it (R207, R208). -/
structure ShotEval where
  job : Nat := 0
  flow : Nat := 0
  path : Nat := 0
  eval : PairEval := {}
  deriving DecidableEq, Repr, Inhabited

/-- One path's shot registers (Table 6.8). -/
structure ShotPath where
  /-- The next pair's number (R209). -/
  pairNo : Nat := 0
  /-- LAST_PAIR.RESULT (11), PWR_UP, PWR_DN (8 each). -/
  lastPair : Nat := 0
  pwrUp : Nat := 0
  pwrDn : Nat := 0
  /-- DT_RAW, signed 48 bits. -/
  dtRaw : Int := 0
  /-- ZERO_OFS, signed 32 bits, AON (R224). -/
  zeroOfs : Int := 0
  /-- PLUMB_E, signed 32 bits. -/
  plumbE : Int := 0
  /-- PLUMB_COUNT.APPLIED. -/
  plumbApplied : Half := 0
  /-- PLUMB_COUNT.SKIPPED. -/
  plumbSkipped : Half := 0
  /-- A plumb pair is due with the next pair (R225). -/
  plumbDue : Bool := false
  /-- The tick of the last plumb result (R222). -/
  plumbAt : Nat := 0
  /-- RETRY_COUNT, REJECT_COUNT.NOISE, OTHER, CYCLE_COUNT.SUSPECT, REPAIRED, NO_ECHO_COUNT, PWR_WARN_COUNT. -/
  retries : Half := 0
  noise : Half := 0
  other : Half := 0
  cycleSuspect : Half := 0
  cycleRepaired : Half := 0
  noEcho : Half := 0
  pwrWarns : Half := 0
  /-- Consecutive cycle-slip outcomes (CYCLE_PERSIST). -/
  cycleRun : Nat := 0
  /-- Consecutive noise outcomes (NOISE_PERSIST). -/
  noiseRun : Nat := 0
  deriving DecidableEq, Repr, Inhabited

/-- SHOT block: both engines (Tables 6.7 and 6.8). -/
structure Shot where
  /-- The registers of both paths (Table 6.8). -/
  paths : Vector ShotPath 2 := Vector.replicate 2 {}
  /-- The pair in progress. -/
  run : Option PairRun := none
  /-- The SHOT_PAIR jobs of the shot events whose FLOW jobs have not ended; a FLOW job stands for its trigger-0 event
  (R207, R208, R264). -/
  evals : List ShotEval := []
  /-- The tick at which the last direction ended (R207). -/
  dirEndAt : Nat := 0
  /-- PERIOD, 14 bits, ms, and the period from the next trigger on (R211). -/
  per : Nat := 0
  perNext : Nat := 0
  /-- The jitter of the next trigger-0 instant, in ticks (R210). -/
  jitter : Nat := 0
  /-- SEQ_STATUS.EMPTY, NO_VALID, THROTTLED. -/
  empty : Bool := false
  noValid : Bool := false
  throttled : Bool := false
  /-- Consecutive evaluations of the period loop on a bound (R4). -/
  clampRun : Nat := 0
  /-- LOOP_FLAGS.LOOP_CLAMPED. -/
  clamped : Bool := false
  /-- LOOP_FLAGS.AT_MIN. -/
  atMin : Bool := false
  /-- LOOP_FLAGS.AT_MAX. -/
  atMax : Bool := false
  /-- CLAMP_COUNT, 16 bits (R4). -/
  clampCount : Half := 0
  /-- PAIR_COUNT, 32 bits, wrapping. -/
  pairCount : Word := 0
  /-- Consecutive pairs without an echo (R219). -/
  emptyRun : Nat := 0
  /-- Consecutive accepted pairs while EMPTY (R219). -/
  clearRun : Nat := 0
  /-- BRIDGE_RUN, 16 bits. -/
  bridgeRun : Nat := 0
  /-- The last accepted combined flow, and what a bridged record repeats (R220). -/
  qLast : Int := 0
  lastQ : Int := 0
  lastVel : Int := 0
  lastDt : Int := 0
  lastTof : Int := 0
  /-- Combined flows of the accepted pairs, newest last, at most sixteen (R230). -/
  history : List Int := []
  /-- ORIENT and ORIENT_DT. -/
  orientSign : Nat := 0
  orientFwd : Nat := 0
  orientRev : Nat := 0
  orientDt : DWord := 0
  /-- FLOW_RECORD, 64 bytes. -/
  record : List Byte := List.replicate 64 0
  deriving DecidableEq, Repr, Inhabited


/-! ### Temperature and pressure channels (chapter 7) -/

/-- A conversion register: a signed 24-bit code and SETTLED (Table 7.7). -/
structure ConvReg where
  code : Int := 0
  settled : Bool := false
  deriving DecidableEq, Repr, Inhabited

/-- One channel's registers and the values it holds over (Table 7.7, R251). -/
structure Chan where
  /-- CH_STATUS.STAT, 8 bits. -/
  stat : Nat := 7
  /-- FAIL_RUN, 8 bits. -/
  failRun : Nat := 0
  /-- Consecutive NOISY results (NOISE_PERSIST_T). -/
  noisyRun : Nat := 0
  /-- The last OK temperature and resistance since bring-up, none before any. -/
  lastOk : Option (Int × Nat) := none
  /-- CONV_A. -/
  convA : ConvReg := {}
  /-- CONV_B. -/
  convB : ConvReg := {}
  /-- RES, 32 bits, and TEMP, signed 32 bits. -/
  res : Nat := 0
  temp : Int := 0
  deriving DecidableEq, Repr, Inhabited

/-- The course of one conversion pair (R245, R248). -/
inductive ConvStage where
  | settle | convA | convB
  deriving DecidableEq, Repr, Inhabited

/-- What one input's pair of conversions gave in the set in progress. -/
structure InputRes where
  /-- CODE of conversion A. -/
  a : Int := 0
  /-- CODE of conversion B. -/
  b : Int := 0
  /-- The excitation source reached its compliance limit (Table 7.3, order 2). -/
  limit : Bool := false
  /-- A conversion was abandoned after four counted restarts (R264). -/
  abandoned : Bool := false
  /-- Bridge current in each conversion so far, µA (R255). -/
  ua : List Nat := []
  deriving DecidableEq, Repr, Inhabited

/-- A TEMP_SET or CH_PROBE in progress. Inputs: 0 to 3 channel, 4 reference, 5 bridge. -/
structure TempRun where
  /-- The job that runs. -/
  job : Nat := 0
  probe : Bool := false
  /-- The inputs still to measure, the present one first. -/
  plan : List Nat := []
  /-- The stage of the present conversion, and the count of D04 before which it cannot end (R245, R248). -/
  stage : ConvStage := .settle
  dueAt : Nat := 0
  /-- Counted restarts of the present conversion, and the trigger-0 group counted last (R264). -/
  groups : Nat := 0
  lastGroup : Option Nat := none
  /-- The codes taken so far. -/
  res : Vector InputRes 6 := Vector.replicate 6 {}
  /-- DT at the start of the first conversion (SET_DT). -/
  setDt : Option DWord := none
  /-- The flow record before the dispatch has none of the flags of R253. -/
  flowOk : Bool := false
  /-- The set measures the reference (R254). -/
  refChecked : Bool := false
  /-- The configuration in force at the dispatch (R265). -/
  cfg : TempItems := {}
  deriving DecidableEq, Repr, Inhabited

/-- TEMP block (Table 7.7). -/
structure Temp where
  /-- The four channels. -/
  ch : Vector Chan 4 := Vector.replicate 4 {}
  /-- The set or probe in progress. -/
  run : Option TempRun := none
  /-- TEMP_STATUS.SWAPPED and REF_FAIL. -/
  swapped : Bool := false
  refFail : Bool := false
  /-- SET_COUNT, 16 bits, and the set number of Table 7.4. -/
  sets : Half := 0
  setSeq : Half := 0
  /-- RESTART_COUNT, 16 bits. -/
  restarts : Half := 0
  /-- SWAP_RUN NEG and POS, 8 bits each. -/
  neg : Byte := 0
  pos : Byte := 0
  /-- REF_DEV, signed 16 bits. -/
  refDev : Int := 0
  /-- Sets until the next reference check; 0 makes it due (R254). -/
  refLeft : Nat := 0
  /-- PB_CONV_A. -/
  pbA : ConvReg := {}
  /-- PB_CONV_B. -/
  pbB : ConvReg := {}
  /-- PB_I, 12 bits; PRESSURE, 32 bits; the last OK pressure and the run of failed results (R256). -/
  pbUa : Nat := 0
  pressure : Nat := 0
  /-- The last OK pressure. -/
  lastP : Option Nat := none
  /-- The run of failed pressure results (R256). -/
  pFail : Nat := 0
  /-- LAST_RECORD, 64 bytes. -/
  record : List Byte := List.replicate 64 0
  /-- The granule of the current record (R257). -/
  current : Option Nat := none
  deriving DecidableEq, Repr, Inhabited

/-! ### Integration (chapter 8) -/

/-- An accumulator with its fraction (R272). -/
structure Acc where
  /-- Integer part, 64 bits. -/
  int : Nat := 0
  /-- Fraction, 32 bits, in 2^−32 units. -/
  frac : Nat := 0
  deriving DecidableEq, Repr, Inhabited

/-- The open window of the maxima (R284). -/
structure MaxWindow where
  /-- A window is open. -/
  isOpen : Bool := false
  /-- Its start. -/
  start : Nat := 0
  /-- Its end. -/
  stop : Nat := 0
  /-- Its tick sum w. -/
  ticks : Nat := 0
  /-- Its volume increments. -/
  sumV : Nat := 0
  /-- Its heat increments. -/
  sumE : Nat := 0
  /-- Its cooling increments. -/
  sumC : Nat := 0
  /-- A step in it does not count for the maxima. -/
  bad : Bool := false
  deriving DecidableEq, Repr, Inhabited

/-- One AON copy of the integrator state (R286). -/
structure IntegCopy where
  /-- The step count that orders the copies. -/
  count : Nat := 0
  /-- VOL_FWD with VOL_FWD_FRAC. -/
  volFwd : Acc := {}
  /-- VOL_REV with VOL_REV_FRAC. -/
  volRev : Acc := {}
  /-- HEAT with HEAT_FRAC. -/
  heat : Acc := {}
  /-- COOL with COOL_FRAC. -/
  cool : Acc := {}
  /-- GAS_BASE with GAS_BASE_FRAC. -/
  gasBase : Acc := {}
  /-- ERR_VOL with ERR_VOL_FRAC. -/
  errVol : Acc := {}
  /-- Times in D04 ticks, 64 bits each. -/
  operTime : Nat := 0
  errTime : Nat := 0
  bridgeTime : Nat := 0
  emptyTime : Nat := 0
  heldTime : Nat := 0
  /-- FLOW_MAX, POWER_MAX, COOL_MAX, 32 bits, and their DTs. -/
  flowMax : Nat := 0
  flowMaxDt : Nat := 0
  powerMax : Nat := 0
  powerMaxDt : Nat := 0
  coolMax : Nat := 0
  coolMaxDt : Nat := 0
  /-- The window of the maxima. -/
  win : MaxWindow := {}
  /-- LAST_TICK, 32 bits, and LAST_PAIR_DT, 64 bits. -/
  lastTick : Nat := 0
  lastPairDt : Nat := 0
  /-- TQ[0 to 7] (R306). -/
  tq : Vector Acc 8 := Vector.replicate 8 {}
  /-- The copy's CRC-32 (R286). -/
  crc : Word := 0x20E29AE1#32
  deriving DecidableEq, Repr, Inhabited

/-- What a step takes from its flow and temperature records, kept for the split of R278 and the conditions of R304. -/
structure StepValues where
  /-- Flow, mL/h. -/
  q : Int := 0
  /-- Supply temperature, m°C. -/
  ts : Int := 0
  /-- Return temperature, m°C. -/
  tr : Int := 0
  /-- Gas temperature, m°C. -/
  tGas : Int := 0
  /-- Pressure. -/
  pressure : Nat := 0
  /-- Power, mW. -/
  power : Int := 0
  deriving DecidableEq, Repr, Inhabited

/-- INTEG block (Table 8.7). -/
structure Integ where
  /-- The two AON copies and which one is newest (R286). -/
  copies : Vector IntegCopy 2 := Vector.replicate 2 {}
  /-- The newest of the two copies. -/
  newest : Nat := 0
  /-- INT_STATUS. -/
  error : Bool := false
  firstPending : Bool := true
  cause : Nat := 0
  /-- STEP_COUNT, 32 bits, wrapping; LAST_FLAGS, 15 bits. -/
  steps : Word := 0
  lastFlags : Nat := 0
  /-- POWER, signed 32 bits; HEATCOEF, CONV_FACTOR, WIN_AVG_FLOW, WIN_AVG_POWER, 32 bits each. -/
  power : Int := 0
  heatCoef : Nat := 0
  convFactor : Nat := 0
  winAvgFlow : Nat := 0
  winAvgPower : Nat := 0
  /-- SHADOW. -/
  shadowCopy : Nat := 0
  diverge : Bool := false
  lost : Bool := false
  /-- The values of the last step since bring-up. -/
  last : Option StepValues := none
  /-- ERR_TIME ticks grown since the last NORMAL step (R289). -/
  errRun : Nat := 0
  /-- The D04 count since bring-up at the last reseat unlock not yet bridged (R278). -/
  unlock : Option Nat := none
  /-- FLAGS of the load-profile interval in progress (Table 10.8). -/
  lpFlags : Nat := 0
  /-- Seconds of time sets since the last step, in DT units (R284's clock-quality code 2, log 9, DEDUCED). -/
  stepSum : Nat := 0
  deriving DecidableEq, Repr, Inhabited

/-! ### Tariff calendar, billing and tamper recorder (chapter 9) -/

/-- An AON snapshot slot (R313). -/
structure SnapSlot where
  /-- The snapshot, 208 bytes; empty where the slot is. -/
  bytes : List Byte := []
  /-- Its CRC-32. -/
  crc : Word := 0
  /-- Its SNAP_SEQ. -/
  seq : Nat := 0
  /-- JOURNALED. -/
  journaled : Bool := true
  deriving DecidableEq, Repr, Inhabited

/-- What the calendar last gave (BILL_STATUS). -/
structure CalState where
  /-- BILL_STATUS.TARIFF. -/
  tariff : Nat := 0
  /-- BILL_STATUS.DECIDED_BY. -/
  by_ : Nat := 0
  /-- BILL_STATUS.SEASON. -/
  season : Nat := 0
  /-- BILL_STATUS.PROFILE. -/
  profile : Nat := 0
  /-- BILL_STATUS.DST. -/
  dst : Bool := false
  deriving DecidableEq, Repr, Inhabited

/-- What a billing commit replaced, put back where its BILL_COMMIT is rolled back (R132, R324). -/
structure SnapUndo where
  /-- The BILL_COMMIT job. -/
  job : Nat := 0
  slots : Vector SnapSlot 2 := Vector.replicate 2 {}
  newest : Nat := 0
  snapSeq : Nat := 0
  lastKey : Nat := 0xFFFFFFFF
  due : Option (Nat × Nat) := none
  reqToday : Nat := 0
  reqDay : Nat := 0
  lost : Half := 0
  /-- TAMPER_SEEN. -/
  seen : Nat := 0
  /-- FLOW_MAX, POWER_MAX and COOL_MAX, each with its DT. -/
  flowMax : Nat × Nat := (0, 0)
  powerMax : Nat × Nat := (0, 0)
  coolMax : Nat × Nat := (0, 0)
  deriving DecidableEq, Repr, Inhabited

/-- BILL block (Table 9.9). -/
structure Bill where
  /-- BILL_STATUS as last evaluated; none before the first evaluation of a start. -/
  cal : Option CalState := none
  /-- NEXT_SWITCH_DT. -/
  nextSwitch : Nat := 0
  /-- The debounced TAR_IN (EXT_IN). -/
  extIn : Bool := false
  /-- The D04 count of its last change. -/
  extAt : Nat := 0
  /-- TARIFF_FORCE, 4 bits, and FORCE_UNTIL, 64 bits. -/
  force : Nat := 0
  forceUntil : Nat := 0
  /-- The two AON snapshot slots. -/
  slots : Vector SnapSlot 2 := Vector.replicate 2 {}
  /-- SNAP_STATUS.NEWEST. -/
  newest : Nat := 0
  /-- SNAP_SEQ and LAST_BILL_KEY, AON. -/
  snapSeq : Nat := 0
  lastKey : Nat := 0xFFFFFFFF
  /-- On-demand snapshots of the governor day (REQ_TODAY) and that day. -/
  reqToday : Nat := 0
  reqDay : Nat := 0
  /-- BILL_LOST, 16 bits. -/
  lost : Half := 0
  /-- KEY and SKIPPED of the monthly snapshot whose event 5 is out (R310). -/
  due : Option (Nat × Nat) := none
  /-- What a rollback of the commit puts back, while its BILL_COMMIT has not completed (R132, R324). -/
  before : Option SnapUndo := none
  /-- SNAP_REQUEST jobs that waited when a snapshot with SKIPPED ≠ 0 was committed (R324). -/
  flagged : List Nat := []
  deriving DecidableEq, Repr, Inhabited

/-- One tamper source (R317). -/
structure TamperSrc where
  isOpen : Bool := false
  /-- S_STATUS.COUNT, 16 bits. -/
  count : Half := 0
  /-- FIRST_DT. -/
  firstDt : Nat := 0
  /-- LAST_DT. -/
  lastDt : Nat := 0
  /-- LAST_DUR, 32 bits. -/
  lastDur : Nat := 0
  /-- TOTAL_DUR, 32 bits. -/
  totalDur : Nat := 0
  /-- DETAIL, 32 bits. -/
  detail : Nat := 0
  /-- The tick of the opening. -/
  openTick : Nat := 0
  deriving DecidableEq, Repr, Inhabited

/-- A debounced input: its level, the raw level and the first sample of the raw run (R318). -/
structure DebInput where
  /-- The debounced level. -/
  level : Bool := false
  /-- The level at the pin. -/
  raw : Bool := false
  /-- The tick of its last change. -/
  sinceTick : Nat := 0
  /-- DT of its last change. -/
  sinceDt : Nat := 0
  deriving DecidableEq, Repr, Inhabited

/-- A tamper opening or closing whose record waits in AON (R322). -/
structure TamperEvent where
  /-- The source. -/
  source : Nat := 0
  /-- Opening or closing. -/
  kind : Nat := 0
  /-- COUNT. -/
  count : Nat := 0
  /-- DT. -/
  dt : Nat := 0
  /-- Duration. -/
  duration : Nat := 0
  /-- Detail. -/
  detail : Nat := 0
  /-- TAMPER_SEQ. -/
  seq : Nat := 0
  deriving DecidableEq, Repr, Inhabited

/-- TAMPER block (Table 9.10), AON. -/
structure Tamper where
  src : Vector TamperSrc 6 := Vector.replicate 6 {}
  /-- ACK_PENDING, 6 bits. -/
  ack : Nat := 0
  /-- MAG_IN and CASE_IN. -/
  mag : DebInput := {}
  case_ : DebInput := {}
  /-- The debounced levels of PLS1 and PLS2. -/
  pls : Vector Bool 2 := Vector.replicate 2 false
  /-- The D04 count of each one's last change. -/
  plsAt : Vector Nat 2 := Vector.replicate 2 0
  /-- PULSE1, PULSE2 and REF_VOL, 64 bits each. -/
  pulse : Vector Nat 2 := Vector.replicate 2 0
  refVol : Nat := 0
  /-- The tick of each input's last pulse. -/
  pulseAt : Vector (Option Nat) 2 := Vector.replicate 2 none
  /-- TAMPER_SEQ, 32 bits; DUR_UNKNOWN, TAMPER_DROP, 16 bits. -/
  seq : Word := 0
  durUnknown : Half := 0
  drop : Half := 0
  /-- The 16-event AON queue, oldest first. -/
  queue : List TamperEvent := []
  /-- The live state failed its check and is to be rebuilt from the tamper stream at the mount (R331). -/
  stateBad : Bool := false
  /-- Sources opened since the previous snapshot (TAMPER_SEEN). -/
  seen : Nat := 0
  /-- REVERSE: growth of VOL_REV of the present run, 2^−32 nL, and ticks without REVERSE (Table 9.4). -/
  revSum : Nat := 0
  revClear : Nat := 0
  /-- LEAK: ticks of the present run. -/
  leakRun : Nat := 0
  /-- The bypass window: its tick, REF_VOL and own volume at its start, and the shortfall of the last, nL. -/
  bypAt : Nat := 0
  bypRef : Nat := 0
  bypOwn : Nat := 0
  bypShort : Nat := 0
  deriving DecidableEq, Repr, Inhabited
/-! ### Dexul journal (chapter 10) -/

/-- What mount knows of a data sector (R356). -/
inductive SectorUse where
  | dirty | erased | inUse (sseq : Nat)
  deriving DecidableEq, Repr, Inhabited

/-- One data sector that is not retired. -/
structure Sector where
  /-- Its number. -/
  idx : Nat := 0
  /-- Its use. -/
  use : SectorUse := .dirty
  /-- Its erase count (R335). -/
  eraseCount : Option Nat := none
  deriving DecidableEq, Repr, Inhabited

/-- A committed page in the index, oldest commit first; a copy stands later than its original. -/
structure PageRef where
  /-- The record's stream. -/
  stream : Nat := 0
  /-- Its SSEQ. -/
  seq : Nat := 0
  /-- Its page address. -/
  addr : Nat := 0
  deriving DecidableEq, Repr, Inhabited

/-- The page in the AON pending slot (R346). -/
structure PendingPage where
  /-- The page's bytes. -/
  image : List Byte := []
  /-- Its address. -/
  addr : Nat := 0
  /-- The slot's CRC-32 matches its content. -/
  crcOk : Bool := true
  /-- The jobs that share the page (R345); none for a rewrite after a start. -/
  jobs : List Nat := []
  /-- It waits for VBAT to be rewritten (R350). -/
  waitVbat : Bool := false
  /-- It waits for the core to resume, or for its rollback, to be rewritten (R349). -/
  waitResume : Bool := false
  /-- It is a rewrite that REWRITE_COUNT counts at its commit (R350, R356). -/
  counted : Bool := false
  deriving DecidableEq, Repr, Inhabited

/-- The flash operation in progress or asked for, or what a page write waits for instead (Table 10.10). -/
inductive FlashOpSt where
  | none
  /-- Bytes programmed from an address on. -/
  | program (addr : Nat) (bytes : List Byte)
  /-- A 4 KiB sector erased. -/
  | erase (sector : Nat)
  /-- The body of the pending page reads back as it was meant to; the page waits for the journal-commit lock (step 5). -/
  | lock
  /-- COMMIT_SETTLE_US runs (step 6). -/
  | settle
  deriving DecidableEq, Repr, Inhabited

/-- What ends a housekeeping job: a reclaim or relocation, or a refresh by age or of one page (R359, R361, R362). -/
inductive HouseKind where
  | reclaim | refresh (age : Bool)
  deriving DecidableEq, Repr, Inhabited

/-- One step of the work that the flash interface has still to do (chapter 10; R48 for a staging). A step asks for one flash
operation or none, and puts the steps that follow from it before the others. -/
inductive FlashTask where
  /-- A data sector erased; its erase stamp programmed, with its count; the whole sector read back (R340, R359). -/
  | erase (sector : Nat)
  | stamp (sector count : Nat)
  | stamped (sector : Nat)
  /-- A write sector allocated by its stamp, and the stamp read back (R340, R358). -/
  | alloc
  | allocated (sector : Nat)
  /-- STATE of a page programmed to 0x00; a torn page is counted (R352). -/
  | void (addr : Nat) (torn : Bool)
  /-- The pending page put at the write position; the same with REWRITE set, counted by REWRITE_COUNT or not (R348 to R350,
  R356); its body read back; COMMIT programmed (Table 10.10 steps 3 to 6). -/
  | place
  | rewrite (counted : Bool)
  | verify
  | settle
  /-- A page copied forward (R359). -/
  | copy (page : PageRef)
  /-- A sector whose kept pages are copied forward and that is then retired (R359, R363). -/
  | retire (sector : Nat)
  | retired (sector : Nat)
  /-- The defect table appended to a copy (R363). -/
  | defect (copy : Nat)
  /-- The end of a housekeeping job, and the page of a WRITE that has reclaimed inline (R358). -/
  | house (kind : HouseKind)
  | write
  /-- The mount: the defect table, the scan, the pending slot, the summary event and the end, with the SEQ of the summary and
  the milliseconds that the reads take (R356, R363). -/
  | tables
  | scan
  | pending
  | summary (ms : Nat)
  | mounted (ms : Nat) (seq : Option Nat)
  /-- A staging: a sector of the standby copy erased, bytes programmed page by page, and the copy read back and verified
  (R48). -/
  | blank (sector : Nat)
  | programs (addr : Nat) (bytes : List Byte)
  | staged (job : Nat)
  deriving DecidableEq, Repr, Inhabited

/-- JOURNAL block (Table 10.14). -/
structure Journal where
  /-- JRN_STATUS.MOUNTED. -/
  mounted : Bool := false
  /-- JRN_STATUS.PWR: NV_PWR is on. -/
  pwr : Bool := false
  /-- JRN_STATUS.DPD. -/
  dpd : Bool := false
  /-- JRN_STATUS.IO, 2 bits: the read mode in use; and the clock of D22, MHz (R336). -/
  io : Nat := 0
  mhz : Nat := 0
  /-- What the SFDP table declares (R336, R338): dual and quad output reads, the highest clock in MHz, and the longest page
  program in µs and sector erase in ms, none where it declares none. -/
  dual : Bool := false
  quad : Bool := false
  sfdpMhz : Nat := 0
  progUs : Nat := 0
  eraseMs : Option Nat := none
  /-- FLASH_ID, 24 bits. -/
  flashId : Nat := 0
  /-- Flash size in bytes by its SFDP table, and whether it meets R333. -/
  size : Nat := 0
  /-- The flash meets R333. -/
  supported : Bool := true
  /-- The flash operation in progress, the steps that follow it, the job they are for, the pages that job has copied
  forward, and whether the flash reported the last operation as failed. -/
  op : FlashOpSt := .none
  work : List FlashTask := []
  job : Option Nat := none
  copied : Nat := 0
  opFail : Bool := false
  /-- KEEP_PAGES of each stream in effect: those of the last mount or reclaim (R372). -/
  keep : List Nat := []
  /-- The pending slot, AON (R346). -/
  pend : Option PendingPage := none
  /-- The data sectors. -/
  sectors : List Sector := []
  /-- The mounted records of each stream. -/
  index : List PageRef := []
  /-- Sectors of the defect table, oldest retirement first, its generation and DIVERGE (R363). -/
  defects : List Nat := []
  /-- The defect table's generation (R363). -/
  defectGen : Nat := 0
  /-- DIVERGE of the defect table (R363). -/
  diverge : Bool := false
  /-- The write sector and its next page (WRITE_POS). -/
  wsector : Option Nat := none
  wpage : Nat := 0
  /-- Bytes whose program or erase was cut off: address, the bits that read 1, and those that may (R351, R370). -/
  unstable : List (Nat × Byte × Byte) := []
  /-- Last mount: milliseconds, torn pages voided, header failures, and whether the pending page was rewritten. -/
  mountMs : Nat := 0
  mountTorn : Nat := 0
  mountHdr : Nat := 0
  mountRewrote : Bool := false
  /-- WEAR_LOOP (R361). -/
  reloc : Nat := 0
  clampRun : Nat := 0
  clamped : Bool := false
  clampCount : Half := 0
  atMin : Bool := false
  atMax : Bool := false
  /-- TORN_COUNT, CHECK_FAIL_COUNT, 16 bits each. -/
  torn : Half := 0
  checkFail : Half := 0
  /-- CORRECTED_BITS, 32 bits. -/
  corrected : Word := 0
  /-- REFRESH_COUNT BITS and AGE, 16 bits each. -/
  refreshBits : Half := 0
  refreshAge : Half := 0
  /-- RECLAIM_COUNT, REWRITE_COUNT, KEEP_SHORT, DUP_DIVERGE_COUNT, 16 bits each. -/
  reclaims : Half := 0
  rewrites : Half := 0
  keepShort : Half := 0
  dupDiverge : Half := 0
  /-- The newest SEQ committed of each stream. -/
  heads : Vector Nat 8 := Vector.replicate 8 0
  /-- A WRITE, or the operation in progress, waits for VBAT above FLASH_MIN + 100 mV (R80). -/
  waitVbat : Bool := false
  /-- Sectors whose page program has failed and that are still to be retired (R359). -/
  failing : List Nat := []
  /-- The D04 ticks of the last flash access, of the earliest access after NV_PWR came on (R337), and at which the operation
  or the settle in progress began (R338, R348). -/
  accessAt : Nat := 0
  readyAt : Nat := 0
  opAt : Nat := 0
  /-- The tick of the MOUNT in progress, and the D04 tick at which VBAT was last known not to stand above FLASH_MIN + 100 mV
  (R350). -/
  mountAt : Nat := 0
  vbatLowAt : Nat := 0
  /-- A cold start's restoration is still to follow the mount (R357). -/
  restoreDue : Bool := false
  deriving DecidableEq, Repr, Inhabited


/-! ### Radio (chapter 11) -/

/-- What a radio activity is for. -/
inductive ActKind where
  | none | send | probe | slotTx | slotRx | window | answer | sniff | test
  deriving DecidableEq, Repr, Inhabited

/-- How far an activity has come (Table 11.5, R391). -/
inductive ActPhase where
  | startUp | lbt | backoff | onAir
  deriving DecidableEq, Repr, Inhabited

/-- The activity the transceiver carries (R376). -/
structure Activity where
  /-- The radio activity in progress (RF_STATUS.ACTIVITY). -/
  kind : ActKind := .none
  /-- Its phase. -/
  phase : ActPhase := .startUp
  /-- The job it belongs to, where one does. -/
  job : Option Nat := Option.none
  /-- Its port. -/
  port : Nat := 0
  /-- Profile F is in force, and the transmit power. -/
  profF : Bool := false
  txp : Int := 0
  /-- Listens made before the transmission (R391). -/
  tries : Nat := 0
  /-- A synchronisation word has been detected (R389), and the listen of a sniff has been extended (R401). -/
  sync : Bool := false
  extended : Bool := false
  /-- A frame of the listen failed its coding or CRC (R390). -/
  bad : Bool := false
  /-- The bits of the Gyale frame that it sends (R416). -/
  bits : List Bool := []
  /-- The tick at which its phase began. -/
  since : Nat := 0
  /-- The tick at which a window opens (R398). -/
  opens : Nat := 0
  /-- Its estimated end, and a window's own (R376, R398). -/
  until_ : Nat := 0
  deriving DecidableEq, Repr, Inhabited

/-- A job in one of the four contexts (R375). -/
structure RadioCtx where
  /-- The job that waits for the radio. -/
  job : Nat := 0
  /-- Its activity. -/
  kind : ActKind := .send
  /-- The tick at which its activity's start-up begins, once known. -/
  at_ : Option Nat := none
  /-- Its estimated length in ticks (R376). -/
  len : Nat := 0
  /-- It has been tried again. -/
  retried : Bool := false
  /-- It has begun. -/
  started : Bool := false
  /-- The telegram is a wake response (R402). -/
  wake : Bool := false
  /-- Its template. -/
  template : Nat := 0
  /-- Its key slot. -/
  slot : Nat := 0
  /-- Windows opened, a command accepted, and a frame abandoned in a window. -/
  windows : Nat := 0
  accepted : Bool := false
  interfered : Bool := false
  /-- Profile F was in force at its start-up (R409). -/
  profF : Bool := false
  /-- The opening of the receive window that follows its last telegram (R398). -/
  winAt : Option Nat := none
  /-- The instant of the answer to the command its window accepted, and what the answer carries: the reply, or the
  completion record of a queue and SEQ (R400). -/
  answerAt : Option Nat := none
  answer : List Byte := []
  answerJob : Option (Nat × Nat) := none
  /-- The telegram that the chip itself has built for it: a probe's, or an answer (R381, R400). -/
  frame : List Byte := []
  deriving DecidableEq, Repr, Inhabited

/-- A peer entry (R397). -/
structure Peer where
  /-- PEER.USED. -/
  used : Bool := false
  /-- PEER.ADDR. -/
  addr : List Byte := List.replicate 8 0
  /-- PEER.SLOT, 5 bits. -/
  slot : Nat := 0
  /-- PEER.CTR, 32 bits. -/
  ctr : Nat := 0
  deriving DecidableEq, Repr, Inhabited

/-- A radio command held for one frame time (R437). -/
structure HeldCmd where
  /-- 0x04 or 0x05. -/
  master : Nat := 4
  /-- Its role. -/
  role : Nat := 4
  /-- Its key slot. -/
  slot : Nat := 0
  /-- The message. -/
  msg : List Byte := []
  /-- The tick of its arrival and the tick its hold ends. -/
  at_ : Nat := 0
  until_ : Nat := 0
  /-- The originator of a mesh command. -/
  orig : List Byte := []
  /-- The SEND whose window took it. -/
  job : Option Nat := none
  deriving DecidableEq, Repr, Inhabited

/-- RADIO block (Table 11.8). -/
structure Radio where
  /-- The jobs that wait for the radio (at most eight; RF_STATUS.CONTEXTS). -/
  ctxs : List RadioCtx := []
  /-- The activity in progress. -/
  act : Activity := {}
  /-- RF_STATUS.LOCKED. -/
  locked : Bool := false
  /-- Watch state and its runs, AON (R381). -/
  watch : Nat := 0
  bad : Nat := 0
  good : Nat := 0
  /-- TXP of both ports (R380). -/
  txp : Vector Int 2 := Vector.replicate 2 14
  /-- RL_LAST.RL. -/
  rlLast : Nat := 0
  /-- RSSI_LAST, 0.5 dBm. -/
  rssiLast : Int := 0
  /-- Runs of R4 and LOOP_FLAGS of the power loop and the watch. -/
  runPower : Vector Nat 2 := Vector.replicate 2 0
  runWatch : Nat := 0
  clampedPower : Vector Bool 2 := Vector.replicate 2 false
  clampedWatch : Bool := false
  clampsPower : Half := 0
  clampsWatch : Half := 0
  /-- LAST_AIR_US, 24 bits; TX_COUNT, 32 bits. -/
  lastAir : Nat := 0
  /-- TX_COUNT, 32 bits. -/
  txCount : Word := 0
  /-- SYNTH_COUNT.TIMEOUT, 16 bits. -/
  synthTimeouts : Half := 0
  /-- SYNTH_COUNT's missed slots, 16 bits. -/
  slotMissed : Half := 0
  /-- RX_COUNT.INTERFERED, 16 bits. -/
  interfered : Half := 0
  /-- RX_COUNT.CRC_FAIL, 16 bits. -/
  crcFail : Half := 0
  /-- SEC_COUNT.MIC_FAIL, 16 bits. -/
  micFail : Half := 0
  /-- SEC_COUNT.REPLAY, 16 bits. -/
  replay : Half := 0
  /-- MISC_COUNT.LBT_BUSY, 16 bits. -/
  lbtBusy : Half := 0
  /-- MISC_COUNT.WIN_REFUSED, 16 bits. -/
  winRefused : Half := 0
  /-- SNIFF_COUNT.WAKES, 16 bits. -/
  wakes : Half := 0
  /-- SNIFF_COUNT.SKIPPED, 16 bits. -/
  skipped : Half := 0
  /-- WATCH_CHANGES, 16 bits, AON. -/
  watchChanges : Half := 0
  /-- TXC and its reservation per key slot, AON (R395, R396). -/
  txc : Vector Nat 24 := Vector.replicate 24 0
  /-- The reservation of TXC per key slot, AON (R396). -/
  txcRes : Vector Nat 24 := Vector.replicate 24 0
  /-- PEER[0 to 7], AON (R397). -/
  peers : Vector Peer 8 := Vector.replicate 8 {}
  /-- Consecutive SYNTH_TIMEOUT endings, and transmissions with low forward power. -/
  synthRun : Nat := 0
  paRun : Nat := 0
  /-- The D04 count of the last due telegram, and whether one has fallen due yet (R394). -/
  dueAt : Nat := 0
  wasDue : Bool := false
  /-- The jitter point of the wake response that is still to be sent (R402). -/
  wakePoint : Option Nat := none
  /-- The tick of the last wake, the wakes of the governor day and that day. -/
  wakeAt : Option Nat := none
  wakesToday : Nat := 0
  wakeDay : Nat := 0
  /-- The tick of the last sniff. -/
  sniffAt : Nat := 0
  /-- The tick of the last watch probe. -/
  probeAt : Nat := 0
  /-- The template, slot and profile of the telegram built last. -/
  builtTpl : Nat := 0
  /-- BUILD jobs that wait for a reservation to commit: job and slot (R396). -/
  waitRes : List (Nat × Nat) := []
  /-- Commands held by R437, oldest first. -/
  held : List HeldCmd := []
  /-- ANT_SW1 and ANT_SW2 (R379). -/
  antSw : Nat := 0
  /-- The radio unit is fenced at the end of the frame in the air (Table 15.4, R480). -/
  fenceAfter : Option FaultSrc := none
  deriving DecidableEq, Repr, Inhabited

/-! ### Gyale link (chapter 12) -/

/-- A frame that waits on a connection: its type, payload before sealing, and the send it belongs to. -/
structure LinkFrame where
  /-- Its type (Table 12.3). -/
  type : Nat := 3
  /-- Its payload before sealing. -/
  payload : List Byte := []
  /-- Its SN once sent. -/
  sn : Option Nat := none
  /-- The times it was sent again. -/
  tries : Nat := 0
  /-- The LINK_SEND it belongs to. -/
  job : Option Nat := none
  /-- A forwarded frame (R434). -/
  fwd : Bool := false
  /-- The tick from which an event that takes it starts (the relay delay, R432). -/
  after_ : Nat := 0
  /-- Its fragment's index in its message. -/
  frag : Nat := 0
  deriving DecidableEq, Repr, Inhabited

/-- A connection (Table 12.9 CONN). -/
structure Conn where
  /-- KIND: 0 free, 1 parent, 2 child, 3 reader. -/
  kind : Nat := 0
  /-- CONN.ADDR. -/
  addr : List Byte := List.replicate 8 0
  /-- CONN.SLEEPY. -/
  sleepy : Bool := false
  /-- CONN.CENTRAL. -/
  central : Bool := false
  /-- CONN.HOP_INC. -/
  hopInc : Nat := 0
  /-- CONN.HOP_BASE. -/
  hopBase : Nat := 0
  /-- CONN.CH_LAST. -/
  chLast : Nat := 0
  /-- INTERVAL: ms for an active, s for a sleepy connection. -/
  interval : Nat := 0
  /-- CONN.EVENT, 16 bits. -/
  event : Half := 0
  /-- CONN.MISSED. -/
  missed : Nat := 0
  /-- CONN.GUARD_US. -/
  guardUs : Nat := 0
  /-- CONN.PEER_PPM. -/
  peerPpm : Nat := 0
  /-- CONN.MAP, 64 bits. -/
  map : Nat := 0
  /-- CONN.SUPERV. -/
  superv : Nat := 0
  /-- The PHY of its frames (R416). -/
  phy : Nat := 0
  /-- The tick of the next event, of the last valid frame, and of the last synchronisation. -/
  nextAt : Nat := 0
  seenAt : Nat := 0
  syncAt : Nat := 0
  /-- The frame sent last, waiting for its ACK. -/
  sent : Option LinkFrame := none
  /-- The frames that wait (CONN.QUEUED). -/
  queue : List LinkFrame := []
  /-- An event is open, a TERM is due in the next one, and a guard listen waits for the peer. -/
  inEvent : Bool := false
  termDue : Option Nat := none
  listening : Bool := false
  /-- The tick at which the present event began, and its instant. -/
  eventAt : Nat := 0
  anchor : Nat := 0
  /-- Event 0 has begun. -/
  begun : Bool := false
  /-- A valid frame has come in the event. -/
  heard : Bool := false
  deriving DecidableEq, Repr, Inhabited

/-- A neighbour entry (R419). -/
structure Neigh where
  /-- The neighbour entry is used (R419). -/
  used : Bool := false
  /-- Its address. -/
  addr : List Byte := List.replicate 8 0
  /-- The last counter accepted. -/
  fcnt : Nat := 0
  /-- The last SN accepted. -/
  sn : Option Nat := none
  /-- The tick of its last use. -/
  at_ : Nat := 0
  deriving DecidableEq, Repr, Inhabited

/-- An originator entry (R422), AON. -/
structure OrigEnt where
  /-- ORIG.USED. -/
  used : Bool := false
  /-- ORIG.ADDR. -/
  addr : List Byte := List.replicate 8 0
  /-- ORIG.SLOT, 5 bits. -/
  slot : Nat := 0
  /-- ORIG.OFCNT, 32 bits. -/
  ofcnt : Nat := 0
  deriving DecidableEq, Repr, Inhabited

/-- A message in reassembly (R422). -/
structure Reasm where
  /-- The originator. -/
  orig : List Byte := []
  /-- The counter of its first fragment. -/
  base : Nat := 0
  /-- The number of fragments. -/
  count : Nat := 1
  /-- The key slot. -/
  slot : Nat := 0
  /-- The next fragment due. -/
  next : Nat := 0
  /-- The bytes so far. -/
  body : List Byte := []
  /-- The tick of the first fragment. -/
  since : Nat := 0
  deriving DecidableEq, Repr, Inhabited

/-- A routed frame that a relay forwards after its delay (R432, R433). -/
structure Forward where
  /-- UPLINK or FLOOD. -/
  uplink : Bool := false
  /-- The frame's payload. -/
  payload : List Byte := []
  /-- The connection it came on. -/
  from_ : Nat := 0
  /-- The tick its relay delay ends. -/
  at_ : Nat := 0
  deriving DecidableEq, Repr, Inhabited

/-- What SCAN knows of a beaconer, and what JOINING waits for (R424, R425). -/
structure Candidate where
  /-- The beaconer's address. -/
  addr : List Byte := []
  /-- Its DEPTH. -/
  depth : Nat := 0
  /-- Its RSSI. -/
  rssi : Int := 0
  /-- Its ROOT. -/
  root : List Byte := []
  /-- The challenge of the request. -/
  chal : List Byte := []
  /-- The tick of the beacon or the request. -/
  at_ : Nat := 0
  /-- The channel of its beacon, and its FLAGS [2] (a reader). -/
  ch : Nat := 0
  reader : Bool := false
  deriving DecidableEq, Repr, Inhabited

/-- A LINK_SEND in progress. -/
structure LinkSend where
  /-- The job. -/
  job : Nat := 0
  /-- The acknowledgments that each fragment still awaits, one per next hop. -/
  need : List Nat := []
  /-- The counter of its first fragment. -/
  first : Nat := 0
  deriving DecidableEq, Repr, Inhabited

/-- An answer to a mesh command. -/
structure OwedAnswer where
  /-- The reply message. -/
  msg : List Byte := []
  /-- The job whose completion record it awaits. -/
  job : Option (Nat × Nat) := none
  deriving DecidableEq, Repr, Inhabited

/-- The flood taken last, its tick and its connection (R445). -/
structure FloodTaken where
  key : List Byte × Nat := ([], 0)
  at_ : Nat := 0
  conn : Nat := 0
  deriving DecidableEq, Repr, Inhabited

/-- LINK block (Table 12.9). -/
structure Link where
  /-- STATE code of Table 12.6. -/
  st : Nat := 0
  /-- LINK_STATUS.PLAN. -/
  planF : Bool := false
  /-- LINK_STATUS.DEPTH. -/
  depth : Nat := 0
  /-- The root's address. -/
  root : List Byte := List.replicate 8 0
  /-- LINK_STATUS.RELAY_PAUSED. -/
  relayPaused : Bool := false
  /-- PARENT_LINK: RSSI (dBm + 150) and MARGIN. -/
  parentRssi : Nat := 0
  margin : Int := 0
  /-- LINK_FCNT and OFCNT with their reservations, AON (R420). -/
  fcnt : Nat := 0
  fcntRes : Nat := 0
  ofcnt : Nat := 0
  ofcntRes : Nat := 0
  /-- RX_OK, 32 bits. -/
  rxOk : Word := 0
  /-- SEC_COUNT.MIC_FAIL, 16 bits. -/
  micFail : Half := 0
  /-- SEC_COUNT.REPLAY, 16 bits. -/
  replay : Half := 0
  /-- DUP_COUNT, repeated SNs, 16 bits. -/
  dupSn : Half := 0
  /-- DUP_COUNT, messages already seen, 16 bits. -/
  seenDrop : Half := 0
  /-- RELAY_COUNT, 16 bits. -/
  relayed : Half := 0
  /-- RELAY_COUNT, messages at TTL 0, 16 bits. -/
  ttlEnd : Half := 0
  /-- DROP_COUNT, no route, 16 bits. -/
  noRoute : Half := 0
  /-- DROP_COUNT, child queue full, 16 bits. -/
  childQDrop : Half := 0
  /-- CONN_COUNT, connections lost, 16 bits. -/
  connLost : Half := 0
  /-- CONN_COUNT, slots missed, 16 bits. -/
  slotMissed : Half := 0
  /-- MSG_COUNT, reassemblies lost, 16 bits. -/
  reasmFail : Half := 0
  /-- MSG_COUNT, command conflicts, 16 bits. -/
  cmdConflict : Half := 0
  /-- CRC_ENERGY, CRC failures, 16 bits. -/
  crcFail : Half := 0
  /-- CRC_ENERGY, events skipped for energy, 16 bits. -/
  energySkip : Half := 0
  /-- CONN[0 to 15] (R423). -/
  conns : Vector Conn 16 := Vector.replicate 16 {}
  /-- ORIG[0 to 7], AON (R422). -/
  orig : Vector OrigEnt 8 := Vector.replicate 8 {}
  /-- The neighbour table, 32 entries (R419). -/
  neigh : Vector Neigh 32 := Vector.replicate 32 {}
  /-- The seen-message cache, oldest first, at most 64. -/
  seen : List (List Byte × Nat) := []
  /-- Messages in reassembly (R422). -/
  reasm : List Reasm := []
  /-- Routed frames that wait for their relay delay (R432). -/
  fwds : List Forward := []
  /-- The best beacon of the scan (R424). -/
  best : Option Candidate := none
  /-- The request that is out (R425), and the tick of D07 since when one waits for its challenge (R472). -/
  join : Option Candidate := none
  reqWait : Option Nat := none
  /-- The tick at which SCAN or JOINING began without reaching CONNECTED since, that of the next listen, and that of the
  last beacon. -/
  lostSince : Nat := 0
  scanAt : Nat := 0
  /-- The advertising channel of the listen. -/
  scanCh : Nat := 0
  beaconAt : Nat := 0
  /-- The SN of the next beacon. -/
  beaconSn : Byte := 0
  /-- LINK_SEND jobs in progress. -/
  sends : List LinkSend := []
  /-- Answers to mesh commands that wait to be sent as UPLINK messages: the bytes, or the queue and SEQ of the job whose
  completion record they are. -/
  owed : List OwedAnswer := []
  /-- The frame given to the radio last, sealed. -/
  lastTx : List Byte := []
  /-- The next SN to each neighbour, the newest last (R420). -/
  txSn : List (List Byte × Byte) := []
  /-- A change of plan is under way: TERMs go out, and SCAN follows (R435). -/
  planChange : Bool := false
  /-- Messages given up and counted in REASM_FAIL: originator, slot and base (R422). -/
  given : List (List Byte × Nat × Nat) := []
  /-- The flood taken last (R445). -/
  lastFlood : Option FloodTaken := none
  deriving DecidableEq, Repr, Inhabited
/-! ### Quoin: cipher engine, key slots, random source (chapter 13) -/

/-- One key slot, held in AON (R458, R459). The key is never readable (R449). -/
structure Slot where
  /-- FULL, 1 bit. -/
  full : Bool := false
  /-- ERASED, 1 bit. -/
  erased : Bool := false
  /-- LOADING, 1 bit. -/
  loading : Bool := false
  /-- CHECK_FAIL, 1 bit. -/
  checkFail : Bool := false
  /-- The key, 16 bytes. -/
  key : List Byte := []
  /-- Its two CMAC subkeys, 16 bytes each, and the CRC-32 over key, subkeys and attributes (R459). -/
  sub1 : List Byte := []
  sub2 : List Byte := []
  crc : Word := 0
  /-- Its attributes (Table 13.3). -/
  attr : SlotAttr := {}
  /-- SLOT_STATE.GEN, 16 bits. -/
  gen : Half := 0
  deriving DecidableEq, Repr, Inhabited

/-- KEYSLOT block (Table 13.11). -/
structure Keys where
  slots : Vector Slot 24 := Vector.replicate 24 {}
  /-- Alarm sources latched before the last bring-up reached stage 0x9, 8 bits (R465). -/
  causeOld : Nat := 0
  /-- Alarm sources latched since, 8 bits. -/
  causeNew : Nat := 0
  /-- The DT of the first alarm of each interval. -/
  dtOld : Option DWord := none
  dtNew : Option DWord := none
  /-- ERASE_NS, 12 bits. -/
  eraseNs : Nat := 0
  /-- ALARM_COUNT, 16 bits. -/
  alarms : Half := 0
  /-- LOAD_COUNT and LOAD_FAIL, 16 bits each. -/
  loads : Half := 0
  loadFails : Half := 0
  /-- Slots whose erase compare has not passed yet (R464). -/
  repeatMask : Nat := 0
  deriving DecidableEq, Repr, Inhabited

/-- The mask expander (R473). -/
structure Mask where
  /-- Its state, 256 bits. -/
  seed : BitVec 256 := 0
  /-- MASK_STATUS.SEEDED. -/
  seeded : Bool := false
  /-- Bits output since the last seed. -/
  bits : Nat := 0
  /-- MASK_STATUS.STALE. -/
  stale : Bool := false
  /-- It takes the next conditioned block (Table 13.7). -/
  due : Bool := false
  deriving DecidableEq, Repr, Inhabited

/-- CIPHER block (Table 13.10). -/
structure CipherSt where
  /-- BLOCKS, 32 bits, wrapping. -/
  blocks : Word := 0
  /-- JOBS.S and JOBS.M, 16 bits each. -/
  jobsS : Half := 0
  jobsM : Half := 0
  /-- CHECKS.TAG_FAIL and FI, 16 bits each. -/
  tagFail : Half := 0
  fi : Half := 0
  /-- LAST_CYCLES, 16 bits. -/
  lastCycles : Nat := 0
  /-- The mask expander (R473). -/
  mask : Mask := {}
  deriving DecidableEq, Repr, Inhabited

/-- ENTROPY block (Table 13.12) and the two health tests (R468). -/
structure Entropy where
  /-- ENT_STATUS.RUNNING. -/
  running : Bool := false
  /-- ENT_STATUS.STARTUP_OK. -/
  startupOk : Bool := false
  /-- ENT_STATUS.DEAD. -/
  dead : Bool := false
  /-- The random FIFO: at most four conditioned blocks, the first possibly taken in part (R470, R472). -/
  fifo : List Byte := []
  /-- The tick of D07 at which it last took a block: a consumer's wait for the next one counts from there (R472). -/
  blockAt : Nat := 0
  /-- RAW_COUNT, 32 bits, wrapping. -/
  raw : Word := 0
  /-- FAILS.RCT and APT, 16 bits each. -/
  rct : Half := 0
  apt : Half := 0
  /-- WORST.RUN, 8 bits, and WORST.APT, 11 bits. -/
  worstRun : Nat := 0
  worstApt : Nat := 0
  /-- RESTARTS, 16 bits. -/
  restarts : Half := 0
  /-- COND_BLOCKS, 32 bits, wrapping. -/
  condBlocks : Word := 0
  /-- Health failures of the governor day (R471). -/
  failsToday : Nat := 0
  failDay : Nat := 0
  /-- The repetition test: last bit and run length. -/
  lastBit : Bool := false
  run : Nat := 0
  /-- The proportion test: the window's first bit, its count and the bits seen. -/
  aptBit : Bool := false
  aptCount : Nat := 0
  aptSeen : Nat := 0
  deriving DecidableEq, Repr, Inhabited

/-! ### Roles, dual consent and the audit stream (chapter 14) -/

/-- A challenge that waits for its response (R488, R489). -/
structure Challenge where
  /-- The role asked for. -/
  role : Nat := 4
  /-- The host's nonce. -/
  nh : List Byte := []
  /-- The chip's nonce, AUTH_CHAL. -/
  nc : List Byte := []
  /-- The tick it was given. -/
  at_ : Nat := 0
  deriving DecidableEq, Repr, Inhabited

/-- An AUTH_BEGIN that waits for challenge bytes (R472): its role, host nonce, start and job. -/
structure AuthWait where
  /-- The role asked for. -/
  role : Nat := 4
  /-- The host's nonce. -/
  nh : List Byte := []
  /-- The tick of the request. -/
  since : Nat := 0
  /-- The job that asked, if one did. -/
  job : Option Nat := none
  deriving DecidableEq, Repr, Inhabited

/-- One port's session state (Table 14.8 SESS[p]): 0 service, 1 optical, 2 debug, 3 reader. -/
structure Session where
  isOpen : Bool := false
  /-- SESS.ROLE, 3 bits; 4 is public. -/
  role : Nat := 4
  /-- The tick it opened (SESS.AGE_MIN). -/
  openedAt : Nat := 0
  /-- The tick of its last request (SESS.IDLE_S). -/
  lastAt : Nat := 0
  /-- The challenge that is out. -/
  chal : Option Challenge := none
  /-- A begin that waits for random bytes (R472). -/
  want : Option AuthWait := none
  /-- The nonces of the open session, for its end record. -/
  nc : List Byte := []
  nh : List Byte := []
  /-- Consecutive failures per role code, AON (R492). -/
  fails : Vector Nat 5 := Vector.replicate 5 0
  /-- The tick at which a role's lockout ends, AON. -/
  lockUntil : Vector Nat 5 := Vector.replicate 5 0
  /-- The role last asked for, whose count FAILS and LOCK_S show. -/
  lastRole : Nat := 4
  deriving DecidableEq, Repr, Inhabited

/-- State of a consent entry (Table 14.8). -/
inductive ConsentState where
  | free | proposed | committed | used | expired | withdrawn
  deriving DecidableEq, Repr, Inhabited

/-- STATE code of a consent entry. -/
def ConsentState.code : ConsentState → Nat
  | .free => 0 | .proposed => 1 | .committed => 2 | .used => 3 | .expired => 4 | .withdrawn => 5

/-- A consent entry, AON (R496). -/
structure Consent where
  /-- CONSENT.STATE. -/
  state : ConsentState := .free
  /-- CONSENT.PROPOSER. -/
  proposer : Nat := 0
  /-- CONSENT.SIGNER. -/
  signer : Nat := 0
  /-- CONSENT.ITEMS. -/
  items : Nat := 0
  /-- CONSENT.REF. -/
  ref : Nat := 0
  /-- CONSENT.BASE_SEQ. -/
  baseSeq : Nat := 0
  /-- CONSENT.DIGEST. -/
  digest : List Byte := List.replicate 16 0
  /-- The tick at which its window closes. -/
  until_ : Nat := 0
  deriving DecidableEq, Repr, Inhabited

/-- ROLES block (Table 14.8). -/
structure Roles where
  sess : Vector Session 4 := Vector.replicate 4 {}
  /-- AUTH_CTRL.ROLE, 3 bits. -/
  authRole : Nat := 0
  /-- AUTH_NH, 8 bytes. -/
  authNh : List Byte := List.replicate 8 0
  /-- AUTH_CHAL, 8 bytes. -/
  authChal : List Byte := List.replicate 8 0
  /-- AUTH_RESP, 16 bytes. -/
  authResp : List Byte := List.replicate 16 0
  /-- AUTH_CONF, 8 bytes. -/
  authConf : List Byte := List.replicate 8 0
  /-- AUTH_STATUS.STATE (2), ROLE (3), LAST (8). -/
  authState : Nat := 0
  authRoleNow : Nat := 4
  authLast : Nat := 0
  /-- CONSENT[0 to 3]. -/
  consents : Vector Consent 4 := Vector.replicate 4 {}
  /-- The next consent reference, 32 bits, AON. -/
  nextRef : Nat := 1
  /-- AUDIT_SEQ, 32 bits, AON: the last record's number. -/
  auditSeq : Nat := 0
  /-- The 32-entry AON queue of audit records, oldest first (R500). -/
  auditQueue : List (List Byte) := []
  /-- AUDIT_QUEUE.DROP, 16 bits, AON. -/
  auditDrop : Half := 0
  /-- The tick at which the debug level was installed (R501). -/
  debugSince : Nat := 0
  /-- DEBUG_HOURS has run out (R501). -/
  debugExpired : Bool := false
  deriving DecidableEq, Repr, Inhabited

/-! ### Display (chapter 16) -/

/-- A SEG_CHECK in the run state: it waits for an even frame start, then holds two frames (R556). -/
structure SegCheckRun where
  /-- The job that asked, if one did. -/
  job : Option Nat := none
  /-- It holds its frames. -/
  holding : Bool := false
  /-- The pair that its test finds shorted. -/
  found : Option (Nat × Nat) := none
  deriving DecidableEq, Repr, Inhabited

/-- A render that awaits an even frame start: its lines, its page, and whether it is the fault page (R549). -/
structure PendRender where
  /-- The rendered lines. -/
  lines : Vector Nat 8 := Vector.replicate 8 0
  /-- Its page. -/
  page : Nat := 0
  /-- It is the fault page. -/
  fault : Bool := false
  deriving DecidableEq, Repr, Inhabited

/-- LCD block (Table 16.3). -/
structure Lcd where
  /-- FRAME_COUNT, 32 bits, wrapping; LCD_STATUS.ODD is its lowest bit. -/
  frame : Word := 0
  /-- DRIVE and SHADOW: eight lines of 40 bits each. -/
  drive : Vector Nat 8 := Vector.replicate 8 0
  shadow : Vector Nat 8 := Vector.replicate 8 0
  /-- The tick at which the frame in progress began (R545). -/
  frameAt : Option Nat := none
  /-- LCD_STATUS.PENDING with the render that waits. -/
  pend : Option PendRender := none
  /-- LCD_STATUS.FAULT_SHOWN and PAGE. -/
  faultShown : Bool := false
  page : Nat := 0
  /-- LCD_CTRL.PAGE_SEL, 5 bits, and HOLD. -/
  pageSel : Nat := 0
  hold : Bool := false
  /-- The tick HOLD was set or renewed. -/
  holdAt : Nat := 0
  /-- The page of the scroll, a selected page not yet rendered, and the tick at which its dwell began (R553). -/
  cur : Nat := 0
  dwellAt : Nat := 0
  /-- VLCD.TARGET and MEASURED, mV; a new target waits for an even frame (R551). -/
  target : Nat := 0
  measured : Nat := 0
  nextTarget : Option Nat := none
  /-- T_DIE, m°C, signed 32 bits. -/
  tDie : Int := 0
  /-- UPDATES.LINES and SUPERSEDED, 16 bits each. -/
  lines : Half := 0
  superseded : Half := 0
  /-- SHORT_SEG. -/
  short : Option (Nat × Nat) := none
  /-- The segment check in progress, and that a governor-day roll asks for one (R556). -/
  seg : Option SegCheckRun := none
  segDue : Bool := false
  /-- The source whose fault page the fence writes at the next even frame (R555). -/
  fenceSrc : Option FaultSrc := none
  /-- The drive's own copy of BIAS, FRAME_HZ, INVERT and the VLCD items (R559). -/
  cfg : DisplayItems := {}
  /-- The tick of the last contrast update of this start, and since when VLCD has been measured outside its range (R551). -/
  contrastAt : Option Nat := none
  outSince : Option Nat := none
  deriving DecidableEq, Repr, Inhabited

/-! ### Service, optical and debug ports (chapter 17) -/

/-- State of the optical port (R580). -/
inductive OptState where
  | sleep | wake | opened
  deriving DecidableEq, Repr, Inhabited

/-- A reply still to be built: its TID, CNT and key where its request was tagged, and the request's tick (R577, R579). -/
structure ReplyDue where
  /-- Its TID. -/
  tid : Byte := 0
  /-- CNT and key where its request was tagged. -/
  sec : Option (Nat × List Byte) := none
  /-- The request's tick. -/
  at_ : Nat := 0
  deriving DecidableEq, Repr, Inhabited

/-- PORTS block (Table 17.9). -/
structure Ports where
  /-- SP_STATUS.ACTIVE and LAST. -/
  spActive : Bool := false
  spLast : Nat := 0
  /-- SP_FRAMES, 32 bits, wrapping; SP_ERRORS.CRC and FRAME. -/
  spFrames : Word := 0
  spCrc : Half := 0
  spFrame : Half := 0
  /-- SP_LAST_WRITE. -/
  lwResult : Nat := 0
  lwApplied : Nat := 0
  lwWinner : Nat := 0
  /-- SP_LAST_POP and SP_LAST_POP_Q. -/
  lastPop : List Nat := [0, 0, 0, 0]
  lastPopQ : Option Nat := none
  /-- The D01 mirror: the bytes of the last response (R570). -/
  mirror : List Byte := []
  /-- GRAN_CTRL per master 0 to 5: CMD last written, last granule given, last result (Table 17.9). -/
  granCtl : Vector (Nat × Nat × Nat) 6 := Vector.replicate 6 (0, 0xFF, 0)
  /-- The tick of each master's last access (R573). -/
  access : Vector Nat 6 := Vector.replicate 6 0
  /-- OPT_STATUS.STATE and RATE; a rate agreed and not yet switched to (R580). -/
  opt : OptState := .sleep
  rate : Nat := 0
  newRate : Option Nat := none
  /-- The tick since which the optical state holds: of SLEEP, of WAKE, or of the last valid frame. -/
  optAt : Nat := 0
  /-- OPT_FRAMES.RX and TX, OPT_ERRORS.FRAME and TAG, OPT_WAKES. -/
  optRx : Half := 0
  optTx : Half := 0
  optFrame : Half := 0
  optTag : Half := 0
  optWakes : Half := 0
  /-- The last CNT accepted in the optical session (R577). -/
  optCnt : Nat := 0
  /-- The reply frame that waits to be sent, and its request's tick; the last frame sent. -/
  reply : Option (List Byte × Nat) := none
  /-- The reply of an AUTH begin that waits for the random FIFO (R472). -/
  replyAuth : Option ReplyDue := none
  /-- The end of a RATE reply, from which the switch counts (R580). -/
  rateAt : Option Nat := none
  /-- The last frame sent. -/
  optSent : List Byte := []
  deriving DecidableEq, Repr, Inhabited

/-- DEBUG block (Table 17.10). -/
structure Debug where
  /-- DBG_STATUS.HALT_PENDING_LOCKED. -/
  haltPending : Bool := false
  /-- DBG_LAST.RESULT, WINNER and OP. -/
  result : Nat := 0
  winner : Nat := 0
  op : Nat := 0
  /-- DBG_COUNTS.HALTS and FORCED, DBG_ERRORS.PROTOCOL. -/
  halts : Half := 0
  forced : Half := 0
  protocol : Half := 0
  /-- The bytes of the last reply (R581). -/
  reply : List Byte := []
  /-- A packet whose data phase is still to come: its header and ARG (R581). -/
  packet : Option (List Byte) := none
  deriving DecidableEq, Repr, Inhabited

/-! ### The whole machine -/

/-- The state of the block. -/
structure State where
  /-- The commands that are waiting, first in, first out (the block's queue). -/
  pending : List Instr := []
  /-- The 4 KiB OTP array; bits read 0 until programmed (Table 1.4). -/
  otp : Mem := []
  /-- The hidden CRC-8 companions of the OTP fields, by the field's offset (Table 1.4). -/
  otpCrc : Mem := []
  /-- The attached flash; an unlisted byte is erased. -/
  flash : Mem := []
  /-- The 96 KiB work SRAM; an unlisted byte is zero. -/
  sram : Mem := []
  /-- BOOT, IDENT and the running image. -/
  boot : Boot := {}
  /-- LINTEL. -/
  lintel : Lintel := {}
  /-- CLOCK. -/
  clock : Clock := {}
  /-- TIME. -/
  time : TimeState := {}
  /-- FABRIC, the queues and the granule table. -/
  fabric : Fabric := {}
  /-- The Mason core. -/
  mason : Mason := {}
  /-- The fault windows, the fences and the grave state. -/
  faults : Faults := {}
  /-- FRONT. -/
  front : Front := {}
  /-- SCRIBE. -/
  scribe : Scribe := {}
  /-- FTU. -/
  ftu : Ftu := {}
  /-- SHOT. -/
  shot : Shot := {}
  /-- TEMP. -/
  temp : Temp := {}
  /-- INTEG. -/
  integ : Integ := {}
  /-- BILL. -/
  bill : Bill := {}
  /-- TAMPER. -/
  tamper : Tamper := {}
  /-- JOURNAL. -/
  journal : Journal := {}
  /-- RADIO. -/
  radio : Radio := {}
  /-- LINK. -/
  link : Link := {}
  /-- KEYSLOT. -/
  keys : Keys := {}
  /-- CIPHER. -/
  cipher : CipherSt := {}
  /-- ENTROPY. -/
  entropy : Entropy := {}
  /-- ROLES, the sessions, the consents and the audit queue. -/
  roles : Roles := {}
  /-- LCD. -/
  lcd : Lcd := {}
  /-- PORTS. -/
  ports : Ports := {}
  /-- DEBUG. -/
  probe : Debug := {}
  /-- The model's own: the number of free values drawn so far (log 4, DESIGN CHOICE). -/
  draws : Nat := 0
  deriving DecidableEq, Repr, Inhabited

/-- Why a command stops. -/
inductive Fault where
  /-- A voltage outside the absolute limits of Table 18.5 (R605: outside them no statement of the manual holds).
  Raised by the supply commands; safe. -/
  | outsideRatings
  deriving DecidableEq, Repr

/-- Why a command has no meaning. -/
inductive Refusal where
  /-- A command whose meaning is not written yet; raised by `exec`'s arms only; safe. -/
  | notModelled (mnemonic : String)
  deriving DecidableEq, Repr

/-- The machine right after reset: every field at its default above. -/
def State.reset : State := {}

end Sys2Proof.Machine
end

