-- ==== Sys2Proof/Machine/Ops.lean ====
section
/-! DEFINITION. The named operations over the parts of the state: one update per block, the items in force, the time
base, and the reads that every chapter shares. -/

namespace Sys2Proof.Machine

/-- The `boot` part of the state changed. -/
def modBoot (f : Boot → Boot) (s : State) : State := { s with boot := f s.boot }

/-- The `lintel` part of the state changed. -/
def modLintel (f : Lintel → Lintel) (s : State) : State := { s with lintel := f s.lintel }

/-- The `clock` part of the state changed. -/
def modClock (f : Clock → Clock) (s : State) : State := { s with clock := f s.clock }

/-- The `time` part of the state changed. -/
def modTime (f : TimeState → TimeState) (s : State) : State := { s with time := f s.time }

/-- The `fabric` part of the state changed. -/
def modFabric (f : Fabric → Fabric) (s : State) : State := { s with fabric := f s.fabric }

/-- The `mason` part of the state changed. -/
def modMason (f : Mason → Mason) (s : State) : State := { s with mason := f s.mason }

/-- The `faults` part of the state changed. -/
def modFaults (f : Faults → Faults) (s : State) : State := { s with faults := f s.faults }

/-- The `front` part of the state changed. -/
def modFront (f : Front → Front) (s : State) : State := { s with front := f s.front }

/-- The `scribe` part of the state changed. -/
def modScribe (f : Scribe → Scribe) (s : State) : State := { s with scribe := f s.scribe }

/-- The `ftu` part of the state changed. -/
def modFtu (f : Ftu → Ftu) (s : State) : State := { s with ftu := f s.ftu }

/-- The `shot` part of the state changed. -/
def modShot (f : Shot → Shot) (s : State) : State := { s with shot := f s.shot }

/-- The `temp` part of the state changed. -/
def modTemp (f : Temp → Temp) (s : State) : State := { s with temp := f s.temp }

/-- The `integ` part of the state changed. -/
def modInteg (f : Integ → Integ) (s : State) : State := { s with integ := f s.integ }

/-- The `bill` part of the state changed. -/
def modBill (f : Bill → Bill) (s : State) : State := { s with bill := f s.bill }

/-- The `tamper` part of the state changed. -/
def modTamper (f : Tamper → Tamper) (s : State) : State := { s with tamper := f s.tamper }

/-- The `journal` part of the state changed. -/
def modJournal (f : Journal → Journal) (s : State) : State := { s with journal := f s.journal }

/-- The `radio` part of the state changed. -/
def modRadio (f : Radio → Radio) (s : State) : State := { s with radio := f s.radio }

/-- The `link` part of the state changed. -/
def modLink (f : Link → Link) (s : State) : State := { s with link := f s.link }

/-- The `cipher` part of the state changed. -/
def modCipher (f : CipherSt → CipherSt) (s : State) : State := { s with cipher := f s.cipher }

/-- The `keys` part of the state changed. -/
def modKeys (f : Keys → Keys) (s : State) : State := { s with keys := f s.keys }

/-- The `roles` part of the state changed. -/
def modRoles (f : Roles → Roles) (s : State) : State := { s with roles := f s.roles }

/-- The `entropy` part of the state changed. -/
def modEntropy (f : Entropy → Entropy) (s : State) : State := { s with entropy := f s.entropy }

/-- The `lcd` part of the state changed. -/
def modLcd (f : Lcd → Lcd) (s : State) : State := { s with lcd := f s.lcd }

/-- The `ports` part of the state changed. -/
def modPorts (f : Ports → Ports) (s : State) : State := { s with ports := f s.ports }

/-- The `probe` part of the state changed. -/
def modProbe (f : Debug → Debug) (s : State) : State := { s with probe := f s.probe }

/-- The governor changed. -/
def modGov (f : Governor → Governor) (s : State) : State := modLintel (fun l => { l with gov := f l.gov }) s

/-- The items of the running image. -/
def items (s : State) : Items := s.boot.img.items

/-- D04 ticks in a number of seconds, and in a number of milliseconds (rounded up). -/
def secTicks (n : Nat) : Nat := n * 32768
def msTicks (n : Nat) : Nat := ceilDiv (n * 32768) 1000

/-- At least `d` ticks have passed since `since`. -/
def passed (s : State) (since d : Nat) : Bool := decide (since + d ≤ s.time.ticks)

/-- At least `d` ticks of D04 have been counted since the count read `since` (R83, R100). -/
def counted (s : State) (since d : Nat) : Bool := decide (since + d ≤ s.time.d04)

/-- A reseat holds its lock (R51). -/
def reseatLocked (s : State) : Bool := s.boot.reseatActive

/-- A trigger's instant waits for the unlock of a reseat (R54, R140). -/
def trigHeld (s : State) : Bool := reseatLocked s || decide (s.time.ticks < s.boot.unlockAt)

/-- Bytes of the OTP array. -/
def otpBytes (s : State) (off k : Nat) : List Byte := s.otp.read 0 off k

/-- The chip is sealed: two or more bits of the seal byte read 1 (R30). -/
def isSealed (s : State) : Bool :=
  decide (2 ≤ ((List.range 8).filter fun i => (s.otp.get 0 0x140).getLsbD i).length)

/-- The eight serial-number bytes. -/
def serial (s : State) : List Byte := otpBytes s 0x000 8

/-- The silicon revision, the first byte of the revision and grade word (Table 1.4; log 25, DESIGN CHOICE). -/
def siliconRev (s : State) : Nat := (otpBytes s 0x008 1).headD 0 |>.toNat

/-- A byte of the attached flash; a byte whose program or erase was cut off reads with zero bits among those it was
to have, differently at different times (R351). -/
def flashByte (s : State) (a : Nat) : Byte :=
  match s.journal.unstable.find? (fun u => u.1 == a) with
  | some u => u.2.1 ||| (Config.freeByte s.draws a &&& u.2.2)
  | none => s.flash.get 0xFF a

/-- `k` bytes of the attached flash. -/
def flashRead (s : State) (a k : Nat) : List Byte := (List.range k).map fun i => flashByte s (a + i)

/-- A free value of the model drawn (log 4, DESIGN CHOICE). -/
def drew (n : Nat) (s : State) : State := { s with draws := s.draws + n }

/-- A measured ratio rounded half away from zero; a zero denominator gives a free value (log 6, DESIGN CHOICE). -/
def quot (n d : Int) : Int := if d = 0 then Config.zeroDiv n else roundDiv n d

/-- METER_TYPE of the running copy: kind (1 heat, 2 cooling/heat, 3 water, 4 gas) and path count (Table 1.2). -/
def meterKind (s : State) : Nat := s.boot.img.meterType.toNat % 16
def pathCount (s : State) : Nat := bits 7 4 s.boot.img.meterType.toNat

/-- The meter takes temperature records: not one of kind 3, or of kind 4 without conversion (R269, R304). -/
def takesTemp (s : State) : Bool := !(meterKind s == 3 || (meterKind s == 4 && (items s).integ.gasConv == 0))

/-- D04 ticks since bring-up, 32 bits (R270). -/
def bootTicks (s : State) : Nat := (s.time.d04 - s.boot.startTick) % 2 ^ 32

/-- The three memories have their canonical form. -/
def Memory.wf (s : State) : Bool := Mem.wf 0 s.otp && Mem.wf 0xFF s.flash && Mem.wf 0 s.sram

end Sys2Proof.Machine
end

