-- ==== Sys2Proof/Machine/Calendar.lean ====
section
/-! DEFINITION. Local time and the tariff decision (chapter 9): dates, DST, the sources of Table 9.1, the billing point
and the next switch point. -/

namespace Sys2Proof.Machine

/-- Year, month and day of a day counted from 2000-01-01 (Gregorian calendar). The computation is
in days from 0000-03-01 of the proleptic calendar. -/
def civil (days : Int) : Nat × Nat × Nat :=
  let z := (days + 730425).toNat
  let era := z / 146097
  let doe := z % 146097
  let yoe := (doe - doe / 1460 + doe / 36524 - doe / 146096) / 365
  let doy := doe - (365 * yoe + yoe / 4 - yoe / 100)
  let mp := (5 * doy + 2) / 153
  let d := doy - (153 * mp + 2) / 5 + 1
  let m := if mp < 10 then mp + 3 else mp - 9
  (yoe + era * 400 + (if m ≤ 2 then 1 else 0), m, d)

/-- Days from 2000-01-01 of a date (Gregorian calendar). -/
def daysOf (y m d : Nat) : Int :=
  let y' := if m ≤ 2 then y - 1 else y
  let era := y' / 400
  let yoe := y' % 400
  let doy := (153 * (if 2 < m then m - 3 else m + 9) + 2) / 5 + d - 1
  let doe := yoe * 365 + yoe / 4 - yoe / 100 + doy
  ((era * 146097 + doe : Nat) : Int) - 730425

/-- Weekday of a day, 0 Monday (R301). -/
def weekday (days : Int) : Nat := ((days + 5).emod 7).toNat

/-- Days in a month. -/
def monthDays (y m : Nat) : Nat :=
  ((if m = 12 then daysOf (y + 1) 1 1 else daysOf y (m + 1) 1) - daysOf y m 1).toNat

/-- A DST instant in a year, in seconds (R301): week 1 to 4 that occurrence of the weekday, week 5 the last. -/
def dstInstant (r : DstRule) (year : Nat) : Int :=
  let off := (r.wday + 7 - weekday (daysOf year r.month 1)) % 7
  let day := 1 + off + 7 * (r.week - 1)
  let day := if monthDays year r.month < day then day - 7 else day
  daysOf year r.month day * 86400 + r.hour * 3600

/-- in_dst of R301 at a DT given in whole seconds. -/
def inDst (b : BillItems) (sec : Nat) : Bool :=
  let year := (civil (sec / 86400 : Nat)).1
  let s := dstInstant b.dstStart year
  let e := dstInstant b.dstEnd year
  let t : Int := sec
  if s < e then decide (s ≤ t) && decide (t < e)
  else if e < s then decide (t < e) || decide (s ≤ t) else false

/-- DST applies (R301). -/
def dstOn (b : BillItems) (sec : Nat) : Bool := b.dstEn == 1 && inDst b sec

/-- local_s of R301. -/
def localS (b : BillItems) (sec : Nat) : Int :=
  sec + 60 * (b.localOfs + (if dstOn b sec then (b.dstShift : Int) else 0))

/-- The season in force on a local date (R305). -/
def seasonOf (b : BillItems) (m d : Nat) : Nat :=
  let n := (b.seasons.filter fun s => decide (s.1 * 32 + s.2 ≤ m * 32 + d)).length
  if n = 0 then b.seasons.length - 1 else n - 1

/-- The tariff of a day profile at a minute of day: that of its last switch point at or before it (R305). -/
def profileTariff (b : BillItems) (profile minute : Nat) : Nat :=
  (((at0 b.days profile).filter fun p => decide (p.1 ≤ minute)).getLast?.map (·.2)).getD 0

/-- A special-day entry matches a local date. -/
def SpecialDay.on (e : SpecialDay) (y m d : Nat) : Bool := (e.year == 0 || e.year == y) && e.month == m && e.day == d

/-- A condition holds on a step's values (R304). -/
def CondItem.holds (c : CondItem) (temps : Bool) (v : StepValues) : Bool :=
  let x := match c.val with
    | 0 => v.q | 1 => v.power | 2 => v.ts | 3 => v.tr | _ => v.ts - v.tr
  (temps || decide (c.val < 2)) && (if c.op = 0 then decide (c.thr ≤ x) else decide (x ≤ c.thr))

/-- The decision of Table 9.1 at a DT (in DT units), with the values of a step where there is one (R303). -/
def tariffAt (s : State) (dt : Nat) (v : Option StepValues) : CalState :=
  let b := (items s).bill
  let sec := dt / 32768
  let ls := localS b sec
  let days := ls / 86400
  let (y, m, d) := civil days
  let season := seasonOf b m d
  let special := b.special.find? fun e => e.on y m d
  let profile := match special with
    | some e => e.profile
    | none => at0 (at0 b.week season) (weekday days)
  let minute := ((ls.emod 86400) / 60).toNat
  let cond := v.bind fun x => b.conds.find? fun c => c.holds (takesTemp s) x
  let c : CalState := { season := season, profile := profile, dst := dstOn b sec }
  if s.bill.force.testBit 3 && (s.bill.forceUntil == 0 || decide (dt < s.bill.forceUntil)) then
    { c with tariff := s.bill.force % 8, by_ := 1 }
  else match cond with
    | some k => { c with tariff := k.tariff, by_ := 2 }
    | none =>
      if b.extMode = 1 && b2n s.bill.extIn = b.extPol then { c with tariff := b.extTariff, by_ := 3 }
      else { c with tariff := profileTariff b profile minute, by_ := if special.isSome then 4 else 5 }

/-- The local day of a DT second and the switch point of the day's profile in force. -/
def spanAt (s : State) (sec : Nat) : Int × Nat :=
  let ls := localS (items s).bill sec
  let minute := ((ls.emod 86400) / 60).toNat
  (ls / 86400, ((at0 (items s).bill.days (tariffAt s (sec * 32768) none).profile).filter fun p =>
    decide (p.1 ≤ minute)).length)

/-- The first DT second after `sec` at which the local offset may change: a DST instant, or a turn of the UTC year, by which
R301 judges. -/
def dstChange (b : BillItems) (sec : Nat) : Option Nat :=
  let y := (civil (sec / 86400 : Nat)).1
  if b.dstEn = 0 then none
  else (([y, y + 1].flatMap fun n => [dstInstant b.dstStart n, dstInstant b.dstEnd n, daysOf n 1 1 * 86400]).filter fun t =>
    decide ((sec : Int) < t)).foldl (fun m t => some (min (m.getD t.toNat) t.toNat)) none

/-- The next DT second that begins another switch point's span or another local day (R301, R305): where the offset changes
first and leaves the span, its change; `fuel` bounds the offset changes passed by. -/
def spanEnd (s : State) : Nat → Nat → Nat
  | 0, sec => sec
  | fuel + 1, sec =>
    let b := (items s).bill
    let at_ := (localS b sec).emod 86400
    let next := (((at0 b.days (tariffAt s (sec * 32768) none).profile).map (·.1)).find? fun p =>
      decide (at_ / 60 < p)).getD 1440
    let u := (sec + ((next : Int) * 60 - at_)).toNat
    match dstChange b sec with
    | some t => if u < t then u else if spanAt s t = spanAt s sec then spanEnd s fuel t else t
    | none => u

/-- NEXT_SWITCH_DT: the next calendar switch point, or day or season change (Table 9.9). -/
def nextSwitch (s : State) (dt : Nat) : Nat := spanEnd s 8 (dt / 32768) * 32768

/-- The key of the latest billing point at or before a DT second: year × 12 + month − 1 (R310). -/
def billKey (b : BillItems) (sec : Nat) : Nat :=
  let ls := localS b sec
  let (y, m, d) := civil (ls / 86400)
  let hour := ((ls.emod 86400) / 3600).toNat
  let k := y * 12 + m - 1
  if b.billDay < d || (d == b.billDay && decide (b.billHour ≤ hour)) then k else k - 1

end Sys2Proof.Machine
end

