-- ==== Sys2Proof/Machine/Crypto.lean ====
section
/-! DEFINITION. AES-128 and the modes the cipher engine uses (Table 13.1): CMAC (SP 800-38B), CCM (38C), CTR and
CBC (38A) and key wrap KW (38F). Blocks and keys are lists of 16 bytes, first byte first. -/

namespace Sys2Proof.Machine

/-- Multiplication by x in the field of AES, on numbers below 256. -/
def xtime (b : Nat) : Nat := if 128 ≤ b then (2 * b) ^^^ 0x11B else 2 * b

/-- The sum of the products of `b` with the bits of `a`, over at most `n` bits, added to `acc`. -/
def gmulFrom : (n a b acc : Nat) → Nat
  | 0, _, _, acc => acc
  | n + 1, a, b, acc =>
    if a = 0 then acc else gmulFrom n (a / 2) (xtime b) (if a % 2 = 1 then acc ^^^ b else acc)

/-- Multiplication in the field of AES. -/
def gmul (a b : Byte) : Byte := BitVec.ofNat 8 (gmulFrom 8 a.toNat b.toNat 0)

/-- The S-box of AES (FIPS 197, its figure 7): row r holds the values of 16 r to 16 r + 15, the first in its lowest byte. -/
def sboxRows : List Nat :=
  [0x76ABD7FE2B670130C56F6BF27B777C63, 0xC072A49CAFA2D4ADF04759FA7DC982CA,
   0x1531D871F1E5A534CCF73F362693FDB7, 0x75B227EBE28012079A059618C323C704,
   0x842FE329B3D63B52A05A6E1B1A2C8309, 0xCF584C4A39BECB6A5BB1FC20ED00D153,
   0xA89F3C507F02F94585334D43FBAAEFD0, 0xD2F3FF1021DAB6BCF5389D928F40A351,
   0x73195D643D7EA7C41744975FEC130CCD, 0xDB0B5EDE14B8EE4688902A22DC4F8160,
   0x79E4959162ACD3C25C2406490A3A32E0, 0x08AE7A65EAF4566CA94ED58D6D37C8E7,
   0x8A8BBD4B1F74DDE8C6B4A61C2E2578BA, 0x9E1DC186B95735610EF6034866B53E70,
   0xDF2855CEE9871E9B948ED9691198F8E1, 0x16BB54B00F2D99416842E6BF0D89A18C]

/-- The inverse S-box of AES (FIPS 197, its figure 14), laid out likewise. -/
def invSboxRows : List Nat :=
  [0xFBD7F3819EA340BF38A53630D56A0952, 0xCBE9DEC444438E3487FF2F9B8239E37C,
   0x4EC3FA420B954CEE3D23C2A632947B54, 0x25D18B6D49A25B76B224D92866A12E08,
   0x92B6655DCC5CA4D41698688664F6F872, 0x849D8DA75746155EDAB9EDFD5048706C,
   0x0645B3B80558E4F70AD3BC8C00ABD890, 0x6B8A130103BDAFC1020F3FCA8F1E2CD0,
   0x73E6B4F0CECFF297EADC674F4111913A, 0x6EDF751CE837F9E28535ADE72274AC96,
   0x1BBE18AA0E62B76F89C5291D711AF147, 0xF45ACD78FEC0DB9A2079D2C64B3E56FC,
   0x5FEC8027591012B131C7078833A8DD1F, 0xEF9CC9939F7AE52D0D4AB519A97F5160,
   0x619953833CBBEBC8B0F52AAE4D3BE0A0, 0x7D0C2155631469E126D677BA7E042B17]

/-- An entry of a table of sixteen rows of sixteen bytes. -/
def boxAt (rows : List Nat) (a : Byte) : Byte := BitVec.ofNat 8 (rows[a.toNat / 16]?.getD 0 >>> (8 * (a.toNat % 16)))

/-- The S-box of AES and its inverse. -/
def sbox (a : Byte) : Byte := boxAt sboxRows a
def invSbox (a : Byte) : Byte := boxAt invSboxRows a

/-- Byte-wise exclusive or. -/
def xorBytes (a b : List Byte) : List Byte := List.zipWith (· ^^^ ·) a b

/-- Byte `i` of a list, 0 outside it. -/
def byteAt (l : List Byte) (i : Nat) : Byte := l[i]?.getD 0

/-- One round of the key schedule: the next round key from the last. -/
def nextRoundKey (k : List Byte) (rcon : Byte) : List Byte :=
  let t := [sbox (byteAt k 13) ^^^ rcon, sbox (byteAt k 14), sbox (byteAt k 15), sbox (byteAt k 12)]
  let w0 := xorBytes (k.take 4) t
  let w1 := xorBytes ((k.drop 4).take 4) w0
  let w2 := xorBytes ((k.drop 8).take 4) w1
  let w3 := xorBytes ((k.drop 12).take 4) w2
  w0 ++ w1 ++ w2 ++ w3

/-- The eleven round keys of AES-128, first first. -/
def roundKeys (key : List Byte) : List (List Byte) :=
  let step := fun (acc : List (List Byte) × List Byte × Byte) (_ : Nat) =>
    let k := nextRoundKey acc.2.1 acc.2.2
    (acc.1 ++ [k], k, BitVec.ofNat 8 (xtime acc.2.2.toNat))
  ((List.range 10).foldl step ([padTo 16 0 (key.take 16)], padTo 16 0 (key.take 16), 1#8)).1

/-- ShiftRows on the column-major state. -/
def shiftRows (s : List Byte) : List Byte :=
  [0, 5, 10, 15, 4, 9, 14, 3, 8, 13, 2, 7, 12, 1, 6, 11].map (byteAt s)

/-- InvShiftRows. -/
def invShiftRows (s : List Byte) : List Byte :=
  [0, 13, 10, 7, 4, 1, 14, 11, 8, 5, 2, 15, 12, 9, 6, 3].map (byteAt s)

/-- One column through the circulant matrix of coefficients `c`. -/
def mixColumn (c col : List Byte) : List Byte :=
  (List.range 4).map fun r =>
    (List.range 4).foldl (fun acc k => acc ^^^ gmul (byteAt c ((k + 4 - r) % 4)) (byteAt col k)) 0#8

/-- The four columns through the circulant matrix of coefficients `c`. -/
def mixColumns (c s : List Byte) : List Byte :=
  (List.range 4).flatMap fun j => mixColumn c ((s.drop (4 * j)).take 4)

/-- AES-128 encryption of one block. -/
def aesEnc (key block : List Byte) : List Byte :=
  match roundKeys key with
  | [] => []
  | k0 :: ks =>
    let s0 := xorBytes (padTo 16 0 block) k0
    let mid := (ks.take 9).foldl
      (fun s k => xorBytes (mixColumns [2, 3, 1, 1] (shiftRows (s.map sbox))) k) s0
    xorBytes (shiftRows (mid.map sbox)) (ks.getLastD [])

/-- AES-128 decryption of one block. -/
def aesDec (key block : List Byte) : List Byte :=
  match (roundKeys key).reverse with
  | [] => []
  | k0 :: ks =>
    let s0 := xorBytes (padTo 16 0 block) k0
    let mid := (ks.take 9).foldl
      (fun s k => mixColumns [14, 11, 13, 9] (xorBytes ((invShiftRows s).map invSbox) k)) s0
    xorBytes ((invShiftRows mid).map invSbox) (ks.getLastD [])

/-- A byte list cut into blocks of 16; the last may be shorter. -/
def blocks (bs : List Byte) : List (List Byte) :=
  (List.range (ceilDiv bs.length 16)).map fun i => (bs.drop (16 * i)).take 16

/-- Doubling in the field of CMAC. -/
def cmacDouble (b : List Byte) : List Byte :=
  let n := ofBE b
  let d := n * 2 % 2 ^ 128
  bytesBE 16 (if 2 ^ 127 ≤ n then d ^^^ 0x87 else d)

/-- The two subkeys of CMAC (SP 800-38B). -/
def cmacSubkeys (key : List Byte) : List Byte × List Byte :=
  let k1 := cmacDouble (aesEnc key (List.replicate 16 0))
  (k1, cmacDouble k1)

/-- AES-CMAC (SP 800-38B), the full 16-byte tag. -/
def cmac (key msg : List Byte) : List Byte :=
  let (k1, k2) := cmacSubkeys key
  let bl := blocks msg
  let last := bl.getLastD []
  let m := if last.length = 16 then xorBytes last k1 else xorBytes (padTo 16 0 (last ++ [0x80#8])) k2
  aesEnc key (xorBytes (bl.dropLast.foldl (fun x b => aesEnc key (xorBytes x b)) (List.replicate 16 0)) m)

/-- The counter block `i` places after `ctr`, counting in all 128 bits. -/
def ctrBlock (ctr : List Byte) (i : Nat) : List Byte := bytesBE 16 ((ofBE ctr + i) % 2 ^ 128)

/-- Counter mode from counter block `ctr` (SP 800-38A); encryption and decryption are one. -/
def ctrMode (key ctr msg : List Byte) : List Byte :=
  ((blocks msg).zipIdx.map fun b => xorBytes b.1 (aesEnc key (ctrBlock ctr b.2))).flatten

/-- CBC encryption of whole blocks. -/
def cbcEnc (key iv msg : List Byte) : List Byte :=
  ((blocks msg).foldl (fun acc b =>
    let c := aesEnc key (xorBytes (padTo 16 0 b) acc.2); (acc.1 ++ c, c)) (([] : List Byte), iv)).1

/-- CBC decryption of whole blocks. -/
def cbcDec (key iv msg : List Byte) : List Byte :=
  ((blocks msg).foldl (fun acc b =>
    (acc.1 ++ xorBytes (aesDec key b) acc.2, b)) (([] : List Byte), iv)).1

/-- The formatted first part of CCM: B0, then the associated data with its length (SP 800-38C). -/
def ccmHeader (nonce adata : List Byte) (plen taglen : Nat) : List Byte :=
  let q := 15 - nonce.length
  let flags := (if adata.length = 0 then 0 else 64) + 8 * ((taglen - 2) / 2) + (q - 1)
  let b0 := BitVec.ofNat 8 flags :: nonce ++ bytesBE q plen
  let a := if adata.length = 0 then [] else bytesBE 2 adata.length ++ adata
  b0 ++ a ++ List.replicate ((16 - a.length % 16) % 16) 0

/-- The untruncated CBC-MAC of CCM. -/
def ccmMac (key nonce adata msg : List Byte) (taglen : Nat) : List Byte :=
  (blocks (ccmHeader nonce adata msg.length taglen ++ msg ++
    List.replicate ((16 - msg.length % 16) % 16) 0)).foldl
    (fun x b => aesEnc key (xorBytes x b)) (List.replicate 16 0)

/-- The counter block of CCM with counter `i`. -/
def ccmCtr (nonce : List Byte) (i : Nat) : List Byte :=
  let q := 15 - nonce.length
  BitVec.ofNat 8 (q - 1) :: nonce ++ bytesBE q i

/-- CCM encryption: the ciphertext and the tag. -/
def ccmSeal (key nonce adata msg : List Byte) (taglen : Nat) : List Byte × List Byte :=
  (ctrMode key (ccmCtr nonce 1) msg,
   (xorBytes (ccmMac key nonce adata msg taglen) (aesEnc key (ccmCtr nonce 0))).take taglen)

/-- CCM decryption: the plaintext and whether the tag matched. -/
def ccmOpen (key nonce adata ct tag : List Byte) : List Byte × Bool :=
  let msg := ctrMode key (ccmCtr nonce 1) ct
  (msg, (xorBytes (ccmMac key nonce adata msg tag.length) (aesEnc key (ccmCtr nonce 0))).take tag.length == tag)

/-- KW unwrap of a 128-bit key wrapped in 24 bytes (SP 800-38F): the key, where the integrity value matches. -/
def kwUnwrap (kek wrapped : List Byte) : Option (List Byte) :=
  let step := fun (acc : List Byte × List Byte × List Byte) (t : Nat) =>
    -- one half-round: t counts 12 down to 1; odd t works on the first half-block, even t on the second
    let r := if t % 2 = 1 then acc.2.1 else acc.2.2
    let x := bytesBE 8 (ofBE acc.1 ^^^ t)
    let b := aesDec kek (x ++ r)
    let a := b.take 8
    if t % 2 = 1 then (a, b.drop 8, acc.2.2) else (a, acc.2.1, b.drop 8)
  let res := ((List.range 12).map (12 - ·)).foldl step
    (slice wrapped 0 8, slice wrapped 8 8, slice wrapped 16 8)
  if res.1 = List.replicate 8 0xA6#8 then some (res.2.1 ++ res.2.2) else none

/-- KW wrap of a 128-bit key in 24 bytes (SP 800-38F); used only to state and test `kwUnwrap`. -/
def kwWrap (kek key : List Byte) : List Byte :=
  let step := fun (acc : List Byte × List Byte × List Byte) (i : Nat) =>
    let t := i + 1
    let r := if t % 2 = 1 then acc.2.1 else acc.2.2
    let b := aesEnc kek (acc.1 ++ r)
    let a := bytesBE 8 (ofBE (b.take 8) ^^^ t)
    if t % 2 = 1 then (a, b.drop 8, acc.2.2) else (a, acc.2.1, b.drop 8)
  let res := (List.range 12).foldl step (List.replicate 8 0xA6#8, slice key 0 8, slice key 8 8)
  res.1 ++ res.2.1 ++ res.2.2

end Sys2Proof.Machine
end

