-- ==== Sys2Proof/Machine/Faults.lean ====
section
/-! DEFINITION. The fault windows (chapter 15): raising, level conditions, the first-fault capture, clearing, and the
fault pins. Raising only writes the window and queues its consequences (`Faults.todo`); `Settle.lean` takes them. -/

namespace Sys2Proof.Machine

/-- A block's window. -/
def winOf (s : State) (b : Block) : FaultWin := nth s.faults.win b.idx

/-- A block's window changed. -/
def modWin (b : Block) (f : FaultWin → FaultWin) (s : State) : State :=
  modFaults (fun x => { x with win := upd x.win b.idx f }) s

/-- The class of a source under the running image, the default map when bare (R56, R521). -/
def classOf (s : State) (src : FaultSrc) : Nat := at0 (at0 (items s).fault.cls src.block.idx) src.num

/-- The class under which a source was last raised: it keeps the reaction it had then over a reseat (R535). -/
def raisedClass (s : State) (src : FaultSrc) : Nat := (winOf s src.block).raisedCls.toNat / 4 ^ src.num % 4

/-- A source's class put into its two bits (Table 15.1, FAULT_CLASS). -/
def putClass (w : Word) (num cls : Nat) : Word :=
  BitVec.ofNat 32 (w.toNat - w.toNat / 4 ^ num % 4 * 4 ^ num + cls % 4 * 4 ^ num)

/-- The kind of a source (Table 15.8). -/
def kindOf (src : FaultSrc) : SourceKind := ((src.block.sources[src.num]?).map (·.kind)).getD .event

/-- The master ID that an internal fault of a block records (R514). -/
def detector (b : Block) (num : Nat) : Nat :=
  match b with
  | .front => 0x11 | .scribe => 0x12 | .ftu => 0x13
  | .shot => if num = 0 || num = 1 || num = 6 || num = 7 || num = 8 then 0x15 else 0x14
  | .temp => 0x16 | .integ => 0x17 | .bill => 0x18 | .tamper => 0x19 | .journal => 0x1A | .radio => 0x1B
  | .link => 0x1C | .cipher => 0x1D | .roles => 0x1D | .entropy => 0x1E | .lcd => 0x1F
  | _ => 0x00

/-- What a raising records of its cause (R514, Table 15.2). -/
structure Cause where
  master : Nat
  access : Nat
  addr : Nat
  deriving DecidableEq, Repr

/-- An internal cause: the detecting engine, ACCESS 0xF and the block base (R514). -/
def Cause.internal (src : FaultSrc) : Cause := ⟨detector src.block src.num, 0xF, src.block.base⟩

/-- Whether the window's RAISED bit of a source is set. -/
def isRaised (s : State) (src : FaultSrc) : Bool := (winOf s src.block).raised.getLsbD src.num

/-- Whether a consequence of the present cycle says that a source of this block was raised in it. -/
def raisedNow (s : State) (src : FaultSrc) : Bool := s.faults.todo.contains (.change src true)

/-- The capture of a first fault into a window (R514, R538: the lowest number of one cycle). -/
def capture (s : State) (src : FaultSrc) (c : Cause) (dt : DWord) (w : FaultWin) : FaultWin :=
  if w.armed || (w.firstValid && src.num < w.firstSource && raisedNow s ⟨src.block, w.firstSource⟩) then
    { w with armed := false, firstValid := true, firstAddr := c.addr % 2 ^ 24, firstMaster := c.master,
             firstAccess := c.access, firstSource := src.num, firstDt := dt }
  else w

/-- A source raised in its window with a given cause and DT (R512, R513): a repeat only counts. -/
def raiseAt (src : FaultSrc) (c : Cause) (dt : DWord) (s : State) : State :=
  if isRaised s src then modWin src.block (fun w => { w with count := satInc w.count }) s
  else
    let s1 := modWin src.block (fun w =>
      capture s src c dt { w with
        raised := setBit w.raised src.num true, raisedCls := putClass w.raisedCls src.num (classOf s src)
        count := satInc w.count }) s
    { s1 with faults := { s1.faults with
        todo := s1.faults.todo ++
          [.mason 8 src.block.byte src.num, .change src true, .cls src] } }

/-- A source raised now. While the main domain is off it is latched in AON with its DT of detection (R515). -/
def raiseBy (src : FaultSrc) (c : Cause) (s : State) : State :=
  if s.lintel.mainOn then raiseAt src c s.time.dt s
  else if s.faults.aonLatched.any (fun l => l.1 == src) then s
  else { s with faults := { s.faults with aonLatched := s.faults.aonLatched ++ [(src, s.time.dt)] } }

/-- An internal raising. -/
def raise (src : FaultSrc) (s : State) : State := raiseBy src (Cause.internal src) s

/-- A source raised where a condition holds. -/
def raiseIf (b : Bool) (src : FaultSrc) (s : State) : State := if b then raise src s else s

/-- A RAISED bit cleared, with the change it makes (R516, R532). -/
def lower (src : FaultSrc) (s : State) : State :=
  if isRaised s src then
    let s1 := modWin src.block (fun w => { w with raised := setBit w.raised src.num false }) s
    { s1 with faults := { s1.faults with todo := s1.faults.todo ++ [.change src false] } }
  else s

/-- The condition of a level source begins, goes on or ends (R513, R516). -/
def setLevel (src : FaultSrc) (holds : Bool) (s : State) : State :=
  let held := (winOf s src.block).holds.getLsbD src.num
  let s1 := modWin src.block (fun w => { w with holds := setBit w.holds src.num holds }) s
  if holds && !held then raise src s1
  else if !holds && held && !((winOf s src.block).pinned.getLsbD src.num) then lower src s1
  else s1

/-- A source held raised by the fence that it caused (R513). -/
def pinSource (src : FaultSrc) (s : State) : State :=
  modWin src.block (fun w => { w with pinned := setBit w.pinned src.num true }) s

/-- A write of ones to FAULT_STATUS: event sources clear, a held source stays (R516); the capture is armed again
when the status then reads 0 (R514). In the grave state nothing clears (R517). -/
def clearStatus (b : Block) (mask : Nat) (s : State) : State :=
  if s.faults.grave then s
  else
    let s1 := (List.range 16).foldl (fun t i =>
      if mask.testBit i && !(((winOf t b).holds ||| (winOf t b).pinned).getLsbD i) then lower ⟨b, i⟩ t else t) s
    modWin b (fun w => if w.raised = 0 then { w with armed := true } else w) s1

/-- The class of some raised source, as it was at its raising, satisfies `p` (R535). -/
def anyRaised (s : State) (p : Nat → Bool) : Bool :=
  Block.all.any fun b => (List.range 16).any fun i => isRaised s ⟨b, i⟩ && p (raisedClass s ⟨b, i⟩)

/-- A source of class B, C or D is raised in some block (R530). -/
def degraded (s : State) : Bool := anyRaised s (fun c => decide (1 ≤ c))

/-- A class C source is raised in a metrology block (R522, R535). -/
def metrologyDegraded (s : State) : Bool :=
  [Block.front, .scribe, .ftu, .shot, .temp, .integ].any fun b =>
    (List.range 16).any fun i => isRaised s ⟨b, i⟩ && raisedClass s ⟨b, i⟩ == 2

/-- A queue's notify bit: its ring holds an unread record of a NOTIFY job (R618). -/
def notifyBit (s : State) (q : Nat) : Bool := (nth s.fabric.queues q).ring.any (·.notify)

/-- A block's interrupt line (R519). -/
def irqLine (s : State) (b : Block) : Bool :=
  (winOf s b).raised &&& (winOf s b).enable != 0
  || (b == .fabric && (List.range 64).any fun q => (nth s.fabric.queues q).notifyEn && notifyBit s q)

/-- IRQ_N is driven low (R519, Table 15.6): by any line in the run and grave states, by BOOT's when bare. -/
def irqLow (s : State) : Bool :=
  s.lintel.mainOn && (if s.boot.bare then irqLine s .boot
    else (s.boot.running || s.faults.grave) && Block.all.any (irqLine s))

/-- FLT_N is low (R529, R531, R43, R526; Table 15.6). -/
def fltLow (s : State) : Bool :=
  s.lintel.mainOn && (items s).fault.fltnEn == 1
  && (s.faults.grave || s.boot.bare
      || (s.boot.running && Block.all.any fun b => (winOf s b).raised &&& (winOf s b).enable != 0))

/-- ALIVE is high (R530, R531; Table 15.6). -/
def aliveHigh (s : State) : Bool :=
  s.lintel.mainOn && s.boot.running && !s.faults.grave && (items s).fault.aliveEn == 1 && s.faults.alive

/-- UNIT_STATE of a block's window (Table 15.1). -/
def unitState (s : State) (b : Block) : Nat :=
  let w := winOf s b
  b2n w.fenced + 2 * b2n s.faults.grave + w.part.toNat * 16 + w.by_ * 2 ^ 8 + w.bySource * 2 ^ 16

/-- A word of a block's fault window by its offset 0xF00 to 0xFFC (Table 15.1). -/
def readWindow (s : State) (b : Block) (off : Nat) : Nat :=
  let w := winOf s b
  match off with
  | 0xF00 => w.raised.toNat
  | 0xF04 => w.enable.toNat
  | 0xF0C => (List.range 16).foldl (fun acc i => acc + (classOf s ⟨b, i⟩) * 4 ^ i) 0
  | 0xF10 => w.firstAddr
  | 0xF14 => w.firstMaster + w.firstAccess * 2 ^ 8 + w.firstSource * 2 ^ 12 + b2n w.firstValid * 2 ^ 31
  | 0xF18 => w.firstDt.toNat % 2 ^ 32
  | 0xF1C => w.firstDt.toNat / 2 ^ 32
  | 0xF20 => w.count.toNat
  | 0xF24 => unitState s b
  | 0xF28 => (s.faults.hist.filter (fun r => r.block == b)).length + w.histDropped.toNat * 2 ^ 8
  | _ => 0

/-- Every window as bring-up leaves it: Table 15.1 with the image's enables, the AON fields kept (R511). -/
def resetWindows (s : State) : State :=
  { s with faults := { s.faults with
      win := Vector.ofFn fun i =>
        { enable := BitVec.ofNat 16 (at0 (items s).fault.enableInit i.val),
          histDropped := (nth s.faults.win i.val).histDropped },
      todo := [] } }

end Sys2Proof.Machine
end

