-- ==== Sys2Proof/Machine/Fabric.lean ====
section
/-! DEFINITION. The Coursing fabric (chapter 3): the job table of every engine, tags and granules, admission
(Table 3.5), completion records and rings, chaining, and the Mason core's trigger FIFO. -/

namespace Sys2Proof.Machine

/-! ### The job tables of the engines -/

/-- One row of an engine's job table: the classes it may be queued in, whether it is diagnostic (R122), the roles
that may run it (bit r for role code r, bit 0 the chip), and whether the Mason core alone may (mask 0). -/
structure JobRow where
  classes : List Nat
  diag : Bool := false
  roles : Nat := 31
  mason : Bool := false
  deriving DecidableEq, Repr

/-- The opcodes every engine's chapter defines (Tables 3.12, 4.5, 5.5, 6.6, 7.6, 8.6, 9.9, 10.13, 11.7, 12.8, 13.9,
14.9a and 16.2). -/
def jobRow (engine opcode : Nat) : Option JobRow :=
  match engine, opcode with
  | 0, 1 => some { classes := [2, 3] }
  | 0, 2 => some { classes := [2, 3] }
  | 1, 1 => some { classes := [3], diag := true, roles := 13 }
  | 1, 2 => some { classes := [3], diag := true, roles := 12 }
  | 2, 1 => some { classes := [3], diag := true, roles := 12 }
  | 3, 1 => some { classes := [3], diag := true, roles := 12 }
  | 3, 2 => some { classes := [3], diag := true, roles := 12 }
  | 4, 1 => some { classes := [0] }
  | 4, 2 => some { classes := [3], diag := true, roles := 14 }
  | 5, 1 => some { classes := [0] }
  | 5, 2 => some { classes := [3], diag := true, roles := 12 }
  | 6, 1 => some { classes := [0] }
  | 6, 2 => some { classes := [3], diag := true, roles := 12 }
  | 7, 1 => some { classes := [1] }
  | 7, 2 => some { classes := [3], roles := 8 }
  | 8, 1 => some { classes := [1], roles := 1, mason := true }
  | 8, 2 => some { classes := [2], roles := 10 }
  | 9, 1 => some { classes := [2], roles := 14 }
  | 10, 1 => some { classes := [1] }
  | 10, 2 => some { classes := [2, 3] }
  | 10, 3 => some { classes := [3], roles := 12 }
  | 10, 4 => some { classes := [3], roles := 1, mason := true }
  | 10, 5 => some { classes := [3], roles := 1, mason := true }
  | 10, 6 => some { classes := [3], roles := 1, mason := true }
  | 10, 7 => some { classes := [1], roles := 1 }
  | 11, 1 => some { classes := [2] }
  | 11, 2 => some { classes := [2] }
  | 11, 3 => some { classes := [2] }
  | 11, 4 => some { classes := [2] }
  | 11, 5 => some { classes := [3], roles := 1, mason := true }
  | 11, 6 => some { classes := [3], roles := 8 }
  | 12, 1 => some { classes := [2] }
  | 12, 2 => some { classes := [3], roles := 10 }
  | 12, 3 => some { classes := [3], roles := 14 }
  | 13, 1 => some { classes := [1, 2, 3] }
  | 13, 2 => some { classes := [1, 2, 3] }
  | 13, 3 => some { classes := [1, 2, 3] }
  | 13, 4 => some { classes := [1, 2, 3] }
  | 13, 5 => some { classes := [1, 2, 3] }
  | 13, 6 => some { classes := [1, 2, 3] }
  | 13, 7 => some { classes := [1, 2, 3] }
  | 13, 9 => some { classes := [1, 2, 3], roles := 10 }
  | 13, 0x10 => some { classes := [2] }
  | 13, 0x11 => some { classes := [2] }
  | 13, 0x12 => some { classes := [2] }
  | 13, 0x13 => some { classes := [2] }
  | 13, 0x14 => some { classes := [2] }
  | 13, 0x15 => some { classes := [2] }
  | 14, 1 => some { classes := [1, 2, 3], roles := 15 }
  | 14, 2 => some { classes := [2, 3], roles := 8 }
  | 15, 1 => some { classes := [3], roles := 1, mason := true }
  | 15, 2 => some { classes := [3], roles := 13, mason := true }
  | _, _ => none

/-- The engines that serve M jobs (R122). -/
def servesM (engine : Nat) : Bool := decide (1 ≤ engine) && decide (engine ≤ 6)

/-- The role and master a job table allows (R617: judged by the engine, ends REFUSED_ROLE). -/
def jobActorOk (d : Desc) (a : Actor) : Bool :=
  match jobRow d.engine d.opcode with
  | some r => r.roles.testBit a.role && (!(r.mason && a.role == 0) || a.master == 0x08)
              && !(d.engine == 10 && d.opcode == 7 && a.master == 0x08)
  | none => false

/-! ### Small operations -/

/-- A queue changed. -/
def modQueue (q : Nat) (f : QueueSt → QueueSt) (s : State) : State :=
  modFabric (fun fb => { fb with queues := upd fb.queues q f }) s

/-- A row of the granule table changed. -/
def modGran (g : Nat) (f : Granule → Granule) (s : State) : State :=
  modFabric (fun fb => { fb with grans := upd fb.grans g f }) s

/-- A job changed. -/
def modJob (id : Nat) (f : Job → Job) (s : State) : State :=
  modFabric (fun fb => { fb with jobs := fb.jobs.map fun j => if j.id = id then f j else j }) s

/-- A consequence queued for the end of the cycle. -/
def andThen (r : Reaction) (s : State) : State :=
  { s with faults := { s.faults with todo := s.faults.todo ++ [r] } }

/-- The Mason event of a kind with its parameter and argument (R131), taken at the end of the cycle. -/
def masonEvent (kind param arg : Nat) (s : State) : State := andThen (.mason kind param arg) s

/-- The running job that holds a tag. -/
def jobByTag (s : State) (tag : Nat) : Option Job := s.fabric.jobs.find? fun j => j.tag == some tag

/-- The job with a tag, where it runs on an engine with an opcode. -/
def runningJob (s : State) (tag engine opcode : Nat) : Option Job :=
  s.fabric.jobs.find? fun j => j.tag == some tag && j.phase == .running && j.desc.engine == engine
    && j.desc.opcode == opcode

/-- What a running job of an engine and opcode brings about; nothing where no such job holds the tag. -/
def onJob (tag engine opcode : Nat) (f : Job → State → State) (s : State) : State :=
  match runningJob s tag engine opcode with
  | none => s
  | some j => f j s

/-- The jobs of an engine that occupy it: on it, or ended by it and not yet completed. -/
def onEngine (s : State) (n : Nat) : List Job :=
  s.fabric.jobs.filter fun j => j.desc.engine == n && (match j.phase with
    | .running => true | .ended _ => true | _ => false)

/-- A shot pair is in progress (R51). -/
def shotPairRunning (s : State) : Bool := (onEngine s 4).any fun j => j.desc.opcode == 1

/-- Descriptors waiting in a queue's FIFO (Q_STATUS.FIFO). -/
def fifoLen (s : State) (q : Nat) : Nat :=
  (s.fabric.jobs.filter fun j => j.queue == q && j.phase == .waiting).length

/-- Tags drawn from a pool. -/
def tagUse (s : State) (p : Pool) : Nat := (s.fabric.jobs.filter fun j => j.tag.isSome && j.tagPool == p).length

/-- Tags held by the jobs of a class (TAG_USE). -/
def tagHeld (s : State) (cls : Nat) : Nat :=
  (s.fabric.jobs.filter fun j => j.tag.isSome && classOfQueue j.queue == cls).length

/-- Granules drawn from a pool. -/
def granUse (s : State) (p : Pool) : Nat :=
  (s.fabric.grans.toList.filter fun g => g.owner != 0xFF && g.pool == p).length

/-- The numbers of the tags nobody holds. -/
def freeTags (s : State) : List Nat :=
  (List.range 256).filter fun t => !(s.fabric.jobs.any fun j => j.tag == some t)

/-- The numbers of the granules that are free, zeroed and not retired (R127). -/
def freeGrans (s : State) : List Nat :=
  (List.range 192).filter fun g =>
    let x := nth s.fabric.grans g
    x.owner == 0xFF && !x.scrubbing && !x.retired

/-- One of a list of numbers: which one is a free value (the spec does not say which free tag or granule is drawn), but
where only one is left. -/
def pickFree (draw : Nat) (l : List Nat) : Option Nat :=
  match l with
  | [] => none
  | [x] => some x
  | _ => l[Config.freeIndex draw % l.length]?

/-- `n` different numbers of a list, each a free choice. -/
def pickMany (draw : Nat) : (n : Nat) → List Nat → List Nat
  | 0, _ => []
  | n + 1, l =>
    match pickFree draw l with
    | some g => g :: pickMany (draw + 1) n (l.filter (· != g))
    | none => []

/-- The owner code of a class and a role (R125). -/
def ownerCode (cls role : Nat) : Nat := cls * 64 + role * 8

/-- The granules of the list that starts at `head`, at most eight (the fabric's granule table). -/
def chainOf (s : State) (head : Nat) : List Nat :=
  (List.range 8).foldl (fun (acc : List Nat × Nat) _ =>
    if acc.2 < 192 && !acc.1.contains acc.2 then (acc.1 ++ [acc.2], (nth s.fabric.grans acc.2).next)
    else acc) (([] : List Nat), head) |>.1

/-- Something still holds a granule: a job, a ring record, a port, or the current temperature record (R128). -/
def granHeld (s : State) (g : Nat) : Bool :=
  s.fabric.jobs.any (fun j => j.outs.contains g || j.ins.contains g)
  || s.fabric.queues.toList.any (fun q => q.ring.any fun r => r.holds.contains g)
  || (nth s.fabric.grans g).port.isSome || (nth s.fabric.grans g).published || decide (0 < (nth s.fabric.grans g).lent)

/-- A granule freed: it goes to the scrubber (R127). -/
def freeGran (g : Nat) (s : State) : State :=
  modGran g (fun x => if x.owner = 0xFF then x else
    { x with owner := 0xFF, scrubbing := true, next := 0xFF, pool := .none, port := none, published := false }) s

/-- A granule freed where nothing holds it any more (R128). -/
def releaseGran (g : Nat) (s : State) : State := if granHeld s g then s else freeGran g s

def releaseGrans (gs : List Nat) (s : State) : State := gs.foldl (fun t g => releaseGran g t) s

/-- Granules lent to a job return to their owners (R126). -/
def unlend (gs : List Nat) (s : State) : State :=
  gs.foldl (fun t g => modGran g (fun x => { x with lent := x.lent - 1 }) t) s

/-- `k` bytes of a granule list from its first byte. -/
def granBytes (s : State) (gs : List Nat) : List Byte := gs.flatMap fun g => s.sram.read 0 (g * 512) 512

/-- The order in which predecessors' outputs fill the input heads that the descriptor leaves open: ascending, and for a
cipher job its payload first (R125, Tables 11.7 and 13.9; log 35, DEDUCED). -/
def headOrder (d : Desc) : List Nat := if d.engine = 13 then [2, 0, 1, 3] else [0, 1, 2, 3]

/-- The predecessor whose output stands for the open head `i`. -/
def predOf (j : Job) (i : Nat) : Option Pred :=
  j.preds[(((headOrder j.desc).takeWhile (· != i)).filter fun x => decide (192 ≤ at0 j.desc.inHeads x)).length]?

/-- The bytes of a job's `i`-th input: the list of its head, or what a predecessor passed on where the head is none. -/
def inputBytes (s : State) (j : Job) (i : Nat) : List Byte :=
  let h := at0 j.desc.inHeads i
  if h < 192 then granBytes s (chainOf s h)
  else match predOf j i with
    | some p => granBytes s (chainOf s p.head)
    | none => []

/-- Bytes written into a list of granules, 512 in each. -/
def fillGrans (gs : List Nat) (bs : List Byte) (s : State) : State :=
  gs.zipIdx.foldl (fun t g =>
    { t with sram := t.sram.write 0 (g.1 * 512) ((bs.drop (512 * g.2)).take 512) }) s

/-- The granules of a list linked through their NEXT fields. -/
def linkGrans (gs : List Nat) (s : State) : State :=
  gs.zipIdx.foldl (fun t g => modGran g.1 (fun x => { x with next := (gs[g.2 + 1]?).getD 0xFF }) t) s

/-! ### Fenced engines and queues -/

/-- The engine's unit is fenced (Table 15.4), or the chip is grave. -/
def engineFenced (s : State) (n : Nat) : Bool :=
  s.faults.grave || (match n with
    | 1 => (winOf s .front).fenced | 2 => (winOf s .scribe).fenced | 3 => (winOf s .ftu).fenced
    | 4 => (winOf s .shot).fenced | 5 => (winOf s .shot).fenced | 6 => (winOf s .temp).fenced
    | 7 => (winOf s .integ).fenced | 8 => (winOf s .bill).fenced | 9 => (winOf s .tamper).fenced
    | 10 => (winOf s .journal).fenced | 11 => (winOf s .radio).fenced | 12 => (winOf s .link).fenced
    | 13 => (winOf s .cipher).fenced | 14 => (winOf s .entropy).fenced | 15 => (winOf s .lcd).fenced
    | _ => false)

/-- Q_ENABLE of a queue. -/
def queueEnabled (s : State) (q : Nat) : Bool := at0 (items s).fabric.qEnable q == 1

/-- Q_ENGINES of a queue. -/
def queueEngines (s : State) (q : Nat) : Nat := at0 (items s).fabric.qEngines q

/-- A queue is fenced when it names only fenced engines (R524), or in the grave state (R526). -/
def queueFenced (s : State) (q : Nat) : Bool :=
  s.faults.grave || (queueEngines s q != 0 &&
    (List.range 16).all fun n => !(queueEngines s q).testBit n || engineFenced s n)

/-! ### Completion rings -/

/-- The four words of a completion record (Table 3.3). -/
def Cpl.word (c : Cpl) (i : Nat) : Nat :=
  match i with
  | 0 => c.status.code + c.tag * 2 ^ 8 + c.queue * 2 ^ 16 + b2n c.noTag * 2 ^ 22 + b2n c.inherited * 2 ^ 23
         + c.beat * 2 ^ 24
  | 1 => c.winner + c.qflags % 256 * 2 ^ 8 + satNat 16 c.retryS * 2 ^ 16
  | 2 => c.outHead + c.outCount % 16 * 2 ^ 8 + c.result % 2 ^ 20 * 2 ^ 12
  | _ => c.user % 2 ^ 16 + c.seq * 2 ^ 16

/-- The sixteen bytes of a completion record. -/
def Cpl.bytes (c : Cpl) : List Byte := (List.range 4).flatMap fun i => bytesLE 4 (c.word i)

/-- A record written to its queue's ring; a full ring loses its oldest record (R130). The event of kind 7 follows. -/
def pushRing (c : Cpl) (s : State) : State :=
  let q := nth s.fabric.queues c.queue
  let cap := at0 (items s).fabric.qRingLen c.queue
  let s1 := if q.ring.length < cap then modQueue c.queue (fun q => { q with ring := q.ring ++ [c] }) s
    else
      let lost := (q.ring.head?.map (·.holds)).getD []
      let t := modQueue c.queue (fun q => { q with ring := q.ring.drop 1 ++ [c], overrun := true }) s
      raise Src.ringOverrun (releaseGrans lost (modFabric (fun f => { f with overruns := satInc f.overruns }) t))
  masonEvent 7 c.queue 0 s1

/-- The oldest record of a ring taken out, and the granules it held freed (R128, R571). -/
def popRing (q : Nat) (s : State) : State :=
  match (nth s.fabric.queues q).ring with
  | [] => s
  | c :: rest => releaseGrans c.holds (modQueue q (fun x => { x with ring := rest }) s)

/-! ### Endings -/

/-- The class named as the one that beat a C or H job: the one holding most shared tags, M before B before C where two hold
equally many, or its own (Table 3.4; log 39, DESIGN CHOICE). -/
def beatOf (s : State) (cls : Nat) : Nat :=
  let n := fun c => (s.fabric.jobs.filter fun j => j.tag.isSome && j.tagPool == .shared
    && classOfQueue j.queue == c).length
  if n 0 = 0 && n 1 = 0 && n 2 = 0 then cls + 1
  else if n 1 ≤ n 0 && n 2 ≤ n 0 then 1 else if n 2 ≤ n 1 then 2 else 3

/-- The opcodes a port job is not audited for (R498). -/
def auditedJob (d : Desc) : Bool :=
  !([(10, 2), (10, 3), (14, 1), (2, 1), (6, 2), (1, 2), (1, 1), (3, 1), (3, 2)].contains (d.engine, d.opcode))

/-- The audit record of a port or radio job, and of every ACC_RESET, with its completion words (R287, R498, Table 14.7
kind 2). -/
def auditJob (a : Actor) (q : Nat) (d : Desc) (c : Cpl) (s : State) : State :=
  if (1 ≤ a.master && a.master ≤ 5 && auditedJob d) || (d.engine == 7 && d.opcode == 2) then
    andThen (.audit {
      kind := 2, role := a.role, master := a.master,
      item := q + d.engine * 2 ^ 8 + d.opcode * 2 ^ 12,
      old := d.args.flatMap fun w => bytesLE 4 w.toNat,
      new := (List.range 3).flatMap fun i => bytesLE 4 (c.word i), status := c.status.code,
      radio := radioMaster a.master }) s
  else s

/-- Counters a completion moves (Table 3.9, ENERGY_REFUSED of Table 2.10). -/
def countEnding (cls : Nat) (st : Status) (s : State) : State :=
  modGov (fun g => { g with refused := if st = .refusedEnergy then satInc g.refused else g.refused }) <|
  modFabric (fun f =>
    { f with
      refuseC := if cls = 2 && st.refused then satInc f.refuseC else f.refuseC
      refuseH := if cls = 3 && st.refused then satInc f.refuseH else f.refuseH
      deferC := if cls = 2 && st = .deferred then satInc f.deferC else f.deferC
      deferH := if cls = 3 && st = .deferred then satInc f.deferH else f.deferH
      conflicts := if st = .conflictLost then satInc f.conflicts else f.conflicts
      timeouts := if st = .timeout then upd f.timeouts cls satInc else f.timeouts }) s

/-- The record and the releases of a job that ends before it holds a tag, or that is evicted, without its chaining (R111,
NO_TAG = 1 unless it held a tag). -/
def endAlone (j : Job) (st : Status) (beat retryS : Nat) (s : State) : State :=
  let c : Cpl := {
    status := st, tag := j.tag.getD 0, queue := j.queue, noTag := j.tag.isNone, beat := beat,
    retryS := retryS, user := j.desc.user, seq := j.seq.toNat, notify := j.desc.notify }
  let s1 := modFabric (fun f => { f with
    jobs := f.jobs.filter fun x => x.id != j.id, stalled := f.stalled.filter fun x => x.id != j.id }) s
  let s2 := countEnding (classOfQueue j.queue) st s1
  let s3 := if st = .deferred && j.desc.autoRetry && !j.final then
      modFabric (fun f => { f with retries := f.retries ++
        [⟨s.time.ticks + retryS * 32768, j.queue, j.desc, j.actor⟩] }) s2
    else s2
  let s4 := noteCtx j.id st s3
  auditJob j.actor j.queue j.desc c (pushRing c (releaseGrans (j.outs ++ j.ins ++ j.lent) (unlend j.lent s4)))
where
  /-- The Mason context that waits for this job learns its status (R620). -/
  noteCtx (id : Nat) (st : Status) (s : State) : State :=
    modMason (fun m =>
      { m with ctxs := m.ctxs.map fun c => if c.lastJob == some id then { c with lastEnd := some st } else c }) s

/-- Three consecutive TIMEOUT completions on one engine raise ENGINE_STUCK (R109); any other ending on it starts the
count again. A class B ENGINE_STUCK fences the stuck engine's unit (R133). -/
def countStuck (engine : Nat) (st : Status) (s : State) : State :=
  if st = .timeout then
    let n := nth s.fabric.stuck engine + 1
    if 3 ≤ n && engine != 0 then
      let t := raise Src.engineStuck (modFabric (fun f => { f with stuck := put f.stuck engine 0 }) s)
      if classOf t Src.engineStuck = 1 && !isRaised s Src.engineStuck then
        (unitsOf engine).foldl (fun u x => andThen (.fence x Src.engineStuck) u) t
      else t
    else modFabric (fun f => { f with stuck := put f.stuck engine n }) s
  else modFabric (fun f => { f with stuck := put f.stuck engine 0 }) s
where
  /-- The units that a stuck engine fences (R133). -/
  unitsOf (n : Nat) : List FaultUnit :=
    match n with
    | 1 => [.frontPath 0, .frontPath 1] | 2 => [.scribe] | 3 => [.ftu] | 4 => [.shot] | 5 => [.shot]
    | 6 => [.temp] | 7 => [.integ] | 8 => [.bill] | 9 => [.tamper] | 10 => [.journal] | 11 => [.radio]
    | 12 => [.link] | 13 => [.cipher] | 14 => [.entropy] | 15 => [.lcd] | _ => []

/-- The completion of one admitted job without its chaining: counters, output granules, record, releases
(R82, R109, R111, R126 to R130, R139). -/
def completeOne (j : Job) (r : JobResult) (inherited passed : Bool) (s : State) : State × Nat :=
  let cls := classOfQueue j.queue
  let onEng := match j.phase with
    | .running => true | .ended _ => true | _ => false
  let s1 := modFabric (fun f => { f with jobs := f.jobs.filter fun x => x.id != j.id }) s
  let s2 := countEnding cls r.status s1
  let s3 := if r.status = .timeout then raise (Src.timeoutOf cls) s2
    else if r.status = .brownout then
      raise Src.brownout (modLintel (fun l => { l with brownouts := satInc l.brownouts }) s2)
    else s2
  let s4 := if onEng then countStuck j.desc.engine r.status s3 else s3
  let used := if inherited then [] else j.outs.take (ceilDiv r.out.length 512)
  let s5 := linkGrans used (fillGrans used r.out s4)
  let s6 := unlend j.lent s5
  let c : Cpl := {
    status := r.status, tag := j.tag.getD 0, queue := j.queue, noTag := j.tag.isNone,
    inherited := inherited, beat := r.beat, winner := r.winner, qflags := r.qflags, retryS := r.retryS,
    outHead := used.headD 0xFF, outCount := used.length, result := r.result, user := j.desc.user,
    seq := j.seq.toNat, notify := j.desc.notify, holds := if passed then [] else used }
  let s7 := if r.status = .deferred && j.desc.autoRetry && !j.final then
      modFabric (fun f => { f with retries := f.retries ++
        [⟨s.time.ticks + r.retryS * 32768, j.queue, j.desc, j.actor⟩] }) s6
    else s6
  let s8 := pushRing c (endAlone.noteCtx j.id r.status s7)
  let keep := if passed then used else []
  let s9 := releaseGrans ((j.outs ++ j.ins ++ j.lent).filter fun g => !keep.contains g) s8
  let s9b := if j.desc.engine = 4 && j.desc.opcode = 1 then andThen (.pairEnd j.queue (j.desc.arg 0 % 2) j.id r.status) s9
    else s9
  let s10 := modMason (fun m =>
    { m with ctxs := m.ctxs.map fun c => if c.job == some j.id then {} else c }) s9b
  (auditJob j.actor j.queue j.desc c s10, used.headD 0xFF)

/-- The worse of two statuses for R114: the first that is no normal end. -/
def worse (a b : Status) : Status := if a.ok then b else a

/-- The held job that a completion releases (R113); of two with one CHAIN_ID in a queue, the first of the job list (log 39,
DESIGN CHOICE). -/
def heldTarget (s : State) (d : Desc) : Option Job :=
  if d.nextEn then s.fabric.jobs.find? fun h => h.queue == d.nextQ && h.desc.chainId == d.nextId &&
    (match h.phase with | .held _ => true | _ => false)
  else none

/-- A STEP that becomes ready is lent the current temperature record, where its meter takes one (R257, R269). -/
def lendTemp (id : Nat) (s : State) : State :=
  match s.temp.current, s.fabric.jobs.find? (fun j => j.id == id) with
  | some g, some j =>
    if j.desc.engine = 7 && j.desc.opcode = 1 && j.phase == .ready && j.tempGran.isNone && takesTemp s then
      modGran g (fun x => { x with lent := x.lent + 1 })
        (modJob id (fun x => { x with lent := x.lent ++ [g], tempGran := some g }) s)
    else s
  | _, _ => s

/-- Input granules of a job: those that pass to it, of its own owner, and those it is lent, of another owner or
PUBLISHED (R125, R126). -/
def ownAndLent (s : State) (j : Job) (gs : List Nat) : List Nat × List Nat :=
  gs.partition fun g => !(nth s.fabric.grans g).published
    && (nth s.fabric.grans g).owner == ownerCode (classOfQueue j.queue) j.actor.role

/-- Granules lent to a job (R126). -/
def lendGrans (gs : List Nat) (s : State) : State :=
  gs.foldl (fun t g => modGran g (fun x => { x with lent := x.lent + 1 }) t) s

/-- A held job released by one predecessor, whose outputs pass or are lent to it; at its last it is ready (R113, R114,
R120, R125). -/
def releaseHeld (h : Job) (p : Pred) (s : State) : State :=
  let (mine, theirs) := ownAndLent s h (if p.head < 192 then chainOf s p.head else [])
  lendTemp h.id (modJob h.id (fun x =>
    { x with
      preds := x.preds ++ [p]
      ins := x.ins ++ mine
      lent := x.lent ++ theirs
      readyAt := s.time.ticks
      phase := match x.phase with
        | .held n => if n ≤ 1 then .ready else .held (n - 1)
        | q => q }) (lendGrans theirs s))

/-- What a STRICT held job inherits of a failing predecessor's ending: its status with what Table 3.4 says of it (R112,
R114). -/
def JobResult.inherited (r : JobResult) : JobResult := { r with out := [], result := 0, qflags := 0 }

/-- A job completed with its chaining (R111, R113, R114). `fuel` bounds the chain of STRICT inheritances; at most
256 jobs hold tags. -/
def complete : (fuel : Nat) → (id : Nat) → (r : JobResult) → (inherited : Bool) → State → State
  | 0, _, _, _, s => s
  | fuel + 1, id, r, inherited, s =>
    match s.fabric.jobs.find? (fun j => j.id == id) with
    | none => s
    | some j =>
      let target := (heldTarget s j.desc).filter fun h => h.id != id
      let strictEnd := match target with
        | some h => h.desc.strict && !r.status.ok
        | none => false
      let (s1, head) := completeOne j r inherited (target.isSome && !strictEnd) s
      match target with
      | none => if j.desc.nextEn then raise Src.chainMiss s1 else s1
      | some h =>
        if strictEnd then complete fuel h.id r.inherited true s1
        else releaseHeld h ⟨head, r.status, r.result, r.qflags⟩
          (if j.tpl.isNone then s1 else modJob h.id (fun x => { x with tpl := j.tpl }) s1)

/-- A job completed, found by its identity. -/
def completeJob (id : Nat) (r : JobResult) (s : State) : State := complete 257 id r false s

/-- A job that ends before it holds a tag, or that is evicted, with its chaining: every completion whose NEXT_EN is set
releases, hands a STRICT job its status, or raises CHAIN_MISS (R111, R113, R114). -/
def endEarly (j : Job) (st : Status) (beat retryS : Nat) (s : State) : State :=
  let s1 := endAlone j st beat retryS s
  match (heldTarget s j.desc).filter fun h => h.id != j.id with
  | none => raiseIf j.desc.nextEn Src.chainMiss s1
  | some h =>
    if h.desc.strict && !st.ok then complete 257 h.id { status := st, beat := beat, retryS := retryS } true s1
    else releaseHeld h ⟨0xFF, st, 0, 0⟩ s1

/-- The result of a job that the fabric ends with a status: its engine's own ending stands where R20 ranks it first. -/
def Job.endsWith (j : Job) (st : Status) : JobResult :=
  match j.phase with
  | .ended r => if r.status.precedence < st.precedence then r else { status := st }
  | _ => { status := st }

/-- A job completed with a bare status, or with what its engine had ended it with where that comes first (R20). -/
def completeWith (id : Nat) (st : Status) (s : State) : State :=
  match s.fabric.jobs.find? (fun j => j.id == id) with
  | none => s
  | some j => if j.tag.isNone then endEarly j st 0 0 s else completeJob id (j.endsWith st) s

/-- A job, admitted, waiting or stalled, completed with a bare status. -/
def endJob (j : Job) (st : Status) (s : State) : State :=
  if s.fabric.stalled.any (fun x => x.id == j.id) then endEarly j st 0 0 s else completeWith j.id st s

/-- Jobs in ascending order of their engines (R130), those of one engine in the order of the job list (log 39, DESIGN
CHOICE). -/
def byEngine (l : List Job) : List Job :=
  ((List.range 16).flatMap fun n => l.filter fun j => j.desc.engine == n) ++ l.filter fun j => decide (16 ≤ j.desc.engine)

/-- Every job that satisfies a test completed with a status in one cycle (R130). -/
def completeAll (p : Job → Bool) (st : Status) (s : State) : State :=
  (byEngine ((s.fabric.jobs ++ s.fabric.stalled).filter p)).foldl (fun t j => endJob j st t) s

/-- The engine of a running job ends it; the record follows with JOB_COMPLETION. -/
def engineEnds (id : Nat) (r : JobResult) (s : State) : State := modJob id (fun j => { j with phase := .ended r }) s

/-! ### Admission -/

/-- An H job names a granule it may not use, or a descriptor is not well formed (R617, R125). -/
def wellFormed (s : State) (q : Nat) (d : Desc) : Bool :=
  let cls := classOfQueue q
  (queueEngines s q).testBit d.engine
  && (match jobRow d.engine d.opcode with
      | some r => r.classes.contains cls && (!(servesM d.engine && cls == 3) || r.diag)
      | none => false)
  && !(servesM d.engine && (cls == 1 || cls == 2))
  && decide (d.outCount ≤ 8) && (if d.hold then within 1 3 d.wait else d.wait == 0) && !d.reservedSet

/-- A granule is an output of a job that is to release this held job (R125). -/
def predOut (s : State) (q : Nat) (d : Desc) (g : Nat) : Bool :=
  d.hold && s.fabric.jobs.any fun p =>
    p.desc.nextEn && p.desc.nextQ == q && p.desc.nextId == d.chainId && p.outs.contains g

/-- Each input head names granules of the job's own owner, output granules of a predecessor, or PUBLISHED ones
(R125). -/
def headsOk (s : State) (q : Nat) (a : Actor) (d : Desc) : Bool :=
  d.inHeads.all fun h => h == 0xFF || (decide (h < 192) && (chainOf s h).all fun g =>
    let x := nth s.fabric.grans g
    x.published || x.owner == ownerCode (classOfQueue q) a.role || predOut s q d g)

/-- A master that is a port (R108). -/
def isPort (m : Nat) : Bool := decide (1 ≤ m) && decide (m ≤ 5)

/-- Checks 2 to 5 of Table 3.5. -/
def admissionCheck (s : State) (q : Nat) (a : Actor) (d : Desc) : Option Status :=
  if !queueEnabled s q || queueFenced s q then some .fenced
  else if isPort a.master && (classOfQueue q < 2 || !(at0 (items s).fabric.qPorts q).testBit (a.master - 1))
    then some .refusedPolicy
  else if isPort a.master && !((items s).roles.holders (.queue q)).testBit a.role then some .refusedRole
  else if !(wellFormed s q d && headsOk s q a d) then some .refusedPolicy
  else none

/-- Seconds to the next governor-day roll, saturated (R86). -/
def secondsToRoll (s : State) : Nat :=
  satNat 16 (ceilDiv (86400 * 32768 - (s.time.d04 - s.lintel.gov.dayStart) % (86400 * 32768)) 32768)

/-- ALLOW before its clamp (R84). -/
def allowWanted (p : PowerItems) (usedUc day : Nat) : Nat :=
  (p.cellUsableMc - usedUc / 1000) * 1000 / max 1 (p.designDays - day)

/-- The allowance evaluated for a day, with the loop's bounds (R2 to R4, R84). Chapter 2 does not say when ALLOW sits on a
bound: the model counts an evaluation only where the wanted value lies outside the bounds (log 36, DESIGN CHOICE). -/
def allowFor (p : PowerItems) (day : Nat) (g : Governor) : Governor :=
  let want := allowWanted p g.usedUc day
  let allow := clampN want p.allowMin p.allowMax
  let run := boundRun g.clampRun (want != allow)
  { g with
    allow := allow, clampRun := run, clamped := decide (8 ≤ run), clampCount := boundCount g.clampCount run }

/-- The governor after one roll: the allowance of the day, the spend copied and cleared (R84). -/
def rolledFor (p : PowerItems) (day : Nat) (g : Governor) : Governor :=
  { allowFor p day g with
    yesterday := g.today, today := Vector.replicate 8 0, cSpent := 0, hSpent := 0
    cExhausted := false, hExhausted := false, throttle := false }

/-- Rolls can be evaluated: the main domain runs and the mount of this start, with its restoration, has ended (R616). -/
def rollsRun (s : State) : Bool := s.boot.running && s.journal.mounted && !s.journal.restoreDue

/-- The day's counters that an admission is judged against: those after a roll that is due now (R104). -/
def dayCounters (s : State) : Governor :=
  let g := s.lintel.gov
  if counted s g.dayStart (secTicks 86400) && rollsRun s && g.held.isEmpty then
    rolledFor (items s).power (min (g.dayIndex + 1) 65535) g
  else g

/-- START_UC and the charge of `us` µs at `ma` mA, µC rounded up (R394). -/
def airCharge (s : State) (us ma : Nat) : Nat := (items s).radio.startUc + ceilDiv (us * ma) 1000

/-- The trimmed transmit current for a power. -/
def txMa (s : State) (dbm : Int) : Nat := Config.txCurrent (otpBytes s 0x10 240) dbm

/-- The template of the telegram that a chain with a CHAIN_ID carries, found back along the jobs that release each other
(R113, R394): from a job that carries it already, or from its BUILD. `fuel` bounds the chain. -/
def chainTpl : (fuel : Nat) → List (Desc × Option Nat) → Nat → Option Nat
  | 0, _, _ => none
  | n + 1, ds, id => ds.findSome? fun p =>
    if p.1.nextEn && p.1.nextId == id && classOfQueue p.1.nextQ == 2 then
      p.2 <|> (if p.1.engine = 11 && p.1.opcode = 1 then some (p.1.arg 0 % 16) else chainTpl n ds p.1.chainId)
    else none

/-- The template of a SEND's telegram at its admission: by its chain's jobs, else by the image's job templates, else the
one built last (log 14, DEDUCED). -/
def sendTpl (s : State) (d : Desc) : Nat :=
  let jobs := (s.fabric.jobs ++ s.fabric.stalled).map fun j => (j.desc, j.tpl)
  let rows := (items s).mason.templates.map fun w => (Desc.ofWords w, none)
  (chainTpl 4 (jobs ++ rows) d.chainId).getD s.radio.builtTpl

/-- The estimated charge of a job, µC (R394, R429; the spec gives estimates of radio jobs only, log 14, DEDUCED). -/
def jobEstimate (s : State) (d : Desc) (payload : List Byte) : Nat :=
  let r := (items s).radio
  let l := (items s).link
  let w := s.radio.watch
  if d.engine != 11 then 0
  else match d.opcode with
    | 2 => airCharge s (at0 (if watchProfile w = 1 then r.estAirF else r.estAirP) (sendTpl s d)) (txMa s (r.drivePower w))
    | 3 => airCharge s (gyaleAir (bits 6 6 (d.arg 2)) (bits 7 7 (d.arg 2)) payload.length)
        (txMa s (nth s.radio.txp (at0 l.plans (b2n s.link.planF)).port))
    | 4 => r.startUc + ceilDiv (d.arg 1 % 2 ^ 24 * 58) 10000
    | 5 => airCharge s (at0 r.estAirP s.radio.builtTpl) (txMa s (r.drivePower 0))
    | 6 => airCharge s (d.arg 2 * 1000) (txMa s ((d.arg 1 % 32 : Nat) - 10))
    | _ => 0

/-- Check 7 of Table 3.5: the class's spend of the day `g` plus the estimate exceeds its share of ALLOW (R86). -/
def energyOver (g : Governor) (s : State) (cls : Nat) (d : Desc) (payload : List Byte) : Bool :=
  let p := (items s).power
  let est := jobEstimate s d payload
  if cls = 2 then decide (g.allow * p.cShare / 256 < g.cSpent + est)
  else if cls = 3 then decide (g.allow * p.hShare / 256 < g.hSpent + est)
  else false

/-- A job is refused for energy (R86), judged against the new day's counters where a roll falls in its cycle (R104). -/
def energyRefused (s : State) (cls : Nat) (d : Desc) (payload : List Byte) : Bool :=
  energyOver (dayCounters s) s cls d payload

/-- A job of a class before this one waits for a tag or granule: what is released to the shared pool is its to take first
(R117, R135). -/
def betterWaits (s : State) (cls : Nat) : Bool :=
  s.fabric.jobs.any fun j => decide (classOfQueue j.queue < cls) && j.phase == .waiting

/-- Granules that waiting M jobs are to be admitted with before any other class draws on them (R117). -/
def grantedFirst (s : State) (cls : Nat) : Nat :=
  if cls = 0 then 0
  else (s.fabric.jobs.filter fun j => classOfQueue j.queue == 0 && j.phase == .waiting).foldl
    (fun n j => n + j.desc.outCount) 0

/-- The pool a job's tag would come from (R116, R117). -/
def tagSource (s : State) (j : Job) : Option Pool :=
  let c := classOfQueue j.queue
  let credits := s.fabric.jobs.foldl (fun n x => n + x.creditTags) 0
  if 0 < j.creditTags then some .lent
  else if tagUse s (.reserve c) + (if c = 3 then tagUse s .lent + credits else 0) < tagReserve c then some (.reserve c)
  else if c != 3 && !betterWaits s c && tagUse s .shared < 32 then some .shared
  else none

/-- The pools a job's output granules would come from, none where they do not suffice (R116, R117). -/
def granBudget (s : State) (j : Job) : Option (List Pool) :=
  let c := classOfQueue j.queue
  let n := j.desc.outCount
  let f := (items s).fabric
  let owed := if c = 3 then granUse s .lent + s.fabric.jobs.foldl (fun acc x => acc + x.creditGran) 0 else 0
  let k1 := min n j.creditGran
  let k2 := min (n - k1) (f.granReserve c - (granUse s (.reserve c) + owed))
  let k3 := if c != 3 && !betterWaits s c then min (n - k1 - k2) (f.granShared - granUse s .shared) else 0
  if k1 + k2 + k3 = n then
    some (List.replicate k1 .lent ++ List.replicate k2 (.reserve c) ++ List.replicate k3 .shared)
  else none

/-- The pools of `granBudget`, where as many granules are zeroed and not kept for a waiting M job (R117, R127, R138). -/
def granSources (s : State) (j : Job) : Option (List Pool) :=
  if j.desc.outCount = 0 ∨ j.desc.outCount + grantedFirst s (classOfQueue j.queue) ≤ (freeGrans s).length then
    granBudget s j
  else none

/-- A waiting job given its tag and granules, where they are there (R116). -/
def tryAdmit (id : Nat) (s : State) : Option State :=
  match s.fabric.jobs.find? (fun j => j.id == id && j.phase == .waiting) with
  | none => none
  | some j =>
    match tagSource s j, granSources s j, pickFree s.draws (freeTags s) with
    | some tp, some gp, some tag =>
      let gs := pickMany (s.draws + 1) j.desc.outCount (freeGrans s)
      let own := ownerCode (classOfQueue j.queue) j.actor.role
      let t1 := gs.zipIdx.foldl (fun t g =>
        modGran g.1 (fun x => { x with owner := own, pool := at0 gp g.2, next := (gs[g.2 + 1]?).getD 0xFF }) t) s
      let heads := (j.desc.inHeads.filter (· < 192)).flatMap (chainOf s)
      let (mine, theirs) := ownAndLent s j heads
      let t2 := lendGrans theirs t1
      let t3 := mine.foldl (fun t g => modGran g (fun x => { x with port := none }) t) t2
      some { lendTemp id <| modJob id (fun x => { x with
               tag := some tag, tagPool := tp, outs := gs, ins := mine, lent := theirs,
               creditTags := x.creditTags - 1, creditGran := x.creditGran - min j.desc.outCount x.creditGran,
               admittedAt := s.time.ticks,
               phase := if x.desc.hold then .held x.desc.wait else .ready }) t3 with
             draws := s.draws + 1 + j.desc.outCount }
    | _, _, _ => none

/-- The oldest queued H job that holds what an M job lacks, for an eviction: any, where it lacks a tag, else one with
granules (R117, R136). Age goes by submission (log 39, DESIGN CHOICE). -/
def evictable (s : State) (m : Job) : Option Job :=
  if (tagSource s m).isSome && (granBudget s m).isSome then none
  else s.fabric.jobs.find? fun h => classOfQueue h.queue == 3 && h.tag.isSome
    && (match h.phase with | .held _ => true | .ready => true | _ => false)
    && ((tagSource s m).isNone || decide (0 < h.outs.length))

/-- An M job that finds no tag or granule evicts queued H jobs, whose tags and granules it is lent, until it lacks nothing
or none is left (R117). `fuel` bounds their number: each brings a tag or a granule, and it needs one tag and at most eight
granules. -/
def evictFor : (fuel id : Nat) → State → State
  | 0, _, s => s
  | fuel + 1, id, s =>
    match s.fabric.jobs.find? (fun j => j.id == id) with
    | none => s
    | some m =>
      match evictable s m with
      | none => s
      | some h =>
        evictFor fuel id (modJob id (fun x =>
            { x with creditTags := x.creditTags + 1, creditGran := x.creditGran + h.outs.length })
          (endEarly h .refusedCapacity 1 1 (modFabric (fun f => { f with evicts := satInc f.evicts }) s)))

/-- A waiting job as the fabric tries to admit it: an M job evicts what it lacks first (R116, R117). -/
def admitJob (j : Job) (s : State) : State × Bool :=
  let s1 := if classOfQueue j.queue = 0 then evictFor 9 j.id s else s
  match tryAdmit j.id s1 with
  | some t => (t, true)
  | none => (s1, false)

/-- A job put into its FIFO and admitted at once where nothing before it waits: none of its queue, and for an M job no
other M job (R116 to R119). -/
def enterFifo (j : Job) (s : State) : State :=
  let cls := classOfQueue j.queue
  let ahead := s.fabric.jobs.any fun x => x.phase == .waiting && (x.queue == j.queue || (cls == 0 && classOfQueue x.queue == 0))
  let s1 := modFabric (fun f => { f with jobs := f.jobs ++ [j] }) s
  let r := if ahead then (s1, false) else admitJob j s1
  if r.2 || cls != 1 then r.1
  else modFabric (fun f => { f with bDelay := satInc f.bDelay }) (modJob j.id (fun x => { x with delayed := true }) r.1)

/-- A stalled descriptor taken into a FIFO entry that has freed (R118). -/
def takeStalled (s : State) : State :=
  match s.fabric.stalled.find? (fun j => decide (fifoLen s j.queue < 8)) with
  | none => s
  | some j => enterFifo j (modFabric (fun f => { f with stalled := f.stalled.filter fun x => x.id != j.id }) s)

/-- A job goes before another at dispatch (R121): class, priority, admission age. -/
def goesBefore (s : State) (a b : Job) : Bool :=
  let ca := classOfQueue a.queue
  let cb := classOfQueue b.queue
  let pa := at0 (items s).fabric.qPriority a.queue
  let pb := at0 (items s).fabric.qPriority b.queue
  if ca ≠ cb then decide (ca < cb)
  else if pa ≠ pb then decide (pb < pa)
  else if a.admittedAt ≠ b.admittedAt then decide (a.admittedAt < b.admittedAt)
  else decide (a.id < b.id)

/-- The first of a list of jobs by an order. -/
def firstBy (before : Job → Job → Bool) (l : List Job) : Option Job :=
  l.foldl (fun (m : Option Job) j => match m with
    | none => some j
    | some x => if before j x then some j else some x) none

/-- The jobs at the head of their FIFOs. -/
def fifoHeads (s : State) : List Job :=
  (s.fabric.jobs.filter (·.phase == .waiting)).foldl (fun l j => if l.any (·.queue == j.queue) then l else l ++ [j]) []

/-- The order in which waiting jobs take what is released (R135): class, then priority and age. -/
def waitsBefore (s : State) (a b : Job) : Bool := goesBefore s { a with admittedAt := a.at_ } { b with admittedAt := b.at_ }

/-- The heads in their order, one after the other, until one is admitted; evictions made for an M job stand. `fuel` bounds
their number. -/
def admitFirst : (fuel : Nat) → List Job → State → State × Bool
  | 0, _, s => (s, false)
  | fuel + 1, l, s =>
    match firstBy (waitsBefore s) l with
    | none => (s, false)
    | some j =>
      match admitJob j s with
      | (t, true) => (t, true)
      | (t, false) => admitFirst fuel (l.filter fun x => x.id != j.id) t

/-- One stalled descriptor taken and one waiting job admitted, where there are such (R117, R118, R135). -/
def admitNext (s : State) : State × Bool :=
  let s1 := takeStalled s
  admitFirst 64 (fifoHeads s1) s1

/-- A C or H job that has waited Q_WAIT_MS in its FIFO ends DEFERRED (R119). -/
def waitOver (s : State) (j : Job) : Bool :=
  j.phase == .waiting && decide (2 ≤ classOfQueue j.queue)
    && passed s j.at_ (msTicks (at0 (items s).fabric.qWaitMs j.queue))

/-- What has freed by now for those that wait: expired entries leave, and waiting jobs are admitted in their order before
a new one is looked at (R117, R118, R135, R141). `fuel` bounds the admissions. -/
def admitWaiting : (fuel : Nat) → State → State
  | 0, s => s
  | fuel + 1, s =>
    if s.fabric.jobs.any (·.phase == .waiting) || !s.fabric.stalled.isEmpty then
      match admitNext s with
      | (t, true) => admitWaiting fuel t
      | (t, false) => t
    else s

/-- Every expired FIFO entry of a queue ended DEFERRED (R119, R141). -/
def expireWaits (q : Nat) (s : State) : State :=
  (s.fabric.jobs.filter fun j => j.queue == q && waitOver s j).foldl (fun t j =>
    endEarly j .deferred (beatOf t (classOfQueue q)) 1 t) s

/-- A billing-commit lock is held (R313). -/
def billLocked (s : State) : Bool :=
  match s.mason.lock with
  | some (.billingCommit, _) => true
  | _ => false

/-- A Mason context runs the recipe of a wake: event 9 with parameter 0x10 (R402). -/
def wakeContext (s : State) (ctx : Option Nat) : Bool :=
  match ctx with
  | none => false
  | some i =>
    let c := nth s.mason.ctxs i
    c.busy && c.kind == 9 && (items s).mason.events.any fun e => e.kind == 9 && e.param == 0x10 && e.recipe == c.recipe

/-- A descriptor submitted to a queue (Table 3.5, checks 2 to 8): ended at once, stalled, queued or admitted; a BILL_COMMIT
is marked where a billing-commit lock is held, a SEND where a wake's recipe submits it. -/
def submitJob (a : Actor) (q : Nat) (d : Desc) (payload : List Byte) (ctx : Option Nat) (final : Bool)
    (s : State) : State :=
  let cls := classOfQueue q
  let s := admitWaiting 512 (expireWaits q s)
  let qs := nth s.fabric.queues q
  let j : Job := {
    id := s.fabric.nextId, queue := q, desc := d, actor := a, seq := qs.seq, at_ := s.time.ticks, readyAt := s.time.ticks,
    ctx := ctx, final := final, payload := payload
    mark := (d.engine == 8 && d.opcode == 1 && billLocked s) || (d.engine == 11 && d.opcode == 2 && wakeContext s ctx) }
  let taken := fun (b : Bool) (t : State) =>
    modQueue q (fun x => { x with submit := if a.master < 6 && !final then put x.submit a.master (qs.seq.toNat, b)
                                            else x.submit }) t
  let s1 := modQueue q (fun x => { x with seq := x.seq + 1 })
    (modFabric (fun f => { f with nextId := f.nextId + 1 }) s)
  match admissionCheck s q a d with
  | some st => taken false (endEarly j st 0 0 s1)
  | none =>
    if 8 ≤ fifoLen s q then
      if cls ≤ 1 then taken false (modFabric (fun f => { f with stalled := f.stalled ++ [j] }) s1)
      else taken false (endEarly j .refusedCapacity (beatOf s cls) 1 s1)
    else if energyRefused s cls d payload then
      let t := endEarly j .refusedEnergy 1 (secondsToRoll s) s1
      taken false (modGov (fun g =>
        { g with
          cExhausted := g.cExhausted || cls == 2
          hExhausted := g.hExhausted || cls == 3 }) t)
    else taken true (enterFifo j s1)

/-- A job the chip submits by itself: an engine as its own master, with the chip's role (R110). -/
def chipJob (master q : Nat) (d : Desc) (payload : List Byte) (s : State) : State :=
  submitJob ⟨master, 0⟩ q d payload none false s

/-! ### The Mason core's trigger FIFO -/

/-- An event-table entry matches an event (R619, Table 3.6a). -/
def EventEntry.matches (e : EventEntry) (kind param arg : Nat) : Bool :=
  e.kind == kind &&
    (match kind with
     | 6 => e.param == 0xFF || e.param == param
     | 7 => e.param == 0xFF || e.param == param
     | 8 => (e.param == 0xFF || e.param == param) && e.arg.testBit arg
     | 9 => e.param == param
     | _ => true)

/-- An event enters the trigger FIFO once for each entry it matches, in table order; an entry that finds the FIFO
full is dropped and counted, and raises TRIG_DROP (R131). -/
def enqueueEvent (kind param arg : Nat) (s : State) : State :=
  if !s.mason.running then s
  else ((items s).mason.events.filter (·.matches kind param arg)).foldl (fun t e =>
    if t.mason.fifo.length < 32 then
      modMason (fun m => { m with fifo := m.fifo ++ [⟨kind, param, arg, e.recipe⟩] }) t
    else raise Src.trigDrop (modMason (fun m => { m with drops := satInc m.drops }) t)) s

/-! ### Hardware triggers -/

/-- The last instant at or before now of a count of `period` D04 ticks from `last`. -/
def lastInstant (s : State) (last period : Nat) : Nat :=
  if period = 0 then s.time.d04 else last + (s.time.d04 - last) / period * period

/-- A hardware trigger is stalled before a full M or B FIFO (R118). -/
def trigStalled (s : State) (n : Nat) : Bool :=
  let t := at0 (items s).fabric.trig n
  s.fabric.stalled.any fun j => j.actor == ⟨0, 0⟩ && j.queue == t.queue && j.desc == Desc.ofWords t.template

/-- A hardware trigger's descriptor template enters its queue as master 0x00 with the chip's role (R110). -/
def submitTrigger (n : Nat) (s : State) : State :=
  let t := at0 (items s).fabric.trig n
  submitJob ⟨0, 0⟩ t.queue (Desc.ofWords t.template) [] none false s

/-- A hardware trigger's instant. Its next instants are counted from this one, not from the cycle that took it (R140). Several
instants that fell while a reseat held its lock come to one firing (log 39, DESIGN CHOICE). -/
def fireTrigger (n period : Nat) (s : State) : State :=
  submitTrigger n
    (modFabric (fun f => { f with trigLast := put f.trigLast n (lastInstant s (nth f.trigLast n) period) }) s)

end Sys2Proof.Machine
end

