-- ==== Sys2Proof/Machine/Records.lean ====
section
/-! DEFINITION. The records the chip builds for the journal (Tables 10.6 to 10.9, 14.6), the clock-quality code they
carry (R15, R16, R100), and their submission as WRITE jobs (R364) or into the AON queues (R500, R533). -/

namespace Sys2Proof.Machine

/-- UNSYNCED: more than 400 days of D04 seconds since the last authenticated set, and not INVALID (R100). -/
def unsynced (s : State) : Bool := !s.time.invalid && decide (400 * 86400 < s.time.sinceSet / 32768)

/-- The clock-quality code of a record of a stream built now (Table 0.4, R16, R100). -/
def quality (s : State) (stream : Nat) : Nat :=
  if s.time.invalid then 3
  else if 60 * 32768 < nth s.time.stepSums stream then 2
  else if unsynced s then 1 else 0

/-- Building a record of a stream clears the stream's step sum (R100). -/
def clearStepSum (stream : Nat) (s : State) : State :=
  modTime (fun t => { t with stepSums := put t.stepSums stream 0 }) s

/-- Today's governor day. -/
def today (s : State) : Nat := s.lintel.gov.dayIndex

/-- A WRITE job of one chip-built record (R364), while the chip runs. -/
def submitRecord (master stream : Nat) (rec : List Byte) (s : State) : State :=
  if s.boot.running then
    chipJob master (at0 (items s).journal.jrnQ stream)
      { opcode := 1, engine := 10, args := [BitVec.ofNat 32 (stream + 8), 0, 0, 0] } rec s
  else s

/-- An event record (Table 10.7) with its body, padded to 112 bytes. -/
def eventRecord (s : State) (type : Nat) (body : List Byte) : List Byte :=
  padTo 112 0 (bytesLE 1 type ++ bytesLE 1 (quality s 4) ++ bytesLE 1 body.length ++ bytesLE 5 0
    ++ bytesLE 8 s.time.dt.toNat ++ body)

/-- An event record built and submitted by a master (Table 10.7). -/
def writeEvent (master type : Nat) (body : List Byte) (s : State) : State :=
  submitRecord master 4 (eventRecord s type body) (clearStepSum 4 s)

/-- A radio-counter record (Table 10.9). -/
def writeCounter (master kind slot counter : Nat) (peer : List Byte) (s : State) : State :=
  submitRecord master 7
    (padTo 32 0 ([0x01] ++ bytesLE 1 kind ++ bytesLE 1 slot ++ bytesLE 1 (quality s 7) ++ bytesLE 4 counter
      ++ padTo 8 0 peer ++ bytesLE 8 s.time.dt.toNat)) (clearStepSum 7 s)

/-- An amendment record (Table 10.6), submitted by the Mason core, or for an image load, which no engine records, by master
0x00 (R110, R364). -/
def writeAmendment (header mac : List Byte) (status : Status) (port kind : Nat) (s : State) : State :=
  submitRecord (if kind = 4 then 0x00 else 0x08) 0
    (padTo 64 0 (slice header 0 32 ++ slice mac 0 16 ++ bytesLE 8 s.time.dt.toNat ++ bytesLE 1 status.code
      ++ bytesLE 1 port ++ bytesLE 1 (quality s 0) ++ bytesLE 1 kind)) (clearStepSum 0 s)

/-! ### Fault history -/

/-- A fault-history record (Table 10.9, R532). -/
def histRecord (s : State) (src : FaultSrc) (set : Bool) : List Byte :=
  bytesLE 1 1 ++ bytesLE 1 src.block.byte ++ bytesLE 1 src.num
    ++ bytesLE 1 (classOf s src + 1 + (if set then 16 else 32))
    ++ bytesLE 4 (readWindow s src.block 0xF10) ++ bytesLE 4 (readWindow s src.block 0xF14)
    ++ bytesLE 4 (readWindow s src.block 0xF20) ++ bytesLE 8 s.time.dt.toNat ++ bytesLE 1 (quality s 6)
    ++ List.replicate 7 0

/-- A fault-history record written, or queued in AON while the journal is fenced or not mounted; a full queue drops
its oldest record and counts it in that record's block (R532, R533). -/
def writeHistory (src : FaultSrc) (set : Bool) (s : State) : State :=
  if classOf s src < (items s).fault.histMin then s
  else
    let rec_ := histRecord s src set
    let s1 := clearStepSum 6 s
    if s.journal.mounted && !(winOf s .journal).fenced && s.boot.running then
      submitRecord (detector src.block src.num) 6 rec_ s1
    else if s1.faults.hist.length < 16 then
      modFaults (fun f => { f with hist := f.hist ++ [⟨src.block, rec_⟩] }) s1
    else
      let lost := (s1.faults.hist.head?.map (·.block)).getD .ident
      modWin lost (fun w => { w with histDropped := satInc w.histDropped })
        (modFaults (fun f => { f with hist := f.hist.drop 1 ++ [⟨src.block, rec_⟩] }) s1)

/-! ### Audit -/

/-- A slot whose key can be used: it holds one, the key slots are not fenced (Table 15.4), and the cipher engine, inside which
alone a key is used (R449), is not. -/
def slotUsable (s : State) (n : Nat) : Bool :=
  (nth s.keys.slots n).full && !(winOf s .keyslot).fenced && !(winOf s .cipher).fenced

/-- The audit slot holds its key (R499), and it can be used. -/
def auditKey (s : State) : Option (List Byte) :=
  let n := (items s).roles.auditSlot
  let sl := nth s.keys.slots n
  if slotUsable s n && sl.attr.use.testBit 9 then some sl.key else none

/-- The audit queue is full (R500). -/
def auditFull (s : State) : Bool := decide (32 ≤ s.roles.auditQueue.length)

/-- An audit record (Table 14.6). -/
def auditBytes (s : State) (a : AuditReq) (seq : Nat) (queued : Bool) : List Byte :=
  let vmac := match auditKey s with
    | some k => (cmac k (bytesLE 4 seq ++ bytesLE 1 a.kind ++ bytesLE 4 a.item ++ a.old ++ a.new)).take 8
    | none => List.replicate 8 0
  bytesLE 1 1 ++ bytesLE 1 a.kind ++ bytesLE 1 (a.role + 8 * b2n a.radio) ++ bytesLE 1 a.master
    ++ bytesLE 8 s.time.dt.toNat ++ bytesLE 4 a.item ++ vmac ++ bytesLE 4 seq ++ bytesLE 1 a.status
    ++ bytesLE 1 (quality s 3) ++ bytesLE 1 (b2n (auditKey s).isNone + 2 * b2n queued) ++ [0]

/-- An audit record built and written to stream 3, or queued in AON while the journal is fenced (R498 to R500). -/
def writeAudit (a : AuditReq) (s : State) : State :=
  let seq := (s.roles.auditSeq + 1) % 2 ^ 32
  let queued := !s.boot.running || (winOf s .journal).fenced
  let bytes := auditBytes s a seq queued
  let s1 := setLevel Src.auditKeyMissing (auditKey s).isNone
    (modRoles (fun r => { r with auditSeq := seq }) (clearStepSum 3 s))
  if queued then
    if auditFull s1 then
      raise Src.auditLost (modRoles (fun r =>
        { r with auditQueue := r.auditQueue.drop 1 ++ [bytes], auditDrop := satInc r.auditDrop }) s1)
    else modRoles (fun r => { r with auditQueue := r.auditQueue ++ [bytes] }) s1
  else submitRecord 0x1D 3 bytes s1

/-- An audit record asked for in this cycle (R500: built in the effect cycle). -/
def audit (a : AuditReq) (s : State) : State := andThen (.audit a) s

end Sys2Proof.Machine
end

