-- ==== Sys2Proof/Machine/Quoin.lean ====
section
/-! DEFINITION. Quoin's shared operations: key-slot loading and erasure (R458 to R467), the mask expander (R473), the
random FIFO and its health tests (R468 to R472), rights and sessions (R486, R491). -/

namespace Sys2Proof.Machine

/-! ### The mask expander -/

/-- `n` bits drawn from the mask expander (R473). -/
def drawMask (n : Nat) (s : State) : Nat × State :=
  (Config.maskOut s.cipher.mask.seed s.cipher.mask.bits % 2 ^ n,
   modCipher (fun c => { c with mask := { c.mask with bits := c.mask.bits + n } }) s)

/-- A number drawn uniformly from 0 to `k` for a delay or jitter (R472). -/
def drawUpTo (k : Nat) (s : State) : Nat × State :=
  let d := drawMask 32 s
  (d.1 % (k + 1), d.2)

/-- The expander has output 16 × RESEED_BITS bits without a reseed: MASK_STALE (R473). -/
def noteStale (s : State) : State :=
  if 16 * (items s).keys.reseedBits ≤ s.cipher.mask.bits then
    setLevel Src.maskStale true (modCipher (fun c => { c with mask := { c.mask with stale := true } }) s)
  else s

/-- Bits that leave the expander unseen, for shares and orders (R452). -/
def spendMask (n : Nat) (s : State) : State :=
  modCipher (fun c => { c with mask := { c.mask with bits := c.mask.bits + n } }) s

/-! ### Blocks and their cycles -/

/-- The bits that a mode-S block draws beside its `d`: a place for each dummy round, and for each of its 10 + d rounds the
offset and the odd stride of the byte order (R452). The spec does not say how many bits a draw takes: four for a place,
four for an offset, three for one of eight strides (log 10, DESIGN CHOICE). -/
def orderBits (d : Nat) : Nat := 4 * d + 7 * (10 + d)

/-- The D19 cycles of `n` blocks of mode S, with the dummy rounds, their places and the byte orders drawn from the mask
expander (R451, R452). -/
def plainCycles : (n : Nat) → State → Nat × State
  | 0, s => (0, s)
  | n + 1, s =>
    let (d, s1) := drawMask 3 s
    let (c, t) := plainCycles n (spendMask (orderBits d) s1)
    (22 + 2 * d + c, t)

/-- The D19 cycles of `n` blocks in a mode: 0 S, 1 M with 32 fresh bits for each of a block's ten rounds (R451, R452). -/
def cipherCycles (mode n : Nat) (s : State) : Nat × State :=
  if mode = 1 then (88 * n, spendMask (320 * n) s) else plainCycles n s

/-- The effective side-channel mode of a job: 0 S, 1 M (R453). -/
def cipherMode (s : State) (slot request : Nat) : Nat :=
  max request (max (nth s.keys.slots slot).attr.minMode (items s).keys.cipherFloor)

/-- Blocks of an operation over `p` payload and `a` associated bytes (Table 13.2). -/
def cipherBlocks (op p a : Nat) : Nat :=
  if op ≤ 2 then 1 + (if a = 0 then 0 else ceilDiv (a + 2) 16) + 2 * ceilDiv p 16 + 1
  else if op ≤ 5 then ceilDiv p 16
  else max 1 (ceilDiv p 16)

/-- A job's blocks run in the engine in a mode: their cycles, and the counters of Table 13.10. -/
def runBlocks (mode count : Nat) (s : State) : Nat × State :=
  let (cycles, s1) := cipherCycles mode count s
  (cycles, noteStale <| modCipher (fun c => { c with
    blocks := c.blocks + BitVec.ofNat 32 count, lastCycles := satNat 16 cycles
    jobsS := if mode = 0 then satInc c.jobsS else c.jobsS
    jobsM := if mode = 1 then satInc c.jobsM else c.jobsM }) s1)

/-- A CMAC of the authentication exchange over a message of `len` bytes, run as an internal cipher job in a mode (R488). -/
def runCmac (mode len : Nat) (s : State) : State := (runBlocks mode (cipherBlocks 6 len 0) s).2

/-- Blocks of the engine in mode M that belong to no job: slot loading and the bring-up and reseat verifications (R453). -/
def maskedBlocks (n : Nat) (s : State) : State :=
  noteStale (modCipher (fun c => { c with blocks := c.blocks + BitVec.ofNat 32 n }) (cipherCycles 1 n s).2)

/-! ### Key slots -/

/-- A slot changed. -/
def modSlot (n : Nat) (f : Slot → Slot) (s : State) : State := modKeys (fun k => { k with slots := upd k.slots n f }) s

/-- A slot emptied (R459, R491). -/
def emptySlot (n : Nat) (s : State) : State :=
  modSlot n (fun x => { x with full := false, loading := false, key := [], sub1 := [], sub2 := [], crc := 0 }) s

/-- Attributes as SLOT_ATTR holds them (Table 13.11). -/
def SlotAttr.word (a : SlotAttr) : Nat :=
  a.use + a.source * 2 ^ 16 + a.minMode * 2 ^ 18 + b2n a.outSecret * 2 ^ 19 + a.role * 2 ^ 20 + a.eraseOn * 2 ^ 24

/-- The CRC-32 over a slot's key, subkeys and attributes (R459); the attributes enter as their word of SLOT_ATTR (log 10,
DESIGN CHOICE). -/
def Slot.check (x : Slot) : Word := crc32 (x.key ++ x.sub1 ++ x.sub2 ++ bytesLE 4 x.attr.word)

/-- A slot's attributes given anew, with the check over them where it holds a key (R458, R459). -/
def setAttr (n : Nat) (attr : SlotAttr) (s : State) : State :=
  modSlot n (fun x =>
    let y := { x with attr := attr }
    if x.full then { y with crc := y.check } else y) s

/-- The device unique key (Table 1.4). -/
def deviceKey (s : State) : List Byte := otpBytes s 0x100 16

/-- A slot's load begins: FULL clears and LOADING sets (R461 step 1). Its lock is the core's where no other locked sequence
than a reseat holds it (R132). -/
def beginLoad (n : Nat) (s : State) : State :=
  modMason (fun m =>
    { m with lock := match m.lock with
        | none | some (.reseat, _) | some (.keySlotLoad, _) => some (.keySlotLoad, s.time.ticks)
        | other => other })
    (modSlot n (fun x => { x with loading := true }) (emptySlot n s))

/-- A key-slot load's lock ends, LOCK_US showing its length, no less than `us`; a reseat that it belongs to holds its own on
(R132, R478). -/
def endLoadLock (us : Nat) (s : State) : State :=
  modMason (fun m => match m.lock with
    | some (.keySlotLoad, since) =>
      { m with
        lock := if s.boot.reseatActive then some (.reseat, s.boot.reseatSince) else none
        lockUs := min (max us ((s.time.ticks - since) * 15625 / 512)) (2 ^ 24 - 1) }
    | _ => m) s

/-- A load that does not reach its end: counted in LOAD_FAIL, and LOAD_ABORTED raised (R462). -/
def countAbort (s : State) : State :=
  raise Src.loadAborted (endLoadLock 0 (modKeys (fun k => { k with loadFails := satInc k.loadFails }) s))

/-- Every load in progress cut off, its slot erased (R105, R462). -/
def abortLoads (s : State) : State :=
  (List.range 24).foldl (fun t n => if (nth t.keys.slots n).loading then countAbort (emptySlot n t) else t) s

/-- A key put into a slot with its subkeys, its attributes and the check (R461 steps 4 and 5). -/
def fillSlot (n : Nat) (key : List Byte) (attr : SlotAttr) (s : State) : State :=
  let subs := cmacSubkeys key
  modKeys (fun k => { k with loads := satInc k.loads })
    (modSlot n (fun x =>
      let y := { x with
        full := true, erased := false, loading := false, checkFail := false, key := key, sub1 := subs.1, sub2 := subs.2
        attr := attr, gen := satInc x.gen }
      { y with crc := y.check }) (maskedBlocks 1 s))

/-- A slot has been loaded anew, other than by its reload from the image: the peer entries under it are free (R397). -/
def freePeers (n : Nat) (s : State) : State :=
  modRadio (fun r => { r with peers := r.peers.map fun p => if p.used && p.slot == n then {} else p }) s

/-- SLOT_FULL (Table 13.11). -/
def slotFull (s : State) : Nat := (List.range 24).foldl (fun acc n => acc + b2n (nth s.keys.slots n).full * 2 ^ n) 0

/-- SLOT_ERASED (Table 13.11). -/
def slotErased (s : State) : Nat :=
  (List.range 24).foldl (fun acc n => acc + b2n (nth s.keys.slots n).erased * 2 ^ n) 0

/-! ### Rights and sessions -/

/-- A role holds a right (R486). The chip holds every right except SEAL, DEBUG and CONSENT. -/
def hasRight (s : State) (r : Right) (role : Nat) : Bool :=
  if role = 0 then (match r with
    | .debug => false | .consent => false | _ => true)
  else ((items s).roles.holders r).testBit role

/-- The session of a port master: 1 service, 3 optical, 2 debug, 4 reader (Table 14.8). -/
def sessionOf (master : Nat) : Option Nat :=
  match master with
  | 1 => some 0 | 3 => some 1 | 2 => some 2 | 4 => some 3 | _ => none

/-- The slot of a session: 20 service, 21 optical, 22 debug, 23 reader. -/
def sessionSlot (i : Nat) : Nat := 20 + i

/-- The role under which a port's request runs: its open session's, or public (R485); the chip's own otherwise. -/
def roleOf (s : State) (master : Nat) : Nat :=
  if isPort master then
    match sessionOf master with
    | some i => let x := nth s.roles.sess i; if x.isOpen then x.role else 4
    | none => 4
  else 0

/-- The actor of a master's request. -/
def actorOf (s : State) (master : Nat) : Actor := ⟨master, roleOf s master⟩

/-- A session changed. -/
def modSess (i : Nat) (f : Session → Session) (s : State) : State :=
  modRoles (fun r => { r with sess := upd r.sess i f }) s

/-- The master whose session this is. -/
def sessionMaster (i : Nat) : Nat := match i with
  | 0 => 1 | 1 => 3 | 2 => 2 | _ => 4

/-- The granules a port holds by R573. -/
def portGrans (s : State) (master : Nat) : List Nat :=
  (List.range 192).filter fun g => (nth s.fabric.grans g).port == some master

/-- A granule that its port holds no longer. -/
def dropPortGran (g : Nat) (s : State) : State := releaseGran g (modGran g (fun x => { x with port := none }) s)

/-- The granules a port still holds are freed (R573). -/
def freePortGrans (master : Nat) (s : State) : State := (portGrans s master).foldl (fun t g => dropPortGran g t) s

/-- A session ends: its slot is erased, the granules its port still holds are freed, and the end is
recorded (R491, R498 kind 13, R573). -/
def endSession (i : Nat) (s : State) : State :=
  let x := nth s.roles.sess i
  let s1 := modSess i (fun y => { y with isOpen := false, role := 4, chal := none }) s
  if x.isOpen then
    let s2 := freePortGrans (sessionMaster i) (emptySlot (sessionSlot i) s1)
    let s3 := audit { kind := 13, role := x.role, master := sessionMaster i, item := x.role, old := x.nc, new := x.nh } s2
    modRoles (fun r => { r with authState := 0, authRoleNow := 4 })
      (if i = 2 then setLevel Src.debugOpen false s3 else s3)
  else s1

/-- Every session ends (reseat, main domain off, cipher unit fenced; R491). -/
def endSessions (s : State) : State := (List.range 4).foldl (fun t i => endSession i t) s

/-- A request of a port restarts its idle time (R491). -/
def touchSession (master : Nat) (s : State) : State :=
  match sessionOf master with
  | some i => modSess i (fun x => if x.isOpen then { x with lastAt := s.time.d04 } else x) s
  | none => s

/-! ### Alarms -/

/-- The slots an alarm source erases: those whose ERASE_ON has its bit, every slot for source 6, and the named ones
for source 5 (R463). -/
def alarmMask (s : State) (source named : Nat) : Nat :=
  if source = 6 then 2 ^ 24 - 1
  else (List.range 24).foldl (fun acc n =>
    acc + b2n ((nth s.keys.slots n).attr.eraseOn.testBit source && named.testBit n) * 2 ^ n) 0

/-- A slot erased by an alarm: a load in progress counts as aborted, and its lock ends (R462, R463, R478). -/
def eraseSlot (n : Nat) (s : State) : State :=
  let x := nth s.keys.slots n
  let s1 := modSlot n (fun y =>
    { y with full := false, loading := false, key := [], sub1 := [], sub2 := [], crc := 0
             erased := y.full || y.erased || y.loading }) s
  let s2 := if x.loading then countAbort s1 else s1
  (List.range 4).foldl (fun t i => if sessionSlot i = n then endSession i t else t) s2

/-- Every SECRET granule zeroed ahead of others, its mark staying until it is freed (R457, R466); a job that has ended, and
has not completed, has nothing more to put into one. -/
def zeroSecrets (s : State) : State :=
  let hidden := fun g => (nth s.fabric.grans g).secret
  let s1 := (List.range 192).foldl (fun t g =>
    if hidden g then { t with sram := Mem.clear t.sram (g * 512) 512 } else t) s
  modFabric (fun f =>
    { f with jobs := f.jobs.map fun j => match j.phase with
        | .ended r => if j.outs.any hidden then { j with phase := .ended { r with out := [] } } else j
        | _ => j }) s1

/-- How a cipher job that an alarm meets ends: the one in progress stops (Table 13.5 step 2), REFUSED_POLICY with QFLAGS USE
on an erased slot (R466) and ABORTED on another (log 10, DEDUCED); one on an erased slot that has delivered and has not
completed is still in progress. -/
def alarmEnds (mask : Nat) (j : Job) : Option JobResult :=
  let hit := mask.testBit (j.desc.arg 0 % 32)
  if j.desc.engine ≠ 13 || 7 < j.desc.opcode then none
  else match j.phase with
    | .running => some (if hit then { status := .refusedPolicy, qflags := 1 } else { status := .aborted })
    | .ended r => if hit && (r.status == .done || r.status == .doneFlagged) then
        some { status := .refusedPolicy, qflags := 1 } else none
    | _ => none

/-- The cipher jobs that an alarm ends (R466, Table 13.5). -/
def endSlotJobs (mask : Nat) (s : State) : State :=
  s.fabric.jobs.foldl (fun t j => match alarmEnds mask j with
    | some r => engineEnds j.id r t
    | none => t) s

/-- An alarm (R463, Table 13.5): cause and DT latched, slots erased, KEY_ALARM raised. `cause` is false for a class D
reaction that follows from KEY_ALARM itself (R465). `repeats` are the slots whose compare did not pass at once; an alarm
during an erase repeat adds its slots to it (R464, R477). An erase whose compare passes has ended within 2 µs; the
duration of one that repeats shows when it has ended. -/
def alarm (source named : Nat) (cause : Bool) (ns : Nat) (repeats : Nat) (s : State) : State :=
  let mask := alarmMask s source named
  let going := s.keys.repeatMask
  let left := if going ≠ 0 then going ||| mask else repeats &&& mask
  let s1 := modKeys (fun k =>
    { k with
      causeNew := if cause then k.causeNew ||| 2 ^ source else k.causeNew
      dtNew := if cause && k.dtNew.isNone then some s.time.dt else k.dtNew
      alarms := if cause then satInc k.alarms else k.alarms
      eraseNs := if left = 0 then min ns 2000 else k.eraseNs, repeatMask := left }) s
  let s2 := (List.range 24).foldl (fun t n => if mask.testBit n then eraseSlot n t else t) s1
  let s3 := zeroSecrets (endSlotJobs mask s2)
  let s4 := modCipher (fun c => { c with mask := { c.mask with due := true } }) s3
  let s5 := if going = 0 ∧ repeats &&& mask ≠ 0 then raise Src.eraseVerifyFail s4 else s4
  if !cause then s5
  else raise Src.keyAlarm s5

/-- An alarm of the chip's own that erases by ERASE_ON: its erase time, and the slots whose compare does not pass at once,
are what the hardware gives, and so free (R464; log 10, DESIGN CHOICE). -/
def alarmBy (source : Nat) (s : State) : State :=
  alarm source (2 ^ 24 - 1) true (Config.freeIndex s.draws) (Config.freeIndex (s.draws + 1)) (drew 2 s)

/-! ### Slot loading -/

/-- The engine's own check sees a mismatch: FI_DETECT, and the FAULT_INJECT alarm (R455). -/
def faultInject (s : State) : State :=
  alarmBy 3 (raise Src.fiDetect (modCipher (fun c => { c with fi := satInc c.fi }) s))

/-- One key-slot load from its wrapped key (R461): a mismatch of the integrity check value leaves the slot empty and raises
KEY_UNWRAP_FAIL; one of the engine's own check (`fi`) stops the load, which is cut off (R455, R462). -/
def loadWrapped (n : Nat) (kek : Option (List Byte)) (wrapped : List Byte) (attr : SlotAttr) (fi : Bool) (s : State) :
    State :=
  if fi then abortLoads (faultInject (modSlot n (fun x => { x with loading := true, attr := attr }) (emptySlot n s)))
  else match kek.bind (fun k => kwUnwrap k wrapped) with
    | some key => fillSlot n key attr (maskedBlocks 12 s)
    | none =>
      raise Src.keyUnwrapFail (setAttr n attr (emptySlot n (if kek.isSome then maskedBlocks 12 s else s)))

/-- Slot 0 loaded from OTP at stage 0x2 (R460). -/
def loadSlot0 (fi : Bool) (s : State) : State :=
  loadWrapped 0 (some (deviceKey s)) (otpBytes s 0x120 24) slot0Attr fi s

/-- A slot loaded from its image entry (R460, R461); an entry of SOURCE 2 gives attributes only. -/
def loadEntry (fi : Bool) (e : SlotEntry) (s : State) : State :=
  if e.attr.source = 2 then setAttr e.slot e.attr s
  else
    let sl := nth s.keys.slots 0
    let kek := if e.kek = 0 then some (deviceKey s) else if sl.full then some sl.key else none
    loadWrapped e.slot kek e.wrapped e.attr fi s

/-- The load of a slot as the locked sequence of Table 13.4, from its beginning, or from where it stands, to unlock at
40 µs. -/
def lockedLoad (e : SlotEntry) (s : State) : State :=
  endLoadLock 40 (loadEntry false e (if (nth s.keys.slots e.slot).loading then s else beginLoad e.slot s))

/-- A session key put into its slot, by the same locked sequence (R461, R488). -/
def lockedFill (n : Nat) (key : List Byte) (attr : SlotAttr) (s : State) : State :=
  endLoadLock 40 (fillSlot n key attr (beginLoad n s))

/-! ### The random FIFO -/

/-- Whether the random output is available (R469). -/
def randomAvailable (s : State) : Bool := s.entropy.startupOk && !(winOf s .entropy).fenced

/-- `n` bytes taken from the random FIFO, where it holds them (R472). -/
def takeRandom (n : Nat) (s : State) : Option (List Byte × State) :=
  if randomAvailable s && n ≤ s.entropy.fifo.length then
    some (s.entropy.fifo.take n, modEntropy (fun e => { e with fifo := e.fifo.drop n }) s)
  else none

/-- One raw bit through the repetition test and the proportion test (R468). -/
def feedBit (e : Entropy) (b : Bool) : Entropy :=
  let run := if e.run = 0 || b != e.lastBit then 1 else e.run + 1
  let start := e.aptSeen = 0 || e.aptSeen = 1024
  let cnt := if start then 1 else e.aptCount + b2n (b == e.aptBit)
  { e with
    raw := e.raw + 1, lastBit := b, run := run
    aptBit := if start then b else e.aptBit
    aptCount := cnt, aptSeen := if start then 1 else e.aptSeen + 1
    worstRun := max e.worstRun (min run 255), worstApt := max e.worstApt cnt }

/-- Raw bits through both tests: the state after them and which test failed first (true the repetition test). -/
def feedBits (k : KeyItems) : List Bool → Entropy → Entropy × Option Bool
  | [], e => (e, none)
  | b :: bs, e =>
    let e1 := feedBit e b
    if k.rctCutoff ≤ e1.run then (e1, some true)
    else if k.aptCutoff ≤ e1.aptCount then (e1, some false)
    else feedBits k bs e1

/-- A health failure (R471): the FIFO is flushed, the failure counted, the source restarted; FAIL_DAY_MAX failures in
a governor day raise ENT_DEAD, whose class decides whether the source is fenced (R476). -/
def healthFail (rct : Bool) (s : State) : State :=
  let day := today s
  let n := if s.entropy.failDay = day then s.entropy.failsToday + 1 else 1
  let s1 := modEntropy (fun e =>
    { e with
      fifo := [], startupOk := false, run := 0, aptSeen := 0, failsToday := n, failDay := day
      rct := if rct then satInc e.rct else e.rct, apt := if rct then e.apt else satInc e.apt
      restarts := satInc e.restarts }) s
  let s2 := raise Src.entHealth s1
  if (items s).keys.failDayMax ≤ n then
    setLevel Src.entDead true (modEntropy (fun e => { e with dead := true }) s2)
  else s2

/-- A conditioned block: AES-CBC-MAC of the raw bits under the conditioning key of the OTP trims (R470). -/
def conditionBlock (s : State) (bits : List Bool) : List Byte :=
  let bytes := (List.range (bits.length / 8)).map fun i =>
    (packBits 8 ((bits.drop (8 * i)).take 8) : Byte)
  (blocks bytes).foldl (fun x b => aesEnc (Config.conditioningKey (otpBytes s 0x10 240)) (xorBytes x (padTo 16 0 b)))
    (List.replicate 16 0)

/-- The mask expander takes a block: when it has never been seeded, an alarm asks for it, or RESEED_BITS are out
(R473). -/
def maskDue (s : State) : Bool :=
  !s.cipher.mask.seeded || s.cipher.mask.due || decide ((items s).keys.reseedBits ≤ s.cipher.mask.bits)

/-- The expander absorbs a block (R473). -/
def seedMask (block : List Byte) (s : State) : State :=
  setLevel Src.maskStale false (modCipher (fun c =>
    { c with mask := { seed := Config.maskAbsorb c.mask.seed block, seeded := true, bits := 0, stale := false,
                       due := false } }) s)

/-- The effective debug level. -/
def debugLevel (s : State) : Nat := if s.roles.debugExpired then 0 else (items s).ports.debugEn

end Sys2Proof.Machine
end

