-- ==== Sys2Proof/Machine/LinkState.lean ====
section
/-! DEFINITION. The link's connections and states that a fence and the keys also move (chapter 12). -/

namespace Sys2Proof.Machine

/-- A connection changed. -/
def modConn (c : Nat) (f : Conn → Conn) (s : State) : State := modLink (fun l => { l with conns := upd l.conns c f }) s

/-- The connection with an address. -/
def connOf (s : State) (addr : List Byte) : Option Nat :=
  (List.range 16).find? fun c => let x := nth s.link.conns c; x.kind != 0 && x.addr == addr

/-- The parent connection: kind 1, or 3 where the chosen beaconer is a reader. -/
def parentConn (s : State) : Option Nat :=
  ((List.range 16).find? fun c => (nth s.link.conns c).kind == 1)
    <|> ((List.range 16).find? fun c => (nth s.link.conns c).kind == 3)

/-- The plan in force. -/
def linkPlan (s : State) : PlanItem := at0 (items s).link.plans (b2n s.link.planF)

/-- A fragment of a LINK_SEND acknowledged by a next hop, or given up with the rest of its message; RESULT counts the
fragments that every next hop has acknowledged (Table 12.8). -/
def sendDone (job : Nat) (acked : Option Nat) (s : State) : State :=
  match s.link.sends.find? (fun x => x.job == job) with
  | none => s
  | some x =>
    let need := match acked with
      | some i => x.need.modify i (· - 1)
      | none => x.need
    let res := (need.filter (· == 0)).length % 16 + x.first % 2 ^ 20 * 16 % 2 ^ 20
    let clear := fun (t : State) => modLink (fun l =>
      { l with
        sends := l.sends.filter fun y => y.job != job
        conns := l.conns.map fun c => { c with queue := c.queue.filter fun f => f.job != some job } }) t
    if acked.isNone then engineEnds job { status := .slotMissed, result := res } (clear s)
    else if need.all (· == 0) then engineEnds job { status := .done, result := res } (clear s)
    else modLink (fun l => { l with sends := l.sends.map fun y => if y.job = job then { y with need := need } else y }) s

/-- A connection ends: its slot and queue are free, and sends that used it have missed their slot. -/
def freeConn (c : Nat) (s : State) : State :=
  let x := nth s.link.conns c
  let jobs := ((x.sent.toList ++ x.queue).filterMap (·.job)).eraseDups
  jobs.foldl (fun t j => sendDone j none t) (modConn c (fun _ => {}) s)

/-- SCAN entered (Table 12.6). -/
def enterScan (s : State) : State :=
  modLink (fun l =>
    { l with
      st := 1, depth := 0, root := List.replicate 8 0, best := none, join := none, reqWait := none
      lostSince := if l.st = 3 || l.st = 0 then s.time.ticks else l.lostSince
      scanAt := s.time.ticks, scanCh := 0 }) s

/-- After a connection has gone: the link looks for a parent again where that was it (Table 12.6). A reader's connection is
none, but where the link joined through it (R414; log 16, DEDUCED). -/
def parentGone (kind : Nat) (s : State) : State :=
  if kind = 1 || (kind = 3 && (parentConn s).isNone) then enterScan s else s

/-- A connection is lost (R430). -/
def loseConn (c : Nat) (s : State) : State :=
  let k := (nth s.link.conns c).kind
  let s1 := modLink (fun l => { l with connLost := satInc l.connLost }) (freeConn c s)
  parentGone k (raiseIf (k == 1) Src.parentLost s1)

/-- OFF entered: every connection is dropped without TERM (R441, R443). -/
def enterOff (s : State) : State :=
  modLink (fun l => { l with st := 0, depth := 0, best := none, join := none, reqWait := none, fwds := [], reasm := [], planChange := false })
    ((List.range 16).foldl (fun t c => if (nth t.link.conns c).kind = 0 then t else freeConn c t) s)

/-- The link-key slot and the end-to-end slot are loaded. -/
def linkKeys (s : State) : Bool :=
  (nth s.keys.slots (items s).link.linkSlot).full && (nth s.keys.slots (items s).link.e2eSlot).full

/-- Their keys can be used; a link that can neither seal nor open a frame is OFF as with empty slots (log 16, DEDUCED). -/
def linkUsable (s : State) : Bool := slotUsable s (items s).link.linkSlot && slotUsable s (items s).link.e2eSlot

/-- Whether a condition of OFF holds (Table 12.6). -/
def linkOff (s : State) : Bool :=
  !(s.lintel.mainOn && s.boot.running) || (items s).link.en == 0 || !linkUsable s || (winOf s .link).fenced || s.faults.grave

/-- The plan that the antenna watch asks for (R435). -/
def planWanted (s : State) : Bool := s.radio.watch == 2 && (items s).link.planFEn == 1

/-- A relay stops forwarding with the C share used up (R434). -/
def pauseSync (s : State) : State :=
  if (items s).link.nodeKind == 1 && s.lintel.gov.cExhausted && !s.link.relayPaused then
    setLevel Src.relayPaused true (modLink (fun l => { l with relayPaused := true }) s)
  else s

/-- The link follows its keys, its fence and the antenna watch: OFF, SCAN, and a change of plan, which once begun ends in
SCAN under the plan that the watch then asks for (Table 12.6, R423, R435, R443). -/
def linkSync (s : State) : State :=
  let live := (List.range 16).filter fun c => (nth s.link.conns c).kind != 0
  if linkOff s then
    if s.link.st = 0 then s
    else
      let lost := s.boot.running && (items s).link.en == 1 && !linkKeys s
      let s1 := enterOff s
      if lost then setLevel Src.linkKeyLost true s1 else s1
  else if s.link.st = 0 then
    setLevel Src.linkKeyLost false (enterScan (modLink (fun l => { l with planF := planWanted s }) s))
  else if planWanted s != s.link.planF || s.link.planChange then
    if live.isEmpty then
      pauseSync (enterScan (modLink (fun l => { l with planF := planWanted s, planChange := false }) s))
    else
      pauseSync (live.foldl (fun t c => modConn c (fun x => { x with termDue := x.termDue <|> some 3 }) t)
        (modLink (fun l => { l with planChange := true }) s))
  else pauseSync s

/-- The governor-day roll lets a paused relay forward again (R434). -/
def linkDayRoll (s : State) : State :=
  if s.link.relayPaused then setLevel Src.relayPaused false (modLink (fun l => { l with relayPaused := false }) s) else s

/-- The link at a job that its fabric stops. -/
def linkDrop (job : Nat) (s : State) : State :=
  modLink (fun l =>
    { l with
      sends := l.sends.filter fun y => y.job != job
      conns := l.conns.map fun c => { c with queue := c.queue.filter fun f => f.job != some job } }) s

/-- The link at a reseat's unlock (R55, R444). -/
def linkReseat (keep : Bool) (s : State) : State :=
  if keep || s.link.st = 0 then s
  else enterScan ((List.range 16).foldl (fun t c => if (nth t.link.conns c).kind = 0 then t else freeConn c t) s)

end Sys2Proof.Machine
end

