-- ==== Sys2Proof/Machine/Amend.lean ====
section
/-! DEFINITION. Amendments as a STAGE job brings them (R46, R615), and the endings of a staging (R47, R48, R56). -/

namespace Sys2Proof.Machine

/-- The audit mask of a list of section IDs (Table 14.7). -/
def sectionMask (ids : List Nat) : Nat :=
  (List.range 18).foldl (fun m i => m + b2n (ids.contains (i + 1)) * 2 ^ i) 0

/-! ### Amendments (R46, R615) -/

/-- One change record. -/
structure Change where
  sec : Nat := 0
  op : Nat := 0
  off : Nat := 0
  data : List Byte := []
  deriving DecidableEq, Repr, Inhabited

/-- The record at the head of `b` and what follows it, where it obeys R46 and R615 by itself. -/
def parseChange (b : List Byte) : Option (Change × List Byte) :=
  let op := leAt b 1 1
  let off := leAt b 2 2
  let len := leAt b 4 2
  let padded := ceilDiv len 4 * 4
  if b.length < 8 || b.length < 8 + padded || leAt b 6 2 != 0 || !(op == 1 || op == 2) || len == 0 || 61440 < len
      || (op == 1 && (off != 0 || len % 4 != 0)) || !(((b.drop 8).take padded).drop len).all (· == 0) then none
  else some (⟨leAt b 0 1, op, off, (b.drop 8).take len⟩, b.drop (8 + padded))

/-- A body put into an ascending list of sections. -/
def setBody (id : Nat) (body : List Byte) : List (Nat × List Byte) → List (Nat × List Byte)
  | [] => [(id, body)]
  | x :: rest => if id < x.1 then (id, body) :: x :: rest else if id = x.1 then (id, body) :: rest else x :: setBody id body rest

/-- A record applied to the sections built so far. -/
def applyChange (c : Change) (bodies : List (Nat × List Byte)) : Option (List (Nat × List Byte)) :=
  if c.op = 1 then some (setBody c.sec c.data bodies)
  else match bodies.find? (fun x => x.1 == c.sec) with
    | some x => if c.off + c.data.length ≤ x.2.length then
        some (setBody c.sec (x.2.take c.off ++ c.data ++ x.2.drop (c.off + c.data.length)) bodies) else none
    | none => none

/-- The records of an amendment applied in order: the sections, the section IDs touched up to the first breach, and
whether every record obeys R46 and they frame exactly up to the trailer. -/
def applyChanges : (n : Nat) → List Byte → List (Nat × List Byte) → List Nat → List (Nat × List Byte) × List Nat × Bool
  | 0, b, bodies, touched => (bodies, touched, b.isEmpty)
  | n + 1, b, bodies, touched =>
    match parseChange b with
    | none => (bodies, touched, false)
    | some (c, rest) =>
      match applyChange c bodies with
      | none => (bodies, touched, false)
      | some next => applyChanges n rest next (touched ++ [c.sec])

/-- An amendment read against the running image. -/
structure Amend where
  bytes : List Byte := []
  headOk : Bool := false
  baseSeq : Nat := 0
  newSeq : Nat := 0
  role : Nat := 0
  activate : Nat := 0
  ref : Nat := 0
  mac : List Byte := []
  bodies : List (Nat × List Byte) := []
  touched : List Nat := []
  recordsOk : Bool := false
  deriving DecidableEq, Repr, Inhabited

/-- The amendment that a STAGE job brings (Table 3.12, R46). The touched sections are taken from its records also where its
header breaks R46 (R615; log 36, DEDUCED). -/
def readAmend (s : State) (j : Job) : Amend :=
  let b := slice (inputBytes s j 0) 0 (j.desc.arg 0 % 2 ^ 16)
  let r := applyChanges (leAt b 6 2) ((b.take (b.length - 16)).drop 32) s.boot.img.bodies []
  { bytes := b, headOk := leAt b 0 4 == 0x4D414C59 && leAt b 4 2 == 1 && leAt b 0x11 3 == 0
    baseSeq := leAt b 8 4, newSeq := leAt b 0x0C 4, role := leAt b 0x10 1, activate := leAt b 0x14 8
    ref := leAt b 0x1C 4, mac := slice b (b.length - 16) 16, bodies := r.1, touched := r.2.1, recordsOk := r.2.2 }

/-! ### The ending of a staging -/

/-- What every ending of a staging leaves: STAGING_STATUS, STAGING_FAILED (raised for every ending but DONE, a check of R47
that fails among them: log 36, DEDUCED), the amendment record and the audit record
(Table 1.11, Table 1.12, Table 10.6, R498). -/
def stagingEnds (j : Job) (a : Amend) (st : Status) (reject : Nat) (s : State) : State :=
  let s1 := modBoot (fun b =>
    { b with
      stgState := if st = .done then 2 else 3, stgLast := st.code, stgReject := reject, stgRef := 0
      amendHead := if st = .done then a.bytes.take 32 else b.amendHead
      amendMac := if st = .done then a.mac else b.amendMac }) s
  audit { kind := 3, role := j.actor.role, master := j.actor.master, item := sectionMask a.touched
          old := bytesLE 4 s.boot.img.seq, new := bytesLE 4 a.newSeq ++ a.mac, status := st.code
          radio := radioMaster j.actor.master }
    (writeAmendment (a.bytes.take 32) a.mac st j.actor.master 1 (raiseIf (st != .done) Src.stagingFailed s1))

/-- The staging's job ended by its engine. -/
def stageFails (j : Job) (a : Amend) (st : Status) (reject : Nat) (s : State) : State :=
  engineEnds j.id
    { status := st, result := reject * 2 ^ 16, beat := if st = .refusedEnergy then 1 else 0
      retryS := if st = .refusedEnergy then secondsToRoll s else 0 } (stagingEnds j a st reject s)

end Sys2Proof.Machine
end

