-- ==== Sys2Proof/Machine/Bch.lean ====
section
/-! DEFINITION. The BCH code of a journal page (R342, Table 10.3): four-error-correcting over GF(2^11), field
polynomial x^11 + x^2 + 1, 44 parity bits, the message highest bit first. -/

namespace Sys2Proof.Machine

/-- Multiplication by the primitive element of GF(2^11). -/
def gfX (a : Nat) : Nat := let b := a * 2; if 2048 ≤ b then (b ^^^ 0x805) % 2048 else b

/-- The sum of the products of `b` with the bits of `a`, over at most `n` bits, added to `acc`. -/
def gfMulFrom : (n a b acc : Nat) → Nat
  | 0, _, _, acc => acc
  | n + 1, a, b, acc => if a = 0 then acc else gfMulFrom n (a / 2) (gfX b) (if a % 2 = 1 then acc ^^^ b else acc)

/-- The product in GF(2^11). -/
def gfMul (a b : Nat) : Nat := gfMulFrom 11 a b 0

/-- The `n`-th power in GF(2^11), by squaring over the 11 bits of `n`. -/
def gfPow (a n : Nat) : Nat :=
  ((List.range 11).foldl (fun (acc : Nat × Nat) i =>
    (if n.testBit i then gfMul acc.1 acc.2 else acc.1, gfMul acc.2 acc.2)) (1, a)).1

/-- The power of the primitive element with exponent `n`. -/
def gfExp (n : Nat) : Nat := gfPow 2 (n % 2047)

/-- The product of two polynomials over GF(2^11), coefficients lowest first. -/
def polyMul (p q : List Nat) : List Nat :=
  (List.range (p.length + q.length - 1)).map fun k =>
    (List.range (k + 1)).foldl (fun acc i => acc ^^^ gfMul (at0 p (i)) (at0 q (k - i))) 0

/-- The minimal polynomial of the `i`-th power of the primitive element (its eleven conjugates). -/
def minPoly (i : Nat) : List Nat :=
  (List.range 11).foldl (fun p k => polyMul p [gfExp (i * 2 ^ k), 1]) [1]

/-- The generator: the product of the minimal polynomials of the 1st, 3rd, 5th and 7th powers, degree 44. -/
def bchGenerator : List Nat := polyMul (polyMul (minPoly 1) (minPoly 3)) (polyMul (minPoly 5) (minPoly 7))

/-- The generator's coefficients below x^44 as a number. -/
def bchGenLow : Nat := (bchGenerator.take 44).foldr (fun b acc => b % 2 + 2 * acc) 0

/-- One message bit into the remainder register with feedback `g`. -/
def bchStep (g r : Nat) (b : Bool) : Nat :=
  let top := r.testBit 43
  let r' := r * 2 % 2 ^ 44
  if top != b then r' ^^^ g else r'

/-- The bits of a byte list, highest bit of the first byte first. -/
def bitsMsb (bs : List Byte) : List Bool :=
  bs.flatMap fun b => [7, 6, 5, 4, 3, 2, 1, 0].map b.getLsbD

/-- The 44 parity bits of a message. -/
def bchParity (msg : List Byte) : Nat := (bitsMsb msg).foldl (bchStep bchGenLow) 0

/-- The six parity bytes as stored: 44 bits highest first, then four 1 bits (Table 10.3). -/
def bchBytes (msg : List Byte) : List Byte := bytesBE 6 (bchParity msg * 16 + 15)

/-- Syndrome `j` of a codeword whose bits come highest power first. -/
def bchSyndrome (code : List Bool) (j : Nat) : Nat :=
  let a := gfExp j
  code.foldl (fun acc b => gfMul acc a ^^^ b2n b) 0

/-- The error locator by the Berlekamp and Massey iteration over the eight syndromes. -/
def bchLocator (syn : List Nat) : List Nat :=
  let step := fun (st : List Nat × List Nat × Nat × Nat × Nat) (n : Nat) =>
    let c := st.1; let b := st.2.1; let l := st.2.2.1; let m := st.2.2.2.1; let bb := st.2.2.2.2
    let d := (List.range (l + 1)).foldl (fun acc i => acc ^^^ gfMul (at0 c (i)) (at0 syn (n - i))) 0
    if d = 0 then (c, b, l, m + 1, bb)
    else
      let f := gfMul d (gfPow bb 2046)
      let sb := List.replicate m 0 ++ b.map (gfMul f)
      let c' := (List.range (max c.length sb.length)).map fun i => (at0 c (i)) ^^^ (at0 sb (i))
      if 2 * l ≤ n then (c', c, n + 1 - l, 1, d) else (c', b, l, m + 1, bb)
  let r := (List.range 8).foldl step ([1], [1], 0, 1, 1)
  r.1.take (r.2.2.1 + 1)

/-- The value of a polynomial at a field element. -/
def polyEval (p : List Nat) (x : Nat) : Nat := p.foldr (fun c acc => c ^^^ gfMul x acc) 0

/-- The list with the bits at the given places turned over. -/
def flipAt (l : List Bool) (places : List Nat) : List Bool :=
  l.zipIdx.map fun b => if places.contains b.2 then !b.1 else b.1

/-- Bytes from bits, highest bit first. -/
def bytesOfBits (l : List Bool) : List Byte :=
  (List.range (l.length / 8)).map fun i =>
    BitVec.ofNat 8 (((l.drop (8 * i)).take 8).foldl (fun acc b => acc * 2 + b2n b) 0)

/-- The correction of a message against its stored parity bytes: the corrected message and the number of bits
turned over; none where the code finds more errors than it can correct (R353). A codeword without error is one whose
parity bits are those of its message. -/
def bchCorrect (msg parity : List Byte) : Option (List Byte × Nat) :=
  if ofBE parity / 16 = bchParity msg then some (msg, 0)
  else
    let code := bitsMsb msg ++ (bitsMsb parity).take 44
    let syn := (List.range 8).map fun j => bchSyndrome code (j + 1)
    let loc := bchLocator syn
    let t := loc.length - 1
    let n := code.length
    -- a root at the inverse of power k marks an error in the bit of power k
    let errs := (List.range n).filter fun k => polyEval loc (gfExp (2047 - k % 2047)) == 0
    if t ≤ 4 && errs.length == t then
      some ((bytesOfBits ((flipAt code (errs.map (n - 1 - ·))).take (8 * msg.length))), t)
    else none

end Sys2Proof.Machine
end

