-- ==== Sys2Proof/Machine/Page.lean ====
section
/-! DEFINITION. The attached flash and the pages of the Dexul journal (chapter 10): programs and erases, page images and
their checks, sector stamps, the index, the defect table, and the steps in which every page write, erase, copy and retirement
runs, one flash operation at a time. -/

namespace Sys2Proof.Machine

/-! ### Flash operations -/

/-- The widest read mode that IO_MAX and the SFDP table both allow; single before an image runs (R336, Table 10.1). -/
def ioMode (s : State) : Nat :=
  let c := (items s).journal
  if !s.boot.running then 0
  else if c.ioMax = 2 ∧ s.journal.quad then 2
  else if 1 ≤ c.ioMax ∧ s.journal.dual then 1
  else 0

/-- The flash is accessed: NV_PWR on and its wait of PWR_ON_MS begun where it was off, deep power-down left, in the read
mode and at the clock of this access (R336, R337, R372). -/
def touchFlash (s : State) : State :=
  let c := (items s).journal
  modJournal (fun j =>
    { j with
      pwr := true, dpd := false, accessAt := s.time.d04
      readyAt := if j.pwr then j.readyAt else s.time.d04 + msTicks c.pwrOnMs
      io := ioMode s, mhz := min (min c.flashMhz j.sfdpMhz) 50 }) s

/-- NV_PWR has been on for PWR_ON_MS (R337). -/
def flashAwake (s : State) : Bool := counted s s.journal.readyAt 0

/-- An access that waits until the flash is awake (R337). -/
def onFlash (f : State → State) (s : State) : State :=
  let t := touchFlash s
  if flashAwake t then f t else t

/-- The bits of a byte that stay 1 in a program. -/
def stuckAt (o : FlashObs) (a : Nat) : Byte := ((o.stuck.find? fun x => x.1 == a).map (·.2)).getD 0

/-- One byte programmed: a program only clears bits, and 0xFF leaves a byte alone. -/
def programByte (o : FlashObs) (a : Nat) (b : Byte) (s : State) : State :=
  if b = 0xFF then s
  else
    let v := flashByte s a &&& (b ||| stuckAt o a)
    modJournal (fun j => { j with unstable := j.unstable.filter fun u => u.1 != a })
      { s with flash := s.flash.set 0xFF a v }

/-- Bytes programmed from an address upwards; a program that the flash refuses for protection changes nothing and
raises FLASH_PROTECTED (R335). -/
def programFlash (o : FlashObs) (a : Nat) (bs : List Byte) (s : State) : State :=
  if o.protectedFail then raise Src.flashProtected (touchFlash s)
  else (bs.zipIdx).foldl (fun t b => programByte o (a + b.2) b.1 t) (touchFlash s)

/-- A 4 KiB sector erased. A failed erase leaves its bytes as they are (log 24, DESIGN CHOICE). -/
def eraseFlash (o : FlashObs) (sector : Nat) (s : State) : State :=
  let s1 := touchFlash s
  if o.protectedFail then raise Src.flashProtected s1
  else if o.eraseFail then s1
  else
    let a := sector * 0x1000
    modJournal (fun j => { j with unstable := j.unstable.filter fun u => decide (u.1 < a ∨ a + 0x1000 ≤ u.1) })
      { s1 with flash := Mem.clear s1.flash a 0x1000 }

/-- A range of the flash reads all 0xFF. -/
def flashBlank (s : State) (a k : Nat) : Bool :=
  s.flash.all (fun c => decide (c.1 < a ∨ a + k ≤ c.1)) && s.journal.unstable.all fun u => decide (u.1 < a ∨ a + k ≤ u.1)

/-- The flash may start a program or erase by the latest VBAT measurement (R80). -/
def flashVbatOk (s : State) : Bool :=
  let p := (items s).power
  if s.journal.waitVbat then decide (p.flashMin + 100 < s.lintel.vbatMv) else decide (p.flashMin ≤ s.lintel.vbatMv)

/-- A VBAT measurement: what waits for the flash limit is released above FLASH_MIN + 100 mV (R80, R350). -/
def takeVbat (mv : Nat) (s : State) : State :=
  let s1 := modLintel (fun l => { l with vbatMv := satNat 16 mv }) s
  if (items s).power.flashMin + 100 < mv then modJournal (fun j => { j with waitVbat := false }) s1
  else modJournal (fun j => { j with vbatLowAt := s.time.d04 }) s1

/-- The peak load of the flash given back (R77). -/
def freePeak (s : State) : State :=
  modLintel (fun l => if l.peak = .program ∨ l.peak = .erase then { l with peak := .none } else
    { l with eraseSuspended := false }) s

/-- The peak load that the operation in progress needs. -/
def FlashOpSt.peak : FlashOpSt → PeakHolder
  | .program .. => .program | .erase _ => .erase | _ => .none

/-- No locked sequence can begin: one runs, or the core is halted or about to be (R132, R586, R587). -/
def lockBusy (s : State) : Bool := s.mason.lock.isSome || s.mason.halted || s.probe.haltPending

/-- A locked sequence of a kind runs that no recipe holds. -/
def ownLock (s : State) (k : LockKind) : Bool :=
  (s.mason.lock.map (·.1)) == some k && s.mason.ctxs.toList.all (·.lock.isNone)

/-- The lock of such a sequence released, its length shown (R132). -/
def unlockAs (k : LockKind) (s : State) : State :=
  if ownLock s k then modMason (fun m =>
    { m with
      lock := none
      lockUs := min ((s.time.ticks - (s.mason.lock.map (·.2)).getD s.time.ticks) * 15625 / 512) (2 ^ 24 - 1) }) s
  else s

/-- The journal-commit lock released. -/
def journalUnlock (s : State) : State := unlockAs .journalCommit s

/-- A program cut off: the bytes before a free place are done, the byte there is unstable, the others are not reached
(R351). -/
def cutProgram (a : Nat) (bs : List Byte) (s : State) : State :=
  let k := Config.freeIndex s.draws % (bs.length + 1)
  let s1 := ((bs.take k).zipIdx).foldl (fun t b => programByte {} (a + b.2) b.1 t) (drew 1 s)
  match bs[k]? with
  | some b => if b = 0xFF then s1 else
      let old := flashByte s1 (a + k)
      modJournal (fun j => { j with unstable := (a + k, old &&& b, old) :: j.unstable.filter (·.1 != a + k) }) s1
  | none => s1

/-- The last program of a staging cut off: the copy stays invalid, so MAGIC is never whole (R49; its first byte is taken to
be the one that is not reached, log 36, DEDUCED). -/
def cutStageHead (base : Nat) (head : List Byte) (s : State) : State := cutProgram (base + 1) (head.drop 1) s

/-- A void program cut off: STATE reads neither 0xFF nor 0x00, one free bit 0 and another 1 (R370). -/
def cutVoid (a : Nat) (s : State) : State :=
  let i := Config.freeIndex s.draws % 8
  let k := (i + 1 + Config.freeIndex (s.draws + 1) % 7) % 8
  modJournal (fun j =>
    { j with unstable := (a, 1#8 <<< k, ~~~(1#8 <<< i)) :: j.unstable.filter (·.1 != a) }) (drew 2 s)

/-- An erase cut off: a data sector has no valid stamp (R369) and a configuration copy no MAGIC (R49), and the other
programmed bytes read anything (log 24, DESIGN CHOICE). -/
def cutErase (sector : Nat) (s : State) : State :=
  let a := sector * 0x1000
  let lost := if sector < 32 then (a, 1) else (a + 0xF00, 0x100)
  let old := (s.flash.filter fun c => decide (a ≤ c.1 ∧ c.1 < a + 0x1000) && decide (c.1 < lost.1 ∨ lost.1 + lost.2 ≤ c.1)).map
    fun c => (c.1, (0 : Byte), (0xFF : Byte))
  modJournal (fun j => { j with unstable := old ++ j.unstable.filter fun u => decide (u.1 < a ∨ a + 0x1000 ≤ u.1) })
    { s with flash := Mem.clear s.flash lost.1 lost.2 }

/-- The COMMIT bytes (Table 10.4). -/
def commitWord : List Byte := [0xC3, 0x5A, 0xA5, 0x3C]

/-! ### Page images -/

/-- Record size and records per page of a stream (Table 10.5). -/
def recSize (stream : Nat) : Nat := at0 [64, 208, 32, 32, 112, 192, 32, 32] stream
def perPage (stream : Nat) : Nat := at0 [3, 1, 7, 7, 2, 1, 7, 7] stream

/-- DT32 of a page: DT[46:15] (Table 10.3). -/
def dt32 (dt : Nat) : Nat := dt / 2 ^ 15 % 2 ^ 32

/-- The 256 bytes of a committed page (Tables 10.3 and 10.4, R341, R342). -/
def pageBytes (strm flags nrec seq wday dt : Nat) (payload : List Byte) : List Byte :=
  let head := [BitVec.ofNat 8 strm, BitVec.ofNat 8 flags, BitVec.ofNat 8 nrec] ++ bytesLE 4 seq ++ bytesLE 2 wday
    ++ bytesLE 4 dt
  let data := head ++ [crc8 head, 0xFF] ++ padTo 224 0xFF payload
  let msg := data ++ bytesLE 4 (crc32 data).toNat
  [0xFF] ++ msg ++ bchBytes msg ++ commitWord ++ [0xFF, 0xFF]

/-- The page with other FLAGS and the WDAY of today (R341, R348, R359). -/
def reflag (s : State) (flags : Nat) (img : List Byte) : List Byte :=
  pageBytes (leAt img 1 1) flags (leAt img 3 1) (leAt img 4 4) (today s) (leAt img 0x0A 4) (slice img 0x10 224)

/-- An original page of a stream built now (Table 10.3). -/
def newPage (s : State) (stream seq : Nat) (recs : List (List Byte)) : List Byte :=
  pageBytes (stream + 0x10) 0xFF recs.length seq (today s) (dt32 s.time.dt.toNat) recs.flatten

/-- The records of a page image. -/
def pageRecords (img : List Byte) : List (List Byte) :=
  let n := recSize (leAt img 1 1 % 16)
  (List.range (leAt img 3 1)).map fun i => slice img (0x10 + i * n) n

/-- What the checks of Table 10.11 say of a page: absent, the data that BCH could correct and yet failed, uncorrectable,
or the corrected page with the number of bits corrected (R353). -/
inductive PageCheck where
  | absent | uncorrectable
  | failed (data : List Byte)
  | ok (page : List Byte) (corrected : Nat)
  deriving DecidableEq, Repr

/-- The checks of Table 10.11 on 256 bytes as read, against the stream byte and SEQ it is indexed by. -/
def checkPage (raw : List Byte) (strm seq : Nat) : PageCheck :=
  if slice raw 0 1 != [0xFF] || slice raw 0xFA 4 != commitWord then .absent
  else match bchCorrect (slice raw 1 243) (slice raw 0xF4 6) with
    | none => .uncorrectable
    | some (msg, n) =>
      let page := [0xFF] ++ msg ++ bchBytes msg ++ commitWord ++ [0xFF, 0xFF]
      if crc32 (msg.take 239) == BitVec.ofNat 32 (leAt msg 239 4) && crc8 (msg.take 13) == at0 msg 13
          && leAt page 1 1 == strm && leAt page 4 4 == seq then .ok page n
      else .failed page

/-- A page read and checked at an address. -/
def readPage (s : State) (r : PageRef) : PageCheck := checkPage (flashRead s r.addr 256) (r.stream + 0x10) r.seq

/-! ### Sector stamps -/

/-- The first journal sector, the number of data sectors, and the bases of the two defect-table copies (R339). -/
def firstSector : Nat := 32
def sectorCount (s : State) : Nat := dataSectors s.journal.size
def defectBase (s : State) (copy : Nat) : Nat := s.journal.size - 0x2000 + copy * 0x1000

/-- A stamp of twelve bytes and its CRC-32 (Table 10.2). -/
def stamp (magic : List Byte) (n day : Nat) : List Byte :=
  let b := magic ++ bytesLE 4 n ++ bytesLE 2 day ++ [0xFF, 0xFF]
  b ++ bytesLE 4 (crc32 b).toNat

def eraseMagic : List Byte := [0x44, 0x58, 0x45, 0x31]
def allocMagic : List Byte := [0x44, 0x58, 0x41, 0x31]

/-- The number of a stamp whose magic and CRC-32 hold (R340). -/
def stampValue (magic b : List Byte) : Option Nat :=
  if b.take 4 == magic && crc32 (b.take 12) == BitVec.ofNat 32 (leAt b 12 4) then some (leAt b 4 4) else none

/-- What a sector's stamps say of it (R340, R356). -/
def sectorOf (s : State) (idx : Nat) : Sector :=
  let b := flashRead s (idx * 0x1000 + 0xF00) 32
  let e := stampValue eraseMagic (b.take 16)
  let a := stampValue allocMagic (b.drop 16)
  let use : SectorUse :=
    if e.isNone then .dirty
    else if (b.drop 16).all (· == 0xFF) then .erased
    else match a with
      | some n => .inUse n
      | none => .dirty
  { idx := idx, use := use, eraseCount := e }

/-- A sector's entry replaced. -/
def putSector (x : Sector) (s : State) : State :=
  modJournal (fun j => { j with sectors := j.sectors.map fun y => if y.idx = x.idx then x else y }) s

/-- The known erase counts of the sectors that are not retired. -/
def eraseCounts (s : State) : List Nat := s.journal.sectors.filterMap (·.eraseCount)

/-- The sectors of a use. -/
def erasedSectors (s : State) : List Sector := s.journal.sectors.filter (·.use == .erased)
def dirtySectors (s : State) : List Sector := s.journal.sectors.filter (·.use == .dirty)

/-- SSEQ of a sector in use, 0 of any other. -/
def Sector.sseq (x : Sector) : Nat := match x.use with
  | .inUse n => n
  | _ => 0

/-- The highest SSEQ in use (R358). -/
def topSseq (s : State) : Nat := s.journal.sectors.foldl (fun m x => max m x.sseq) 0

/-! ### The index -/

/-- The address of a page lies in a sector. -/
def PageRef.inSector (r : PageRef) (idx : Nat) : Bool := r.addr / 0x1000 == idx

/-- The distinct SEQs of a stream in the index. -/
def streamSeqs (s : State) (stream : Nat) : List Nat :=
  ((s.journal.index.filter (·.stream == stream)).map (·.seq)).eraseDups

/-- A page's SEQ is one of the newest KEEP_PAGES of its stream, as the last mount or reclaim took them (R344, R372). -/
def isKept (s : State) (stream seq : Nat) : Bool :=
  decide (((streamSeqs s stream).filter (seq < ·)).length < at0 s.journal.keep stream)

/-- KEEP_PAGES of the running image taken (R372). -/
def takeKeep (s : State) : State := modJournal (fun j => { j with keep := (items s).journal.keepPages }) s

/-- The kept SEQs of a stream. -/
def keptSeqs (s : State) (stream : Nat) : List Nat := (streamSeqs s stream).filter (isKept s stream)

/-- The places of a page, newest copy first. -/
def copiesOf (s : State) (stream seq : Nat) : List PageRef :=
  (s.journal.index.filter fun r => r.stream == stream && r.seq == seq).reverse

/-- The kept pages of a sector that have no newer copy (R359). -/
def keptIn (s : State) (idx : Nat) : List PageRef :=
  s.journal.index.filter fun r => r.inSector idx && isKept s r.stream r.seq
    && ((copiesOf s r.stream r.seq).head?.map (·.addr)) == some r.addr

/-- Pages dropped from the index. -/
def unindex (p : PageRef → Bool) (s : State) : State :=
  modJournal (fun j => { j with index := j.index.filter fun r => !p r }) s

/-- The smallest of the erased sectors by erase count and index (R358). -/
def bestErased (l : List Sector) : Option Sector :=
  l.foldl (fun (acc : Option Sector) x => match acc with
    | none => some x
    | some b => if x.eraseCount.getD 0 < b.eraseCount.getD 0 then some x else some b) none

/-- A page added to the index, newest copy last. -/
def indexPage (stream seq a : Nat) (s : State) : State :=
  modJournal (fun j => { j with index := j.index ++ [⟨stream, seq, a⟩], heads := upd j.heads stream (max seq) }) s

/-! ### The defect table -/

/-- The defect-table page of a generation (R363). -/
def defectPage (s : State) (gen : Nat) (l : List Nat) : List Byte :=
  pageBytes 0x1D 0xFF 1 gen (today s) (dt32 s.time.dt.toNat)
    (bytesLE 4 gen ++ bytesLE 2 l.length ++ [0, 0] ++ l.flatMap (bytesLE 2))

/-- The next erased page of a copy, after the last programmed one. -/
def defectSlot (s : State) (copy : Nat) : Nat :=
  (List.range 16).foldl (fun m p => if flashBlank s (defectBase s copy + p * 256) 256 then m else p + 1) 0

/-- The generation, SEQ and sectors of a defect-table page (R363). -/
def defectOf (page : List Byte) : Nat × List Nat :=
  (leAt page 0x10 4, (List.range (min (leAt page 0x14 2) 108)).map fun i => leAt page (0x18 + 2 * i) 2)

/-! ### Space -/

/-- The order in which streams lose pages (R360). -/
def dropOrder : List Nat := [5, 4, 7, 6, 3, 2, 1, 0]

/-- The oldest kept page of the first stream that has one (R360). -/
def dropVictim (s : State) : Option (Nat × Nat) :=
  dropOrder.findSome? fun st => ((keptSeqs s st).foldl (fun (m : Option Nat) q => match m with
    | none => some q
    | some x => some (min x q)) none).map fun q => (st, q)

/-- The number of kept pages of every stream. -/
def keptTotal (s : State) : Nat := (List.range 8).foldl (fun n st => n + (keptSeqs s st).length) 0

/-- Steps put before the work that is left. -/
def pushWork (l : List FlashTask) (s : State) : State := modJournal (fun j => { j with work := l ++ j.work }) s

/-- While kept pages fill every sector that is not needed for the reserve, the oldest is dropped (R360); its copies are
voided, so that no later mount finds it (log 38, DEDUCED). -/
def dropPages : (fuel : Nat) → State → State
  | 0, s => s
  | fuel + 1, s =>
    if 15 * (s.journal.sectors.length - (items s).journal.erasedMin) ≤ keptTotal s then
      match dropVictim s with
      | some (st, q) => dropPages fuel (raise Src.journalFull (modJournal (fun j =>
          { j with keepShort := satInc j.keepShort })
          (unindex (fun r => r.stream == st && r.seq == q)
            (pushWork ((copiesOf s st q).map fun r => .void r.addr false) s))))
      | none => s
    else s

/-- The in-use sector with the lowest SSEQ (R359). -/
def oldestSector (s : State) : Option Sector :=
  (s.journal.sectors.filter fun x => x.sseq != 0).foldl (fun (m : Option Sector) x => match m with
    | none => some x
    | some b => if x.sseq < b.sseq then some x else some b) none

/-- The in-use sector, other than the write sector, with the lowest erase count (R361). -/
def coldestSector (s : State) : Option Sector :=
  bestErased (s.journal.sectors.filter fun x => x.sseq != 0 && s.journal.wsector != some x.idx)

/-- A sector is written no more. -/
def leaveSector (idx : Nat) (s : State) : State :=
  modJournal (fun j => { j with wsector := if j.wsector = some idx then none else j.wsector }) s

/-- The steps of a reclaim of a sector before `tail`: with KEEP_PAGES as they now are, pages that have no room are dropped,
the sector's kept pages copied forward, and the sector erased (R359, R360, R372). -/
def beginReclaim (v : Sector) (tail : List FlashTask) (s : State) : State :=
  let s1 := dropPages 512 (leaveSector v.idx (takeKeep (modJournal (fun j => { j with work := [] }) s)))
  modJournal (fun j =>
    { j with
      reclaims := satInc j.reclaims
      work := j.work ++ (keptIn s1 v.idx).map FlashTask.copy ++ [.erase v.idx] ++ tail ++ s.journal.work }) s1

/-! ### The work of the flash interface, step by step -/

/-- A flash operation asked for, and the steps that follow it. -/
def askOp (op : FlashOpSt) (next : List FlashTask) (s : State) : State :=
  touchFlash (modJournal (fun j => { j with op := op, work := next ++ j.work }) s)

/-- A page of the pending slot that is no copy and no defect table. -/
def PendingPage.own (p : PendingPage) : Bool := (at0 p.image 2).getLsbD 0 && leAt p.image 1 1 % 16 != 13

/-- A page put into the pending slot before its first flash operation, with no address as yet (R346). -/
def holdPage (img : List Byte) (jobs : List Nat) (s : State) : State :=
  modJournal (fun j => { j with pend := some { image := img, addr := j.size, jobs := jobs } }) s

/-- A sector erased: its pages are gone, and it is dirty until its stamp stands; ERASE_COUNT is one more than its last, or
than the highest known (R340). -/
def eraseStep (n : Nat) (s : State) : State :=
  let known := (s.journal.sectors.find? (·.idx == n)).bind (·.eraseCount)
  let count := known.getD ((eraseCounts s).foldl max 0) + 1
  askOp (.erase n) [.stamp n count]
    (putSector { idx := n, use := .dirty, eraseCount := known } (unindex (·.inSector n) (leaveSector n s)))

/-- A sector whose erase or read-back has failed: it is retired (R359). -/
def eraseFailed (n : Nat) (s : State) : State := pushWork [.retire n] (raise Src.eraseFail s)

/-- The sectors that steps are to retire. -/
def toRetire (l : List FlashTask) : List Nat := (l.filterMap fun t => match t with
  | .retired n => some n
  | .retire n => some n
  | _ => none).eraseDups

/-- A step of a staging. -/
def FlashTask.ofStage : FlashTask → Bool
  | .blank _ | .programs .. | .staged _ => true
  | _ => false

/-- Steps given up up to the first that satisfies a test: a copy or a defect table leaves the pending slot, and sectors that
were to be retired are left to the next page write or housekeeping job. -/
def dropSteps (stays : FlashTask → Bool) (s : State) : State :=
  let rest := s.journal.work.dropWhile (!stays ·)
  modJournal (fun j =>
    { j with
      op := .none, waitVbat := false, pend := j.pend.filter (·.own), work := rest
      failing := j.failing ++ toRetire (j.work.take (j.work.length - rest.length)) }) s

/-- A kept page finds no erased page: the copy or the defect table is given up, with the steps that need it; another page
waits in its slot (log 38, DEDUCED). -/
def noRoom (s : State) : State :=
  modJournal (fun j => { j with pend := j.pend.map fun p => { p with waitVbat := true } })
    (dropSteps (fun t => t.ofStage || (match t with
      | .house _ | .write | .mounted .. => true
      | _ => false)) s)

/-- The write sector allocated: the erased sector with the lowest erase count; a dirty sector is erased first where none is
left (R340, R358). One that is to be retired is not taken. -/
def allocStep (s : State) : State :=
  let sound := fun (x : Sector) => !s.journal.failing.contains x.idx
  match bestErased ((erasedSectors s).filter sound), (dirtySectors s).find? sound with
  | some x, _ =>
    askOp (.program (x.idx * 0x1000 + 0xF10) (stamp allocMagic (topSseq s + 1) (today s))) [.allocated x.idx] s
  | none, some d => pushWork [.erase d.idx, .alloc] s
  | none, none => noRoom s

/-- The pending page put at the write position, and its body asked for (Table 10.10 step 3). -/
def placeStep (s : State) : State :=
  match s.journal.pend, s.journal.wsector with
  | none, _ => s
  | some p, some w =>
    if s.journal.wpage < 15 then
      let a := w * 0x1000 + s.journal.wpage * 256
      askOp (.program a (p.image.take 0xFA)) [.verify] (modJournal (fun j =>
        { j with pend := some { p with addr := a }, wpage := j.wpage + 1 }) s)
    else pushWork [.alloc, .place] s
  | some _, none => pushWork [.alloc, .place] s

/-- The pending page made a rewrite: FLAGS with REWRITE, WDAY of today (R348 to R350, R356). -/
def rewriteStep (counted : Bool) (s : State) : State :=
  match s.journal.pend with
  | none => s
  | some p => pushWork [.place] (modJournal (fun j =>
      { j with
        pend := some { p with
          image := reflag s ((at0 p.image 2).toNat &&& 0xFD) p.image, addr := j.size
          waitVbat := false, counted := p.counted || counted } }) s)

/-- A page that fails its read-back or its COMMIT reads: voided, and its image programmed anew; its sector is written no
more, and retired once the page stands (R346, R348). A defect-table page goes to the next page of its copy. -/
def pageFailed (p : PendingPage) (s : State) : State :=
  let n := p.addr / 0x1000
  let s1 := raise Src.programFail s
  if leAt p.image 1 1 % 16 = 13 then
    pushWork [.void p.addr false, .defect (b2n (defectBase s 0 + 0x1000 ≤ p.addr))]
      (modJournal (fun j => { j with pend := none }) s1)
  else
    pushWork [.void p.addr false, .rewrite false] (leaveSector n (modJournal (fun j =>
      { j with failing := if j.failing.contains n then j.failing else j.failing ++ [n] }) s1))

/-- The body read back (Table 10.10 step 4). -/
def verifyStep (s : State) : State :=
  match s.journal.pend with
  | none => s
  | some p =>
    if flashRead s p.addr 0xFA == p.image.take 0xFA then modJournal (fun j => { j with op := .lock }) s
    else pageFailed p s

/-- A page copied forward with COPY set, if it is still kept; one that fails its checks is not copied and is counted
(R359). -/
def copyStep (r : PageRef) (s : State) : State :=
  if !(s.journal.index.contains r && isKept s r.stream r.seq) then s
  else match readPage s r with
    | .ok page c => pushWork [.place] (holdPage (reflag s 0xFE page) [] (modJournal (fun j =>
        { j with corrected := satAdd j.corrected c }) s))
    | _ => modJournal (fun j => { j with checkFail := satInc j.checkFail }) s

/-- A sector retired: its kept pages copied forward first (R359). While the pending slot holds a page, that page goes first
(R346). -/
def retireStep (n : Nat) (s : State) : State :=
  let s1 := leaveSector n (modJournal (fun j => { j with failing := j.failing.filter (· != n) }) s)
  if s.journal.pend.isSome then modJournal (fun j => { j with failing := j.failing ++ [n] }) s1
  else pushWork ((keptIn s1 n).map FlashTask.copy ++ [.retired n]) s1

/-- A retired sector is never used again, and added to both copies of the defect table (R359, R363). -/
def retiredStep (n : Nat) (s : State) : State :=
  let s1 := unindex (·.inSector n) (leaveSector n (modJournal (fun j =>
    { j with sectors := j.sectors.filter (·.idx != n) }) s))
  if s1.journal.defects.contains n then s1
  else if 108 ≤ s1.journal.defects.length then raise Src.journalWorn s1
  else pushWork [.defect 0, .defect 1] (modJournal (fun j =>
    { j with defects := j.defects ++ [n], defectGen := j.defectGen + 1 }) s1)

/-- The defect table appended to a copy; a full copy is erased first (R363). -/
def defectStep (copy : Nat) (s : State) : State :=
  let p := defectSlot s copy
  let a := defectBase s copy + p * 256
  if p < 16 then
    let img := defectPage s s.journal.defectGen s.journal.defects
    askOp (.program a (img.take 0xFA)) [.verify] (modJournal (fun j =>
      { j with pend := some { image := img, addr := a } }) s)
  else askOp (.erase (defectBase s copy / 0x1000)) [.defect copy] s

/-- One step of the work that needs nothing of another chapter. -/
def flashStep (t : FlashTask) (s : State) : State :=
  match t with
  | .erase n => eraseStep n s
  | .stamp n count =>
    if s.journal.opFail || !flashBlank s (n * 0x1000) 0x1000 then eraseFailed n s
    else askOp (.program (n * 0x1000 + 0xF00) (stamp eraseMagic count (today s))) [.stamped n] s
  | .stamped n =>
    if flashBlank s (n * 0x1000) 0xF00 && flashBlank s (n * 0x1000 + 0xF10) 0xF0 then putSector (sectorOf s n) s
    else eraseFailed n s
  | .alloc => allocStep s
  | .allocated n =>
    let x := sectorOf s n
    let s1 := putSector x s
    if x.sseq = 0 then pushWork [.alloc] s1 else modJournal (fun j => { j with wsector := some n, wpage := 0 }) s1
  | .void a torn =>
    let s1 := if torn then raise Src.tornVoided (modJournal (fun j => { j with torn := satInc j.torn }) s) else s
    if flashBlank s a 256 then s1 else askOp (.program a [0x00]) [] s1
  | .place => placeStep s
  | .rewrite counted => rewriteStep counted s
  | .verify => verifyStep s
  | .settle => modJournal (fun j => { j with op := .settle, opAt := s.time.d04 }) s
  | .copy r => copyStep r s
  | .retire n => retireStep n s
  | .retired n => retiredStep n s
  | .defect c => defectStep c s
  | .blank n => askOp (.erase n) [] s
  | .programs a bs =>
    let k := 256 - a % 256
    if bs.isEmpty then s else askOp (.program a (bs.take k)) (if bs.length ≤ k then [] else [.programs (a + k) (bs.drop k)]) s
  | .house _ | .write | .tables | .scan | .pending | .summary _ | .mounted .. | .staged _ => s

/-- A step that another chapter takes part in. -/
def FlashTask.joint : FlashTask → Bool
  | .house _ | .write | .tables | .scan | .pending | .summary _ | .mounted .. | .staged _ => true
  | _ => false

/-- The work may go on: no operation is in progress, no reseat holds its lock (R62), the journal's unit is not fenced, and a
rolled-back page does not wait for the core (R349). -/
def flashMay (s : State) : Bool :=
  s.journal.op == .none && s.lintel.mainOn && !trigHeld s && !(winOf s .journal).fenced && !s.faults.grave
    && !(match s.journal.work.head? with
      | some (.rewrite _) => (s.journal.pend.map (·.waitResume)).getD false
      | _ => false)

/-- The flash's own steps taken, up to the next operation. -/
def runFlash : (fuel : Nat) → State → State
  | 0, s => s
  | fuel + 1, s =>
    if !flashMay s then s
    else match s.journal.work with
      | [] => s
      | t :: rest =>
        if t.joint then s else runFlash fuel (flashStep t (modJournal (fun j => { j with work := rest }) s))

/-- The STAGE job whose staging is in progress. -/
def stagedJob (s : State) : Option Nat := s.journal.work.findSome? fun t => match t with
  | .staged id => some id
  | _ => none

/-- A staging is in progress. -/
def stagingNow (s : State) : Bool := (stagedJob s).isSome

/-- The flash interface has no work. -/
def flashIdle (s : State) : Bool := s.journal.op == .none && s.journal.work.isEmpty

/-! ### The supply and the lock of an operation -/

/-- The operation in progress is a staging's (R623: a STAGE takes the interface between journal operations, and the steps
of a journal job go before the rest of its own). -/
def stageOp (s : State) : Bool := (s.journal.work.head?.map (·.ofStage)).getD false

/-- A job while it runs. -/
def runningId (s : State) (id : Option Nat) : Option Job :=
  id.bind fun n => s.fabric.jobs.find? fun j => j.id == n && j.phase == .running

/-- The job that the operation in progress is for, while it runs. -/
def workJob (s : State) : Option Job := runningId s (if stageOp s then stagedJob s else s.journal.job)

/-- The journal's steps given up, with its lock and the supply; a staging's stay. -/
def dropWork (s : State) : State :=
  journalUnlock (freePeak (modJournal (fun j => { j with job := none }) (dropSteps FlashTask.ofStage s)))

/-- A staging's steps given up with a status for its job. -/
def dropStaging (j : Job) (st : Status) (s : State) : State :=
  stageFails j (readAmend s j) st 0 (freePeak (modJournal (fun x =>
    { x with op := .none, waitVbat := false, work := x.work.filter (!·.ofStage) }) s))

/-- A job of the journal that ends otherwise than by its course: once the operation in progress ends nothing more is done for
it. A page of its own that is in the pending slot, and a page in its commit, go on. -/
def leaveWork (id : Nat) (s : State) : State :=
  if s.journal.job != some id then s
  else if ownLock s .journalCommit then modJournal (fun j =>
    { j with job := none, work := j.work.takeWhile (· == .settle) ++ j.work.filter FlashTask.ofStage }) s
  else if (s.journal.pend.map (·.own)).getD false then modJournal (fun j => { j with job := none }) s
  else modJournal (fun j =>
    { j with op := if s.journal.op = .lock then .none else s.journal.op, waitVbat := s.journal.waitVbat, job := none })
    (dropSteps FlashTask.ofStage s)

/-- The work given up with a status for its job. -/
def giveUp (st : Status) (s : State) : State :=
  match workJob s with
  | some j => if j.desc.engine = 0 then dropStaging j st s else engineEnds j.id { status := st } (dropWork s)
  | none => dropWork s

/-- A flash operation takes the peak load as soon as it is free (R77: the flash operation starts first) where VBAT allows it;
else a job of class C or H ends BROWNOUT, and other work waits (R80). -/
def grantPeak (s : State) : State :=
  if s.lintel.peak = .none && !s.journal.waitVbat && s.journal.op.peak != .none then
    if flashVbatOk s then
      modJournal (fun j => { j with opAt := s.time.d04 }) (modLintel (fun l => { l with peak := s.journal.op.peak }) s)
    else if (workJob s).any fun j => decide (2 ≤ classOfQueue j.queue) then giveUp .brownout s
    else modJournal (fun j => { j with waitVbat := true }) s
  else s

/-- A verified page body takes the journal-commit lock as soon as no locked sequence runs (Table 10.10 step 5). -/
def journalLock (s : State) : State :=
  match s.journal.op, s.journal.pend with
  | .lock, some p =>
    if lockBusy s then s
    else askOp (.program (p.addr + 0xFA) commitWord) [.settle]
      (modMason (fun m => { m with lock := some (.journalCommit, s.time.ticks) }) s)
  | _, _ => s

/-! ### Operations cut off and rolled back -/

/-- The flash operation in progress stops where it is (R49, R351, R369 to R371). -/
def cutOp (s : State) : State :=
  if s.lintel.peak = .program ∨ s.lintel.peak = .erase ∨ s.lintel.eraseSuspended = true then
    match s.journal.op with
    | .program a bs =>
      if bs == [0x00] && a % 256 == 0 then cutVoid a s
      else if a < 0x020000 && bs.length == 16 && a % 256 == 0 then cutStageHead a bs s
      else cutProgram a bs s
    | .erase n => cutErase n s
    | _ => s
  else s

/-- The supply or the interface is gone: the operation stops and the rest of its work is lost. The pending slot keeps its
page. -/
def cutFlash (s : State) : State :=
  journalUnlock (freePeak (modJournal (fun j =>
    { j with op := .none, work := [], job := none, waitVbat := false }) (cutOp s)))

/-- A journal commit rolled back (R349): its program in progress ends, the page is voided, the stream head stays, the jobs
end, and the image is kept to be rewritten once the core runs. -/
def journalRollback (o : FlashObs) (st : Status) (s : State) : State :=
  match s.journal.pend with
  | some p =>
    let s1 := match s.journal.op with
      | .program a bs => if s.lintel.peak = .program then programFlash o a bs s else s
      | _ => s
    p.jobs.foldl (fun t id => engineEnds id { status := st } t)
      (freePeak (modJournal (fun j =>
        { j with
          op := .none, waitVbat := false, pend := some { p with jobs := [], waitResume := true }
          work := [.void p.addr false, .rewrite false] ++ j.work.filter (· != .settle) }) s1))
  | none => s

/-- A rolled-back page may be rewritten, now that the core runs again (R349). -/
def journalResume (s : State) : State :=
  modJournal (fun j => { j with pend := j.pend.map fun p => { p with waitResume := false } }) s

end Sys2Proof.Machine
end

