-- ==== Sys2Proof/Machine/RadioState.lean ====
section
/-! DEFINITION. The radio's small operations that a fence, a reseat and the fabric also need (chapter 11): the activity, contexts, and what a stopped job leaves. -/

namespace Sys2Proof.Machine

/-- The activity changed. -/
def modAct (f : Activity → Activity) (s : State) : State := modRadio (fun r => { r with act := f r.act }) s

/-- The context of a job changed. -/
def modCtx (job : Nat) (f : RadioCtx → RadioCtx) (s : State) : State :=
  modRadio (fun r => { r with ctxs := r.ctxs.map fun c => if c.job = job then f c else c }) s

/-- The context of a job. -/
def ctxOf (s : State) (job : Nat) : Option RadioCtx := s.radio.ctxs.find? fun c => c.job == job

/-- The radio unit works: main domain at work, unit not fenced. -/
def radioUp (s : State) : Bool := s.lintel.mainOn && s.boot.running && !(winOf s .radio).fenced && !s.faults.grave

/-- The activity in progress is of this kind and phase. -/
def inPhase (s : State) (p : ActPhase) : Bool := s.radio.act.kind != .none && s.radio.act.phase == p

/-- Activities that transmit. -/
def ActKind.transmits : ActKind → Bool
  | .send => true | .probe => true | .slotTx => true | .answer => true | .test => true | _ => false

/-- A frame is in the air: a transmission on air, or a reception past its synchronisation word (R51, Table 15.4). -/
def frameInAir (s : State) : Bool :=
  inPhase s .onAir && (s.radio.act.kind.transmits || s.radio.act.sync)

/-- A context left: its job ends with a result. -/
def leaveCtx (job : Nat) (r : JobResult) (s : State) : State :=
  engineEnds job r (modRadio (fun x => { x with ctxs := x.ctxs.filter fun c => c.job != job }) s)

/-- The activity ends: the amplifier or receiver is off, the antenna switch idles, the peak load is given back
(R77, R379), and a fence that waited for the frame in the air follows (Table 15.4). -/
def endAct (s : State) : State :=
  let f := s.radio.fenceAfter
  let s1 := modRadio (fun r =>
    { r with act := {}, locked := false, antSw := at0 (items s).radio.antMap 2, fenceAfter := none }) s
  let s2 := modLintel (fun l =>
    { l with
      xoIdleSince := s.time.ticks
      peak := if l.peak = .tx then (if l.eraseSuspended then .erase else .none) else l.peak
      eraseSuspended := if l.peak = .tx then false else l.eraseSuspended }) s1
  match f with
  | some src => andThen (.fence .radio src) s2
  | none => s2

/-- A radio job that its fabric stops leaves its context, and its activity ends (R109). -/
def radioDrop (job : Nat) (s : State) : State :=
  let s1 := if s.radio.act.job == some job && s.radio.act.kind != .none then endAct s else s
  modRadio (fun r =>
    { r with ctxs := r.ctxs.filter (fun c => c.job != job), waitRes := r.waitRes.filter fun w => w.1 != job }) s1

/-- The reseat lock at the radio (R408): contexts' jobs complete ABORTED, a window or sniff without a frame ends. -/
def radioReseat (s : State) : State :=
  let jobs := s.radio.ctxs.map (·.job)
  let s1 := if s.radio.act.kind != .none && !frameInAir s then endAct s else s
  let s2 := jobs.foldl (fun t id => completeWith id .aborted (radioDrop id t)) s1
  modRadio (fun r => { r with wakePoint := none }) s2

end Sys2Proof.Machine
end

