-- ==== Sys2Proof/Machine/Capture.lean ====
section
/-! DEFINITION. What one direction of a shot delivers: line checks (R153), the edge encoder (R174 to R182), the stops
of the fine-time unit (R184 to R190), the direction record (Table 5.3), and the tests of a pair (Table 6.1). -/

namespace Sys2Proof.Machine

/-! ### Line checks -/

/-- The test current in tenths of a milliampere (Table 4.4). -/
def testCurrent (code : Nat) : Nat := if code = 0 then 1 else if code = 1 then 4 else 16

/-- Capacitance of a line in pF from the counts to 0.5 V: counts × i_test × 8, rounded down. -/
def linePf (p : PathItems) (counts : Nat) : Nat := counts * testCurrent p.iTest * 8 / 10

/-- The result code of a line check (Table 4.2, R153): 0 OK, 1 OPEN, 2 SHORT. -/
def lineCode (p : PathItems) (isUp : Bool) (o : LineObs) : Nat :=
  let lo := if isUp then p.cMinU else p.cMinD
  let hi := if isUp then p.cMaxU else p.cMaxD
  match o.counts with
  | none => 2
  | some c =>
    let pf := linePf p c
    if hi < pf then 2 else if !o.holdOk then 2 else if pf < lo then 1 else 0

/-! ### Comparators and lanes -/

/-- The changes of a comparator that trips above `hi` and releases below `lo`, over the wave (R150, R176). -/
def compareWave (hi lo : Int) : Bool → List (Nat × Int) → List (Nat × Bool)
  | _, [] => []
  | now, (t, v) :: rest =>
    let next := if hi < v then true else if v < lo then false else now
    if next = now then compareWave hi lo now rest else (t, next) :: compareWave hi lo next rest

/-- A comparator's output in the window: its level when the window opens, and its changes. -/
structure Output where
  init : Bool := false
  changes : List (Nat × Bool) := []
  deriving DecidableEq, Repr, Inhabited

/-- The level of an output at a time in ps. -/
def Output.at_ (x : Output) (t : Nat) : Bool := ((x.changes.filter fun c => decide (c.1 ≤ t)).getLast?.map (·.2)).getD x.init

/-- A comparator over the wave; what stands at window open is no change. -/
def compareOf (hi lo : Int) (wave : List (Nat × Int)) : Output :=
  let init := match wave.head? with
    | some (0, v) => decide (hi < v)
    | _ => false
  ⟨init, compareWave hi lo init wave⟩

/-- The zero-crossing comparator: its hysteresis lies evenly about the baseline, so each switching level is half of it away,
ZC_HYST × 250 µV (R176; log 37, DEDUCED). -/
def zcOutput (p : PathItems) (o : DirObs) : Output := compareOf (p.zcHyst * 250) (-(p.zcHyst * 250 : Int)) o.wave

/-- The threshold comparator, or its mirror on the opposite side: it trips above THR and releases TH_HYST below it (R150,
R176). -/
def thOutput (p : PathItems) (thr : Nat) (mirror : Bool) (o : DirObs) : Output :=
  let neg := (p.thrPol == 1) != mirror
  compareOf (thr * 1000) ((thr : Int) * 1000 - p.thHyst * 1000) (o.wave.map fun x => (x.1, if neg then -x.2 else x.2))

/-- The time at which an output first shows high. -/
def Output.tripAt (x : Output) : Option Nat := if x.init then some 0 else (x.changes.find? (·.2)).map (·.1)

/-- The mirror comparator tripped before the threshold comparator (R157). -/
def mirrorFirst (p : PathItems) (thr : Nat) (o : DirObs) : Bool :=
  match (thOutput p thr false o).tripAt, (thOutput p thr true o).tripAt with
  | none, some _ => true
  | some a, some b => decide (b < a)
  | _, none => false

/-- The peak code: the largest magnitude inside a window of `limit` grid units, in steps of 4 mV (R152). -/
def peakCode (limit : Nat) (o : DirObs) : Nat :=
  satNat 8 (((o.wave.filter fun x => decide (x.1 < limit * 25)).foldl (fun m x => max m x.2.natAbs) 0) / 4000)

/-- The merged stream: grid unit g is the sample of lane g mod 4, 25 ps each (R174). -/
def merged (x : Output) (o : DirObs) (g : Nat) : Bool := x.at_ (25 * g) != o.flips.contains g

/-- The fifth sampler reads the threshold output on lane 0's instants (R175). -/
def fifth (x : Output) (g : Nat) : Bool := x.at_ (100 * (g / 4))

/-- A number put into a rising list. -/
def insertNat (n : Nat) : List Nat → List Nat
  | [] => [n]
  | x :: xs => if n < x then n :: x :: xs else if n = x then x :: xs else x :: insertNat n xs

/-- The grid units below `limit` at which a sampled level differs from the one before, among those where it can. -/
def transitions (limit step : Nat) (lvl : Nat → Bool) (cand : List Nat) : List (Nat × Bool) :=
  ((cand.foldl (fun l g => insertNat g l) []).filter fun g =>
    decide (step ≤ g) && decide (g < limit) && lvl g != lvl (g - step)).map fun g => (g, lvl g)

/-- The lanes of which not all four samples in the 400 ps from a transition show its level (Table 5.2). -/
def lanesOff (lvl : Nat → Bool) (g : Nat) (v : Bool) : List Nat :=
  (List.range 4).filter fun k => (List.range 16).any fun i => (g + i) % 4 == k && lvl (g + i) != v

/-! ### The edge encoder -/

/-- One stored transition (Table 5.2) with the lanes that disagree and the fine-time unit's sample of it. -/
structure EdgeRec where
  time : Nat := 0
  rising : Bool := false
  threshold : Bool := false
  off : List Nat := []
  glitch : Bool := false
  stop : Bool := false
  coarse : Nat := 0
  fine : Nat := 0
  deriving DecidableEq, Repr, Inhabited

/-- AGREE: 4 for a threshold record (Table 5.2). -/
def EdgeRec.agree (e : EdgeRec) : Nat := 4 - e.off.length

/-- The 32-bit word of an edge record (Table 5.2). -/
def EdgeRec.word (e : EdgeRec) : Word :=
  BitVec.ofNat 32 (e.time % 2 ^ 24 + b2n e.rising * 2 ^ 24 + b2n e.threshold * 2 ^ 25 + e.agree % 8 * 2 ^ 26
    + b2n e.glitch * 2 ^ 29 + b2n e.stop * 2 ^ 31)

/-- The transitions of one comparator that its hold-off of `w` grid units lets through; a return at its very end is no new edge
(R177). -/
def heldOff (w : Nat) : List EdgeRec → Option Nat → List EdgeRec
  | [], _ => []
  | e :: es, last =>
    match last with
    | some t => if e.time ≤ t + w then heldOff w es last else e :: heldOff w es (some e.time)
    | none => e :: heldOff w es (some e.time)

/-- The recorded transitions of one comparator; GLITCH where, at the end of the hold-off, the window still open, the
comparator does not show the level of the recorded edge (R177). -/
def conditioned (p : PathItems) (limit : Nat) (lvl : Nat → Bool) (es : List EdgeRec) : List EdgeRec :=
  let w := p.holdoffW * 256
  (heldOff w es none).map fun e =>
    { e with glitch := decide (e.time + w < limit) && lvl (e.time + w) != e.rising }

/-- The threshold transitions of the first `n` pulses: a rising record and the falling record of the same pulse. A falling
record whose rise the hold-off or the window's opening has swallowed is a pulse of its own (R178; log 39, DEDUCED). `inside`: a
pulse is open. -/
def firstPulses (n : Nat) (inside : Bool) : List EdgeRec → List EdgeRec
  | [] => []
  | e :: es =>
    if inside && !e.rising then e :: firstPulses n false es
    else if n = 0 then [] else e :: firstPulses (n - 1) e.rising es

/-- One record put into its place: ascending time, zero-crossing before threshold (R179). -/
def insertEdge (e : EdgeRec) : List EdgeRec → List EdgeRec
  | [] => [e]
  | x :: xs =>
    if e.time < x.time || (e.time == x.time && !e.threshold && x.threshold) then e :: x :: xs
    else x :: insertEdge e xs

/-- What the encoder made of a window: the stored records, edges dropped, OVERFLOW, a full FIFO, and the time at which
CLOSE_ON_FULL closed the window. -/
structure Encoded where
  stored : List EdgeRec := []
  dropped : Nat := 0
  overflow : Bool := false
  fifo : Bool := false
  closedAt : Option Nat := none
  /-- Records in the FIFO from D14 to D07, and the D07 cycle of the last arrival (R182). -/
  waiting : Nat := 0
  cycle : Nat := 0
  deriving DecidableEq, Repr, Inhabited

/-- One record arriving at the capture RAM behind the 16-entry FIFO, which gives up two records in a D07 cycle of 1 250
grid units (R181, R182, R198). -/
def storeEdge (p : PathItems) (x0 : Encoded) (e : EdgeRec) : Encoded :=
  let c := e.time / 1250
  let x := { x0 with waiting := x0.waiting - 2 * (c - x0.cycle), cycle := c }
  match x.closedAt with
  | some t => if e.time / 256 = t / 256 then { x with dropped := satNat 16 (x.dropped + 1), overflow := true } else x
  | none =>
    if 16 ≤ x.waiting then { x with overflow := true, fifo := true }
    else if x.stored.length < p.edgeMax then
      { x with
        stored := x.stored ++ [e], waiting := x.waiting + 1
        closedAt := if x.stored.length + 1 = p.edgeMax && p.closeOnFull = 1 then some e.time else none }
    else { x with waiting := x.waiting + 1, dropped := satNat 16 (x.dropped + 1), overflow := true }

/-- The zero-crossing transitions that the encoder and the stop counter see (R174, R177). -/
def zeroCrossings (p : PathItems) (limit : Nat) (o : DirObs) : List EdgeRec :=
  let x := zcOutput p o
  let lvl := merged x o
  let cand := x.changes.map (fun c => ceilDiv c.1 25) ++ o.flips.flatMap fun g => [g, g + 1]
  conditioned p limit lvl ((transitions limit 1 lvl cand).map fun t =>
    { time := t.1, rising := t.2, off := lanesOff lvl t.1 t.2 })

/-- The threshold transitions that the encoder sees (R175, R177). -/
def thresholds (p : PathItems) (thr limit : Nat) (o : DirObs) : List EdgeRec :=
  let x := thOutput p thr false o
  let cand := x.changes.map fun c => 4 * ceilDiv c.1 100
  conditioned p limit (fifth x) ((transitions limit 4 (fifth x) cand).map fun t =>
    { time := t.1, rising := t.2, threshold := true })

/-- The end of the window in grid units: where CLOSE_ON_FULL has closed it, after that edge (R181). -/
def Encoded.limit (x : Encoded) (limit : Nat) : Nat := match x.closedAt with
  | some t => min limit (t + 1)
  | none => limit

/-- The encoder over the transitions of a window (R174 to R182). A hold-off that ends after the window has closed leaves no
GLITCH. -/
def encodeEdges (p : PathItems) (thr limit : Nat) (o : DirObs) : Encoded :=
  let x := ((zeroCrossings p limit o ++ firstPulses p.thPulses false (thresholds p thr limit o)).foldl
    (fun l e => insertEdge e l) []).foldl (storeEdge p) {}
  { x with stored := x.stored.map fun e =>
      { e with glitch := e.glitch && decide (e.time + p.holdoffW * 256 < x.limit limit) } }

/-! ### Stops -/

/-- The arming record: the first threshold rising record. -/
def armOf (stored : List EdgeRec) : Option EdgeRec := stored.find? fun e => e.threshold && e.rising

/-- The stops taken: held-off zero crossings of polarity STOP_POL after arming, from STOP_FIRST on, before the window
closes (R184). -/
def stopsTaken (p : PathItems) (zc : List EdgeRec) (x : Encoded) : List EdgeRec :=
  match armOf x.stored with
  | none => []
  | some a =>
    ((zc.filter fun e => decide (a.time < e.time) && e.rising == (p.stopPol == 0)
        && (match x.closedAt with
            | some t => decide (e.time ≤ t)
            | none => true)).drop p.stopFirst).take p.stopN

/-- The sum of a calibration's sixteen launches (R185). -/
def calSum (taps : List Nat) : Nat := satNat 16 (taps.take 16).sum

/-- A calibration's sum in its range, with no pulse out of the line (R186). -/
def calInRange (taps : List Nat) : Bool := within 6400 8175 (calSum taps) && taps.all fun f => decide (f < 512)

/-- Division rounded half up (R187). -/
def halfUp (n d : Int) : Int := (2 * n + d).fdiv (2 * d)

/-- The nominal stop time in 1/65536 ns (R187). -/
def tNom (calA calB coarse fine : Nat) : Int :=
  (coarse * 262144 : Nat) - halfUp ((fine * 262144 * 32 : Nat)) ((calA + calB : Nat))

/-- The stop time with the time scale (R187). -/
def tStop (tn scale : Int) : Int := tn - halfUp (tn * scale) 1000000000

/-- A Scribe record's time from the origin in 1/65536 ns (R189). -/
def tScribe (winOpen time : Nat) : Int := halfUp (((160 * winOpen + time) * 8192 : Nat)) 5

/-- Widths of the threshold pulses: each rising record with the falling record next to it. -/
def pulseWidths : List EdgeRec → List Nat
  | a :: b :: rest => if a.rising && !b.rising then (b.time - a.time) :: pulseWidths rest else pulseWidths (b :: rest)
  | _ => []

/-- FLAGS of a direction record (Table 5.3). -/
def dirFlags (overflow noArm drift align low unlock glitch short : Bool) : Nat :=
  b2n overflow + b2n noArm * 2 + b2n drift * 4 + b2n align * 8 + b2n low * 16 + b2n unlock * 32 + b2n glitch * 64
    + b2n short * 128

/-- What the end of a window delivers: the record, the encoder's result, the stops taken, DEV_MAX in ps. -/
structure DirEnd where
  dir : DirRec := {}
  enc : Encoded := {}
  taken : List EdgeRec := []
  devMax : Nat := 0
  calOk : Bool := false
  deriving DecidableEq, Repr, Inhabited

/-- The end of a direction (R172 to R193), whose window ran `winRun` cycles with the threshold `thr`. Where lock was lost,
the FTU has stopped: no second calibration, no stops; `noCal` stands for CAL16_B then. -/
def endDirection (p : PathItems) (thr winRun : Nat) (noCal : Option Nat) (ofs scale : Int) (o : DirObs) (c : CloseObs)
    (d : DirRec) : DirEnd :=
  let limit := winRun * 160
  let unlock := noCal.isSome
  let calA := calSum o.calA
  let calB := noCal.getD (calSum c.calB)
  let enc := encodeEdges p thr limit o
  let taken := (stopsTaken p (zeroCrossings p limit o) enc).zipIdx.map fun e =>
    { e.1 with coarse := (at0 o.taps e.2).1, fine := (at0 o.taps e.2).2 }
  let stored := enc.stored.map fun e =>
    { e with stop := !e.threshold && taken.any fun t => t.time == e.time }
  let firstTh := (stored.findIdx? (·.threshold)).getD 0
  let first := firstTh - p.keepPre
  let kept := (stored.drop first).take p.keepN
  let calOk := calInRange o.calA && (unlock || calInRange c.calB) && taken.all fun e => decide (e.fine < 512)
  let stops := if calOk && !unlock then taken else []
  let noms := stops.map fun e => tNom calA calB e.coarse e.fine
  let devs := (stops.zip noms).map fun x => (tScribe p.winOpen x.1.time - x.2 - ofs).natAbs
  let low := (stored.filter fun e => !e.threshold && decide (e.agree < p.agreeMin)).length
  let noArm := (stored.all fun e => !e.threshold)
  let run := match enc.closedAt with
    | some t => ceilDiv (t + 1) 160
    | none => winRun
  { enc := { enc with stored := stored }, taken := taken, calOk := calOk
    devMax := satNat 16 ((devs.foldl max 0) * 1000 / 65536)
    dir := { d with
      kind := .record
      flags := dirFlags enc.overflow noArm (!unlock && decide (p.calDriftMax < ((calA : Int) - calB).natAbs))
        (devs.any fun x => decide (p.alignTol * 65536 < x * 1000)) (decide (0 < low)) unlock
        (stored.any (·.glitch)) (decide (taken.length < p.stopN))
      stored := stored.length, dropped := enc.dropped, winRun := run, calA := calA, calB := calB
      agreeLow := satNat 8 low, first := first, kept := kept.map (·.word)
      stops := noms.map fun t => tStop t scale
      stopIdx := stops.map fun e =>
        (kept.findIdx? fun k => !k.threshold && k.time == e.time).getD 0xFFFF
      pulses := pulseWidths (stored.filter (·.threshold)), calBad := !calOk, peak := peakCode (enc.limit limit) o
      wrongSide :=
        if mirrorFirst p thr o then p.expectPol == p.thrPol
        else (thOutput p thr false o).tripAt.isSome && p.expectPol != p.thrPol } }

/-- The direction record in its granules (Table 5.3, R192). -/
def DirRec.bytes (path : Nat) (p : PathItems) (d : DirRec) : List Byte :=
  padTo (p.granules * 512) 0 (
    bytesLE 1 1 ++ bytesLE 1 (path + 2 * b2n (!d.isUp)) ++ bytesLE 2 d.kept.length ++ bytesLE 4 p.winOpen
    ++ bytesLE 4 d.winRun ++ bytesLE 2 d.stored ++ bytesLE 2 d.dropped ++ bytesLE 2 d.flags
    ++ bytesLE 1 d.stops.length ++ bytesLE 1 d.agreeLow ++ bytesLE 2 d.calA ++ bytesLE 2 d.calB
    ++ bytesLE 2 d.first ++ List.replicate 6 0
    ++ padTo 64 0xFF ((d.stops.zip d.stopIdx).flatMap fun x => bytesInt 6 x.1 ++ bytesLE 2 x.2)
    ++ d.kept.flatMap fun w => bytesLE 4 w.toNat)

/-! ### Pair evaluation -/

/-- A flag of a direction record. -/
def DirRec.flag (d : DirRec) (i : Nat) : Bool := d.flags.testBit i

/-- TIME of an edge word. -/
def edgeTime (w : Word) : Nat := w.toNat % 2 ^ 24

/-- The zero-crossing records that the interference test covers: after the arming record, up to the last stop's record
or the end of the kept span (R214). -/
def testSpan (d : DirRec) : List Word :=
  match d.kept.findIdx? (fun w => w.getLsbD 25 && w.getLsbD 24) with
  | none => []
  | some a =>
    let last := d.stopIdx.foldl max 0
    let stop := if d.stopIdx.isEmpty then d.kept.length else min d.kept.length (last + 1)
    ((d.kept.take stop).drop (a + 1)).filter fun w => !w.getLsbD 25

/-- Intervals between successive elements. -/
def gaps : List Nat → List Nat
  | a :: b :: rest => (b - a) :: gaps (b :: rest)
  | _ => []

/-- Times of the records of one polarity. -/
def polTimes (span : List Word) (rising : Bool) : List Nat :=
  (span.filter fun w => w.getLsbD 24 == rising).map edgeTime

/-- The interference test fails on a direction (R214). -/
def noisy (p : PathItems) (d : DirRec) : Bool :=
  let span := testSpan d
  let bad := fun g : Nat => decide (g * p.f16Q * 100 < 88 * 320000 * p.burstHalf)
    || decide (112 * 320000 * p.burstHalf < g * p.f16Q * 100)
  (gaps (polTimes span true)).any bad || (gaps (polTimes span false)).any bad
  || span.any (fun w => decide (bits 28 26 w.toNat < p.agreeMin) || w.getLsbD 29) || d.flag 3

/-- PWR of a direction: the first pulse's width × 256 over the second's, rounded down (R216). -/
def pwrOf (d : DirRec) : Option Nat :=
  match d.pulses with
  | a :: b :: _ => some (a * 256 / b)
  | _ => none

/-- A direction passes the pulse-width-ratio test (R216). -/
def pwrPasses (p : PathItems) (d : DirRec) : Bool :=
  match pwrOf d with
  | some x => within p.pwrMin p.pwrMax x
  | none => false

/-- T_per of a direction in grid units (R216). -/
def periodOf (p : PathItems) (d : DirRec) : Int :=
  let ts := polTimes (testSpan d) (p.stopPol == 0)
  quot ((ts.getLastD 0 : Int) - ts.headD 0) ((ts.length : Int) - 1 + b2n ts.isEmpty)

/-- The mean of the first `n` stop times (R205). -/
def meanStop (n : Nat) (d : DirRec) : Int := quot ((d.stops.take n).foldl (· + ·) 0) n

/-- The tests of Table 6.1 on the two directions of a pair. -/
def pairTest (p : PathItems) (up dn : DirRec) : PairTest :=
  let both := [up, dn]
  if both.any (·.kind == .line) then { outcome := 2 }
  else if both.any (fun d => d.kind == .capture || d.flag 5 || d.calBad) then { outcome := 3 }
  else if both.any (·.flag 1) then { outcome := 4 }
  else
    let base : PairTest := { pwrUp := pwrOf up, pwrDn := pwrOf dn }
    if both.any (noisy p) then { base with outcome := 5 }
    else
      let n := min up.stops.length dn.stops.length
      if n < p.stopsMin then { base with outcome := 6 }
      else
        let mu := meanStop n up
        let md := meanStop n dn
        let dt := mu - md
        let per := roundDiv (periodOf p up + periodOf p dn) 2
        let k := quot (dt * 5) (per * 8192)
        let t : PairTest := { base with dtRaw := dt, meanUp := mu, meanDn := md, timed := true, k := k }
        let fu := !pwrPasses p up
        let fd := !pwrPasses p dn
        if k = 0 then { t with outcome := 0, pwrWarn := fu || fd }
        else if (k = 1 || k = -1) && fu != fd && p.repairEn = 1 then
          let shift := k * roundDiv (per * 8192) 5
          let mu' := if fu then mu - shift else mu
          let md' := if fu then md else md + shift
          { t with outcome := 1, dtRaw := mu' - md', meanUp := mu', meanDn := md', repDown := fd }
        else { t with outcome := 7 }

/-- Outcomes 0 and 1 are accepted (R213). -/
def PairTest.accepted (t : PairTest) : Bool := decide (t.outcome ≤ 1)

/-! ### Flow (R225 to R228) -/

/-- A limit or delay in ps in units of 1/65536 ns (R223, R225). -/
def psUnits (ps : Int) : Int := roundDiv (ps * 65536) 1000

/-- The correction factor (R226). -/
def kfOf : List (Nat × Nat) → Nat → Int
  | [], _ => 0
  | [a], _ => a.2
  | a :: b :: rest, x =>
    if x ≤ a.1 then a.2
    else if x < b.1 then a.2 + roundDiv (((b.2 : Int) - a.2) * ((x : Int) - a.1)) ((b.1 : Int) - a.1)
    else kfOf (b :: rest) x

/-- What R225 gives for one path. -/
structure PathFlow where
  dt : Int := 0
  tof : Int := 0
  sound : Int := 0
  vel : Int := 0
  q : Int := 0
  zero : Int := 0
  deriving DecidableEq, Repr, Inhabited

/-- The flow of an accepted path; none where the sound speed lies outside its window (R225). -/
def pathFlow (f : FlowPath) (e : PairEval) : Option PathFlow :=
  let pre := psUnits f.tPrePs
  let dt := e.dtRaw - e.zeroUsed
  let up := e.meanUp - pre
  let dn := e.meanDn - pre
  let tof := roundDiv (up + dn) 2
  let c := quot ((f.lUm : Int) * 65536000000) tof
  if c < f.cMinMms || (f.cMaxMms : Int) < c then none
  else
    let v := quot ((f.lUm : Int) * f.lUm * dt * 65536000000000) (2 * f.laxUm * up * dn)
    let raw := roundDiv (v * f.areaQ * 36) 1000000
    some { dt := dt, tof := tof, sound := c, vel := v, zero := e.zeroUsed,
           q := roundDiv (raw * kfOf f.k raw.natAbs) 65536 }

end Sys2Proof.Machine
end

