-- ==== Sys2Proof/Machine/ShotState.lean ====
section
/-! DEFINITION. The shot sequencer's job chain (R207, R238, R525) and its parts of the state, shared by the commands of
chapters 4 to 6 and by what follows the end of a SHOT_PAIR job. -/

namespace Sys2Proof.Machine

/-- A path of the front end changed. -/
def modPath (p : Nat) (f : FrontPath → FrontPath) (s : State) : State :=
  modFront (fun x => { x with paths := upd x.paths p f }) s

/-- A path of the shot sequencer changed. -/
def modShotPath (p : Nat) (f : ShotPath → ShotPath) (s : State) : State :=
  modShot (fun x => { x with paths := upd x.paths p f }) s

/-- The items of a path. -/
def pathItems (s : State) (p : Nat) : PathItems := at0 (items s).shot.paths p

/-- A path is fenced (R156), or the chip is grave. -/
def pathFenced (s : State) (p : Nat) : Bool := s.faults.grave || (winOf s .front).part.getLsbD p

/-- The paths the meter uses, and those of them that are not fenced. -/
def livePaths (s : State) : List Nat := (List.range (pathCount s)).filter fun p => !pathFenced s p

/-- The Scribe or the FTU unit is fenced (R197). -/
def captureFenced (s : State) : Bool := (winOf s .scribe).fenced || (winOf s .ftu).fenced || s.faults.grave

/-- The pair in progress: its job is still on the engine. -/
def shotRun (s : State) : Option PairRun :=
  s.shot.run.filter fun r => (onEngine s 4).any fun j => j.id == r.job && j.phase == .running

/-- A descriptor template of section 0x04. -/
def templateOf (s : State) (t : Nat) : Desc := Desc.ofWords (at0 (items s).mason.templates t)

/-- A time in µs as whole ticks of D04, rounded down. -/
def wholeTicks (us : Nat) : Nat := us * 32768 / 1000000

/-- A measured time in µs, within what `d` ticks between its ends leave open. -/
def boundUs (d us : Nat) : Nat := max ((d - 1) * 15625 / 512) (min us (ceilDiv ((d + 1) * 15625) 512))

/-- An M job dispatched or served more than 100 µs after it became ready (R120). -/
def countDelay (cls waitUs : Nat) (s : State) : State :=
  if cls = 0 && 100 < waitUs then
    raiseIf (decide (s.shot.per * 1000 < waitUs)) Src.mDelayLate
      (modFabric (fun f => { f with mDelay := satInc f.mDelay, mDelayMax := max f.mDelayMax (min waitUs (2 ^ 24 - 1)) }) s)
  else s

/-- The shot holds the front end and the capture units: a direction runs, or one is due (R163, R199). -/
def shotHolds (s : State) : Bool :=
  match shotRun s with
  | none => false
  | some r => r.openDir.isSome || decide (r.waitRetry.getD r.dueAt ≤ s.time.ticks)

/-- The window of the open direction has opened, WIN_OPEN after its burst, by the ticks of D04 (R171; log 37, DEDUCED). -/
def windowOpen (s : State) : Bool :=
  match shotRun s with
  | some r => r.openDir.isSome && decide (r.startedAt + wholeTicks ((pathItems s r.path).winOpen / 250) ≤ s.time.ticks)
  | none => false

/-- The entry of a SHOT_PAIR job in its event. -/
def evalOf (s : State) (job : Nat) : Option ShotEval := s.shot.evals.find? (·.job == job)

/-- What a SHOT_PAIR job leaves for its FLOW job. -/
def setEval (job : Nat) (e : PairEval) (s : State) : State :=
  modShot (fun x => { x with evals := x.evals.map fun y => if y.job = job then { y with eval := e } else y }) s

/-- A SHOT_PAIR job put into an event. -/
def joinEvent (job flow path : Nat) (s : State) : State :=
  modShot (fun x => { x with evals := x.evals ++ [{ job := job, flow := flow, path := path }] }) s

/-- The first SHOT_PAIR of an event is dispatched: the held FLOW job is submitted, with a WAIT of the unfenced paths,
to the queue that the pair's NEXT names (R207, R525). Events whose FLOW job is gone are forgotten. -/
def startEvent (j : Job) (s : State) : State :=
  let s1 := modShot (fun x => { x with
    evals := x.evals.filter fun e => s.fabric.jobs.any (·.id == e.flow) }) s
  chipJob 0x14 j.desc.nextQ { templateOf s (items s).shot.flowTpl with
    hold := true, wait := (livePaths s).length } [] (joinEvent j.id s.fabric.nextId (j.desc.arg 0 % 2) s1)

/-- What the dispatch of a SHOT_PAIR job adds (R207): a job that no event holds starts one. -/
def shotDispatch (j : Job) (s : State) : State := if (evalOf s j.id).isSome then s else startEvent j s

/-- What follows a SHOT_PAIR job's completion: an ending other than DONE or DONE_FLAGGED leaves the path not accepted
(R208), and path 1's end submits path 2's job (R207), or releases the FLOW job where path 2 was fenced meanwhile
(R238). -/
def afterPair (queue path job : Nat) (st : Status) (s : State) : State :=
  let s1 := if st.ok then s else setEval job {} s
  match evalOf s job with
  | some e =>
    if path ≠ 0 || pathCount s ≠ 2 then s1
    else if pathFenced s 1 then
      modJob e.flow (fun j => { j with phase := match j.phase with
        | .held _ => .ready
        | p => p }) s1
    else chipJob 0x14 queue (templateOf s (items s).shot.shot2Tpl) [] (joinEvent s1.fabric.nextId e.flow 1 s1)
  | none => s1

end Sys2Proof.Machine
end

