-- ==== Sys2Proof/Machine/Settle.lean ====
section
/-! DEFINITION. The end of every command: the consequences that fall at the end of its fabric cycle and in the next one
(chapter 15): Mason events, history and audit records, class reactions, fences and the grave state. -/

namespace Sys2Proof.Machine

/-! ### Fencing (R523, R524, Table 15.4) -/

/-- A window marked fenced by a source; the first fence names it (R524 step 4, R542). -/
def markFenced (src : FaultSrc) (b : Block) (s : State) : State :=
  modWin b (fun w => if w.fenced then w else { w with fenced := true, by_ := src.block.byte, bySource := src.num }) s

/-- A fence during a reseat before its switch point rolls it back (R540). -/
def fenceReseat (s : State) : State :=
  modBoot (fun b => { b with reseatFenced := b.reseatFenced || b.reseatPhase == 1 }) s

/-- The windows marked, the jobs of the engines completed FENCED (R524, R137), and the source held (R513). -/
def fenceBlocks (src : FaultSrc) (blocks : List Block) (engines : List Nat) (s : State) : State :=
  let s1 := pinSource src (blocks.foldl (fun t b => markFenced src b t) (fenceReseat s))
  completeAll (fun j => engines.contains j.desc.engine) .fenced s1

/-- A job of the front end or the shot sequencer that names a path. -/
def namesPath (p : Nat) (j : Job) : Bool :=
  let a := j.desc.arg 0
  (j.desc.engine == 4 && j.desc.opcode == 1 && a % 2 == p)
  || (j.desc.engine == 1 && j.desc.opcode == 1 && a.testBit p) || (j.desc.engine == 1 && j.desc.opcode == 2 && a % 2 == p)

/-- A front path fenced (R156, R525): its sub-unit bit, FENCED once every path the meter uses is, and NO_PATH then. -/
def fencePath (p : Nat) (src : FaultSrc) (s : State) : State :=
  if (winOf s .front).part.getLsbD p then s
  else
    let s1 := pinSource src (modWin .front (fun w =>
      { w with part := setBit w.part p true, by_ := src.block.byte, bySource := src.num }) (fenceReseat s))
    let all := (livePaths s1).isEmpty
    let s2 := if all then setLevel Src.noPath true (modWin .front (fun w => { w with fenced := true }) s1) else s1
    completeAll (namesPath p) .fenced s2

/-- The journal unit fenced: a commit in its lock is rolled back and its page voided, another operation is cut with the
supply, a staging ends, NV_PWR goes off, and the pending slot keeps its page for the next bring-up (R366, R373, R540,
R623). -/
def fenceJournal (src : FaultSrc) (s : State) : State :=
  let s1 := match ownLock s .journalCommit, s.journal.pend with
    | true, some p => programFlash {} p.addr [0x00] (journalRollback {} .fenced s)
    | _, _ => s
  let s2 := match runningId s1 (stagedJob s1) with
    | some j => stageFails j (readAmend s1 j) .fenced 0 (cutFlash s1)
    | none => cutFlash s1
  fenceBlocks src [.journal] [10] (modJournal (fun j =>
    { j with
      pwr := false, dpd := false, restoreDue := false
      pend := j.pend.map fun p => { p with jobs := [], waitVbat := false, waitResume := false } }) s2)

/-- The radio unit fenced (Table 15.4): at once, or at the end of the frame in the air (R480). -/
def fenceRadio (src : FaultSrc) (s : State) : State :=
  if frameInAir s then modRadio (fun r => { r with fenceAfter := r.fenceAfter <|> some src }) s
  else
    let s1 := if s.radio.act.kind != .none then endAct s else s
    fenceBlocks src [.radio] [11] (modRadio (fun r =>
      { r with ctxs := [], waitRes := [], wakePoint := none }) s1)

/-- The current record of the temperature channels is given up with its unit. -/
def dropTempRecord (s : State) : State :=
  match s.temp.current with
  | some g => releaseGran g (modTemp (fun t => { t with current := none, run := none })
      (modGran g (fun x => { x with published := false }) s))
  | none => modTemp (fun t => { t with run := none }) s

/-- A unit fenced by a source; one that is fenced already stays as it is (R523, Table 15.4). -/
def fenceUnit (u : FaultUnit) (src : FaultSrc) (s : State) : State :=
  let once := fun (b : Block) (f : State → State) => if (winOf s b).fenced then s else f s
  match u with
  | .frontPath p => fencePath p src s
  | .scribe => once .scribe fun t => fenceBlocks src [.scribe] [2] (modScribe (fun x =>
      { x with ram := Vector.replicate 2 [], ramOverflow := Vector.replicate 2 false })
      (completeAll (fun j => j.desc.engine == 4 && j.desc.opcode == 1 && j.phase == .running) .fenced t))
  | .ftu => once .ftu fun t => fenceBlocks src [.ftu] [3] (modScribe (fun x =>
      if ((shotRun t).bind (·.openDir)).isNone then x
      else { x with ram := Vector.replicate 2 [], ramOverflow := Vector.replicate 2 false })
      (completeAll (fun j => j.desc.engine == 4 && j.desc.opcode == 1 && j.phase == .running) .fenced t))
  | .shot => once .shot (fenceBlocks src [.shot] [4, 5])
  | .temp => once .temp fun t => fenceBlocks src [.temp] [6] (dropTempRecord t)
  | .integ => once .integ (fenceBlocks src [.integ] [7])
  | .bill => once .bill (fenceBlocks src [.bill] [8])
  | .tamper => once .tamper (fenceBlocks src [.tamper] [9])
  | .journal => once .journal (fenceJournal src)
  | .radio => once .radio (fenceRadio src)
  | .link => once .link fun t => fenceBlocks src [.link] [12] (enterOff t)
  | .cipher => once .cipher fun t => unlockAs .consentCommit <| endSessions (fenceBlocks src [.cipher, .roles] [13] (abortLoads t))
  | .entropy => once .entropy (fenceBlocks src [.entropy] [14])
  | .keyslot => once .keyslot fun t => fenceBlocks src [.keyslot] [] (abortLoads t)
  | .lcd => once .lcd fun t => fenceBlocks src [.lcd] [15] (modLcd (fun x =>
      { x with fenceSrc := some src, pend := none, seg := none }) t)

/-- The unit that a class B source fences: the one its block's chapter names (R523). -/
def unitOf (src : FaultSrc) : Option FaultUnit :=
  match src.block with
  | .front => if src.num = 0 ∨ src.num = 2 ∨ src.num = 4 then some (.frontPath 0)
    else if src.num = 1 ∨ src.num = 3 ∨ src.num = 5 then some (.frontPath 1) else none
  | .scribe => some .scribe | .ftu => some .ftu | .journal => some .journal | .radio => some .radio
  | .link => some .link | .cipher => some .cipher | .keyslot => some .keyslot | .entropy => some .entropy
  | .lcd => some .lcd
  | _ => none

/-- Every unit of Table 15.4. -/
def allUnits : List FaultUnit :=
  [.frontPath 0, .frontPath 1, .scribe, .ftu, .shot, .temp, .integ, .bill, .tamper, .journal, .radio, .link, .cipher,
   .entropy, .keyslot, .lcd]

/-- The grave state entered (R526, Table 15.5): the latch, alarm source 6 (R465), every unit but IDENT and BOOT fenced,
every job completed FENCED, the Mason core stopped, and a halt or freeze ended (R596). A reseat past its lock keeps it, to
be rolled back or completed (R540). -/
def enterGrave (src : FaultSrc) (s : State) : State :=
  if s.faults.grave then s
  else
    let own := src = Src.keyAlarm ∨ src = Src.eraseVerifyFail
    let s1 := modFaults (fun f => { f with grave := true }) s
    let s2 := alarm 6 (2 ^ 24 - 1) (!own) (Config.freeIndex s1.draws) (Config.freeIndex (s1.draws + 1)) (drew 2 s1)
    let s3 := allUnits.foldl (fun t u => fenceUnit u src t) s2
    let s4 := [Block.lintel, .clock, .time, .fabric, .front, .ports, .debug].foldl (fun t b => markFenced src b t) s3
    let s5 := completeAll (fun j => !(j.desc.engine == 11 && s4.radio.fenceAfter.isSome)) .fenced s4
    modProbe (fun d => { d with haltPending := false })
      (modBoot (fun b => if b.reseatActive then b else { b with reseatWait := none, reload := [] }) <|
       modFabric (fun f => { f with frozen := none, retries := [] })
        (modMason (fun m =>
          { m with running := false, halted := false, ctxs := Vector.replicate 8 {}
                   lock := if s5.boot.reseatActive then m.lock else none }) s5))

/-! ### Taking the consequences -/

/-- The order of the consequences of one cycle: records and events, then class reactions, then fences, then the grave
state (R524, R542). -/
def Reaction.rank : Reaction → Nat
  | .cls _ => 1 | .fence _ _ => 2 | .grave _ => 3 | _ => 0

/-- The class reaction of a source (R521). -/
def classReaction (src : FaultSrc) (s : State) : State :=
  match classOf s src with
  | 1 => match unitOf src with
    | some u => andThen (.fence u src) s
    | none => s
  | 3 => andThen (.grave src) s
  | _ => s

/-- One consequence taken. -/
def takeReaction (r : Reaction) (s : State) : State :=
  match r with
  | .mason k p a => enqueueEvent k p a s
  | .audit a => writeAudit a s
  | .change src set => writeHistory src set s
  | .cls src => classReaction src s
  | .fence u src => fenceUnit u src s
  | .grave src => enterGrave src s
  | .pairEnd q p id st => afterPair q p id st s

/-- The consequence to be taken next: the first of the lowest rank. -/
def nextReaction (l : List Reaction) : Option Reaction :=
  l.foldl (fun (m : Option Reaction) r => match m with
    | none => some r
    | some x => if r.rank < x.rank then some r else some x) none

/-- Every consequence taken in order. `fuel` bounds their number. -/
def react : (fuel : Nat) → State → State
  | 0, s => s
  | fuel + 1, s =>
    match nextReaction s.faults.todo with
    | none => s
    | some r => react fuel (takeReaction r (modFaults (fun f => { f with todo := f.todo.erase r }) s))

/-- The load of a slot that a reseat or a forced halt left to be loaded, from the running image; one that an alarm has erased
stays empty, and an entry that has failed is not tried again (R58, R461, R481). -/
def loadLeft (n : Nat) (s : State) : State :=
  let t := modBoot (fun b => { b with reload := b.reload.filter (· != n) }) s
  match (items t).keys.entry n with
  | some e => if (nth t.keys.slots n).full || (nth t.keys.slots n).erased then t else lockedLoad e t
  | none => t

/-- Every such slot loaded, one after another, a load in progress first to its end. -/
def resumeSlots (s : State) : State := s.boot.reload.foldl (fun t n => loadLeft n t) s

/-- The core runs on where it stopped, and the watchdog starts with a full period (R95, R349, R586). -/
def resumeCore (s : State) : State :=
  resumeSlots <| journalResume (modProbe (fun d => { d with haltPending := false })
    (modClock (fun c => { c with wdogPaused := false, kickAt := if c.wdogPaused then s.time.ticks else c.kickAt })
      (modMason (fun m => { m with halted := false }) s)))

/-- A halt or freeze ends with the debug session, or when the effective level falls below 2 (R589). -/
def debugSync (s : State) : State :=
  if (nth s.roles.sess 2).isOpen && decide (2 ≤ debugLevel s) then s
  else if s.mason.halted || s.fabric.frozen.isSome || s.probe.haltPending then
    resumeCore (modFabric (fun f => { f with frozen := none }) s)
  else s

/-- ALIVE goes low with the first raised source of class B, C or D (R530). -/
def aliveSync (s : State) : State :=
  if (s.faults.alive || s.faults.aliveRun) && (degraded s || s.faults.grave) then
    modFaults (fun f => { f with alive := false, aliveRun := false }) s
  else s

/-- The end of a command: its consequences taken, and what follows from them at once: the link's state, a debug halt whose
session is gone, the next steps of the flash work with the journal's lock and supply, and ALIVE. -/
def settle (s : State) : State :=
  aliveSync (react 4096 (grantPeak (journalLock (runFlash 64 (react 4096 (debugSync (linkSync (react 4096 s))))))))

/-- What every command answers: its effect, with the consequences of the cycle taken. -/
def done (s : State) : Host.Outcome State Fault Refusal := .next (settle s)

end Sys2Proof.Machine
end

