-- ==== Sys2Proof/Machine/Tamper.lean ====
section
/-! DEFINITION. The tamper recorder (chapter 9): openings and closings of the six sources, the debounced inputs, the
pulse inputs, the bypass window and TAMPER_ACK. -/

namespace Sys2Proof.Machine

/-- Seconds of a number of D04 ticks, saturated (R317). -/
def durS (ticks : Nat) : Nat := min (ticks / 32768) 0xFFFFFFFE

/-- A tamper record (Table 9.5), with the quality code when written. -/
def tamperRecord (s : State) (e : TamperEvent) : List Byte :=
  bytesLE 1 1 ++ bytesLE 1 e.source ++ bytesLE 1 e.kind ++ bytesLE 1 (quality s 2) ++ bytesLE 2 e.count
    ++ bytesLE 2 0 ++ bytesLE 8 e.dt ++ bytesLE 4 e.duration ++ bytesLE 4 e.detail ++ bytesLE 4 e.seq ++ bytesLE 4 0

/-- A tamper record written to the tamper stream. -/
def writeTamper (e : TamperEvent) (s : State) : State :=
  submitRecord 0x19 2 (tamperRecord s e) (clearStepSum 2 s)

/-- An opening's or closing's record: written, or queued in AON while the main domain is off or not yet running, or
in the grave state; a full queue drops its oldest (R321, R322, R331). -/
def noteTamper (e : TamperEvent) (s : State) : State :=
  let s1 := modTamper (fun t => { t with seq := t.seq + 1 }) s
  let e1 := { e with seq := s1.tamper.seq.toNat }
  if s.lintel.mainOn && s.boot.running && !s.faults.grave then writeTamper e1 s1
  else if s1.tamper.queue.length < 16 then modTamper (fun t => { t with queue := t.queue ++ [e1] }) s1
  else modTamper (fun t => { t with queue := t.queue.drop 1 ++ [e1], drop := satInc t.drop }) s1

/-- The records of the AON queue written in order (R322). -/
def drainTamper (s : State) : State :=
  s.tamper.queue.foldl (fun t e => writeTamper e t) (modTamper (fun t => { t with queue := [] }) s)

/-- The actions of an opening: its fault, the alarm to Quoin, and ACK_PENDING (R321). -/
def tamperAction (n : Nat) (s : State) : State :=
  let a := at0 (items s).tamper.action n
  let s1 := if a.testBit 0 then raise (Src.tamperOf n) s else s
  let s2 := if a.testBit 2 then modTamper (fun t => { t with ack := t.ack ||| 2 ^ n }) s1 else s1
  if a.testBit 1 then alarmBy 0 s2 else s2

/-- A source opens at a DT and a tick (R317, R318); a disabled or open source does nothing. -/
def openTamper (n dt tick : Nat) (s : State) : State :=
  let x := nth s.tamper.src n
  if x.isOpen || !((items s).tamper.en.testBit n) then s
  else
    let c := satInc x.count
    let s1 := modTamper (fun t =>
      { t with
        src := upd t.src n fun x =>
          { x with isOpen := true, count := c, firstDt := if x.count = 0 then dt else x.firstDt, lastDt := dt,
                   openTick := tick }
        seen := t.seen ||| 2 ^ n }) s
    tamperAction n (noteTamper { source := n, kind := 1, count := c.toNat, dt := dt } s1)

/-- An open source closes at a DT and a tick with its DETAIL (R317, R318). -/
def closeTamper (n dt tick detail : Nat) (s : State) : State :=
  let x := nth s.tamper.src n
  if !x.isOpen then s
  else
    let d := durS (tick - x.openTick)
    let s1 := modTamper (fun t =>
      { t with src := upd t.src n fun x =>
          { x with isOpen := false, lastDur := d, totalDur := min (x.totalDur + d) 0xFFFFFFFE,
                   detail := detail % 2 ^ 32 } }) s
    noteTamper { source := n, kind := 2, count := x.count.toNat, dt := dt, duration := d, detail := detail % 2 ^ 32 } s1

/-! ### What a step tells the recorder -/

/-- REVERSE after a NORMAL step (Table 9.4 source 2): `grown` is its VOL_REV increment in 2^−32 nL. -/
def tamperReverse (reverse : Bool) (grown ticks dt : Nat) (s : State) : State :=
  let it := (items s).tamper
  let x := nth s.tamper.src 2
  if reverse then
    let sum := s.tamper.revSum + grown
    let s1 := modTamper (fun t => { t with revSum := sum, revClear := 0 }) s
    if it.revOpenNl * 2 ^ 32 ≤ sum then openTamper 2 dt s.time.d04 s1 else s1
  else if x.isOpen then
    let c := s.tamper.revClear + ticks
    if it.revClearS * 32768 ≤ c then
      modTamper (fun t => { t with revSum := 0, revClear := 0 })
        (closeTamper 2 dt s.time.d04 (s.tamper.revSum / 2 ^ 32 / 1000000) s)
    else modTamper (fun t => { t with revClear := c }) s
  else modTamper (fun t => { t with revSum := 0 }) s

/-- LEAK after a NORMAL step (Table 9.4 source 5). -/
def tamperLeak (q : Int) (ticks dt : Nat) (s : State) : State :=
  let it := (items s).tamper
  if (it.leakQ : Int) ≤ q then
    let n := s.tamper.leakRun + ticks
    let s1 := modTamper (fun t => { t with leakRun := n }) s
    if 0 < it.leakH && decide (it.leakH * 3600 * 32768 ≤ n) then openTamper 5 dt s.time.d04 s1 else s1
  else
    let x := nth s.tamper.src 5
    closeTamper 5 dt s.time.d04 (durS (s.time.d04 - x.openTick) / 3600)
      (modTamper (fun t => { t with leakRun := 0 }) s)

/-- RETURN_MISSING from the return channel's CH_STAT (Table 9.4 source 4). -/
def tamperReturn (stat dt : Nat) (s : State) : State :=
  if stat.testBit 4 && stat % 8 == 1 then openTamper 4 dt s.time.d04 s
  else if stat % 8 = 0 then closeTamper 4 dt s.time.d04 0 s
  else s

/-! ### Commands -/

/-- The debounced input of a source: 0 MAG_IN, 1 CASE_IN. -/
def debOf (s : State) (n : Nat) : DebInput := if n = 0 then s.tamper.mag else s.tamper.case_

/-- The input changed. -/
def modDeb (n : Nat) (f : DebInput → DebInput) (s : State) : State :=
  modTamper (fun t => if n = 0 then { t with mag := f t.mag } else { t with case_ := f t.case_ }) s

/-- TAMPER_INPUT_CHANGE (R318): a change on MAG_IN (0) or CASE_IN (1) starts its debounce run afresh. -/
def execTamperInputChange (n : Nat) (level : Bool) (s : State) : Host.Outcome State Fault Refusal :=
  done (if 2 ≤ n || (debOf s n).raw = level then s
    else modDeb n (fun d => { d with raw := level, sinceTick := s.time.d04, sinceDt := s.time.dt.toNat }) s)

/-- TAMPER_DEBOUNCE_END (R317, R318): a run that has been stable for its debounce time opens or closes its source, with the
DT of the run's first sample; so does one that outlasts what held the source as it was. -/
def execTamperDebounceEnd (n : Nat) (s : State) : Host.Outcome State Fault Refusal :=
  done (
    let it := (items s).tamper
    let d := debOf s n
    let ms := if n = 0 then it.magDebMs else it.caseDebMs
    let pol := if n = 0 then it.magPol else it.casePol
    if 2 ≤ n || !(counted s d.sinceTick (msTicks ms)) then s
    else
      let s1 := modDeb n (fun d => { d with level := d.raw }) s
      if b2n d.raw = pol then openTamper n d.sinceDt d.sinceTick s1
      else closeTamper n d.sinceDt d.sinceTick 0 s1)

/-- A level that an input has shown for `samples` samples of D23, one every 32 ticks of D04, and so not longer than since
its last change (R300). -/
def sampledFor (s : State) (since samples : Nat) : Bool := counted s since (32 * (samples - 1))

/-- PULSE_EDGE (R300, R319, R320): PLS1 or PLS2 has shown a level for samples of D23. PLS_DEB of them make an
edge; a leading one counts by the input's mode, and one that follows the last faster than PLS_MAX_HZ is counted and raises
PULSE_OVERRATE. -/
def execPulseEdge (n : Nat) (leading : Bool) (run : InputRun) (s : State) : Host.Outcome State Fault Refusal :=
  done (
    let it := (items s).tamper
    let mode := at0 it.plsMode n
    if 2 ≤ n || nth s.tamper.pls n == run.level || run.samples < it.plsDeb
        || !sampledFor s (nth s.tamper.plsAt n) run.samples then s
    else if !leading || mode = 0 then
      modTamper (fun t => { t with pls := put t.pls n run.level, plsAt := put t.plsAt n s.time.d04 }) s
    else
      let fast := match nth s.tamper.pulseAt n with
        | some t => decide ((s.time.d04 - t) * it.plsMaxHz < 32768)
        | none => false
      let s1 := modTamper (fun t =>
        { t with
          pls := put t.pls n run.level
          plsAt := put t.plsAt n s.time.d04
          pulseAt := put t.pulseAt n (some s.time.d04)
          refVol := if mode = 1 then (t.refVol + it.plsNl) % 2 ^ 64 else t.refVol
          pulse := if mode = 2 then upd t.pulse n (fun p => (p + 1) % 2 ^ 64) else t.pulse }) s
      raiseIf fast Src.pulseOverrate s1)

/-- The newest integrator copy. -/
def integNow (s : State) : IntegCopy := nth s.integ.copies s.integ.newest

/-- BYPASS_WINDOW (R319): a bypass window's end compares the reference volume with the own volume. -/
def execBypassWindow (s : State) : Host.Outcome State Fault Refusal :=
  done (
    let it := (items s).tamper
    if !(it.plsMode.contains 1) || !(counted s s.tamper.bypAt (secTicks (60 * it.bypWinMin))) then s
    else
      let now := (integNow s).volFwd.int + (integNow s).errVol.int
      let ref := s.tamper.refVol - s.tamper.bypRef
      let own := now - s.tamper.bypOwn
      let s1 := modTamper (fun t =>
        { t with bypAt := s.time.d04, bypRef := t.refVol, bypOwn := now, bypShort := ref - own }) s
      if ref < it.bypMinNl then s1
      else if it.bypTolPm * ref < (ref - own) * 1000 then openTamper 3 s.time.dt.toNat s.time.d04 s1
      else closeTamper 3 s.time.dt.toNat s.time.d04 ((ref - own) / 1000000) s1)

/-- TAMPER_ACK (R324): the named ACK_PENDING bits clear. -/
def tamperAckJob (j : Job) (s : State) : State :=
  if !jobActorOk j.desc j.actor then engineEnds j.id { status := .refusedRole } s
  else
    let left := (List.range 6).foldl (fun acc i =>
      acc + b2n (s.tamper.ack.testBit i && !((j.desc.arg 0).testBit i)) * 2 ^ i) 0
    engineEnds j.id { status := .done, result := left } (modTamper (fun t => { t with ack := left }) s)

/-- TAMPER_ACK: the running job of the tag has its effect. -/
def execTamperAck (tag : Nat) (s : State) : Host.Outcome State Fault Refusal :=
  done (onJob tag 9 1 tamperAckJob s)

/-- TAMPER's registers (Table 9.10). -/
def readTamper (s : State) (off : Nat) : Nat :=
  let t := s.tamper
  let active := (List.range 6).foldl (fun acc i => acc + b2n (nth t.src i).isOpen * 2 ^ i) 0
  let half := fun (v : Nat) (hi : Bool) => if hi then v / 2 ^ 32 % 2 ^ 32 else v % 2 ^ 32
  if off = 0x000 then active + t.ack * 256
  else if off = 0x004 then
    b2n t.case_.level + 2 * b2n t.mag.level + 4 * b2n (nth t.pls 0) + 8 * b2n (nth t.pls 1) + 16 * b2n s.bill.extIn
  else if off = 0x008 || off = 0x00C then half (nth t.pulse 0) (off == 0x00C)
  else if off = 0x010 || off = 0x014 then half (nth t.pulse 1) (off == 0x014)
  else if off = 0x018 || off = 0x01C then half t.refVol (off == 0x01C)
  else if off = 0x020 then t.seq.toNat
  else if off = 0x024 then t.durUnknown.toNat
  else if off = 0x028 then t.drop.toNat
  else if 0x040 ≤ off && off < 0x100 then
    let x := nth t.src ((off - 0x040) / 0x20)
    match (off - 0x040) % 0x20 with
    | 0x00 => b2n x.isOpen + x.count.toNat * 2 ^ 16
    | 0x04 => half x.firstDt false | 0x08 => half x.firstDt true
    | 0x0C => half x.lastDt false | 0x10 => half x.lastDt true
    | 0x14 => x.lastDur | 0x18 => x.totalDur | _ => x.detail
  else 0

end Sys2Proof.Machine
end

