-- ==== Sys2Proof/Machine/Integ.lean ====
section
/-! DEFINITION. Integration (chapter 8): STEP, ACC_RESET and ERROR_RUN, the accumulators, the maxima and the tariff
registers. -/

namespace Sys2Proof.Machine

/-! ### Accumulators and AON copies -/

/-- An increment of 2^−32 units added to an accumulator; true where it saturates (R272). -/
def Acc.add (a : Acc) (inc : Nat) : Acc × Bool :=
  let total := a.int * 2 ^ 32 + a.frac + inc
  if 2 ^ 96 ≤ total then (⟨2 ^ 64 - 1, 2 ^ 32 - 1⟩, true) else (⟨total / 2 ^ 32, total % 2 ^ 32⟩, false)

/-- Ticks added to a time accumulator, 64 bits (R272). -/
def addTicks (a d : Nat) : Nat := min (a + d) (2 ^ 64 - 1)

/-- An accumulator's bytes in its AON copy. -/
def Acc.bytes (a : Acc) : List Byte := bytesLE 8 a.int ++ bytesLE 4 a.frac

/-- The bytes of an AON copy that its CRC-32 covers (R286; their order is log 37's, DESIGN CHOICE). -/
def IntegCopy.bytes (c : IntegCopy) : List Byte :=
  bytesLE 8 c.count ++ ([c.volFwd, c.volRev, c.heat, c.cool, c.gasBase, c.errVol] ++ c.tq.toList).flatMap Acc.bytes
    ++ [c.operTime, c.errTime, c.bridgeTime, c.emptyTime, c.heldTime].flatMap (bytesLE 8)
    ++ [c.flowMax, c.powerMax, c.coolMax].flatMap (bytesLE 4)
    ++ [c.flowMaxDt, c.powerMaxDt, c.coolMaxDt].flatMap (bytesLE 8)
    ++ [b2n c.win.isOpen + 2 * b2n c.win.bad, c.win.start, c.win.stop, c.win.ticks].flatMap (bytesLE 8)
    ++ [c.win.sumV, c.win.sumE, c.win.sumC].flatMap (bytesLE 16) ++ bytesLE 4 c.lastTick ++ bytesLE 8 c.lastPairDt

/-- A copy with the CRC-32 of its contents. -/
def IntegCopy.checked (c : IntegCopy) : IntegCopy := { c with crc := crc32 c.bytes }

/-- The older AON copy takes a changed state and becomes the newest (R285, R286). -/
def commitInteg (f : IntegCopy → IntegCopy) (s : State) : State :=
  let now := integNow s
  modInteg (fun i =>
    { i with
      copies := put i.copies (1 - i.newest) { f now with count := now.count + 1 }.checked
      newest := 1 - i.newest }) s

/-! ### The computations of a step -/

/-- The volume increment of `d` ticks at flow `q`, 2^−32 nL (R279). -/
def volFrac (q : Int) (d : Nat) : Nat := roundDivNat (q.natAbs * d * 327680000) 9

/-- A table look-up at a temperature clamped to 0 to 180 000 m°C (R280). -/
def tableAt (tab : List Nat) (theta : Int) : Int :=
  let t := clamp theta 0 180000
  let i := min (t.toNat / 5000) 35
  let a : Int := (at0 tab i : Nat)
  let b : Int := (at0 tab (i + 1) : Nat)
  a + roundDiv ((b - a) * (t - 5000 * i)) 5000

/-- A temperature outside the tables' range (R280). -/
def tableClamped (theta : Int) : Bool := decide (theta < 0) || decide (180000 < theta)

/-- Density at the flow sensor and the enthalpy difference (R280). -/
def rhoAt (c : IntegItems) (v : StepValues) : Int := tableAt c.rho (if c.meterPos = 0 then v.tr else v.ts)
def deltaH (c : IntegItems) (v : StepValues) : Int := tableAt c.h v.ts - tableAt c.h v.tr

/-- The energy condition of Table 8.3 for q > 0: 1 heat, 2 cooling, 0 none. -/
def energyKind (kind : Nat) (c : IntegItems) (v : StepValues) : Nat :=
  let dt := v.ts - v.tr
  if !(decide (0 < v.q)) then 0
  else if (kind = 1 || kind = 2) && decide ((c.dtCut : Int) ≤ dt) then 1
  else if kind = 2 && decide (dt ≤ -(c.dtCut : Int)) && decide (v.ts ≤ (c.coolTsMax : Int)) then 2
  else 0

/-- The energy increment of `d` ticks, 2^−32 mWh (R281). -/
def energyFrac (c : IntegItems) (v : StepValues) (d : Nat) : Nat :=
  roundDivNat (v.q.natAbs * d * (rhoAt c v).natAbs * (deltaH c v).natAbs * 2 ^ 32) 424673280000000000000

/-- POWER in mW (R282). -/
def powerOf (kind : Nat) (c : IntegItems) (v : StepValues) : Int :=
  if energyKind kind c v = 0 then 0 else satInt 32 (roundDiv (v.q * rhoAt c v * deltaH c v) 3600000000000)

/-- HEATCOEF in mWh/(m³·K) (R282); with d_t = 0 the spec states no value, and it is free (log 6, DESIGN CHOICE). -/
def heatCoefOf (kind : Nat) (c : IntegItems) (v : StepValues) : Nat :=
  if energyKind kind c v = 0 then 0
  else satNat 32 (quot (rhoAt c v * (deltaH c v).natAbs) ((v.ts - v.tr).natAbs * 3600)).toNat

/-- The absolute pressure of R283. -/
def pAbs (c : IntegItems) (v : StepValues) : Nat :=
  if c.gasConv = 1 then c.pFix else v.pressure + (if c.pbGauge = 1 then c.pAtm else 0)

/-- The base-volume increment of `d` ticks, 2^−32 nL (R283). -/
def gasFrac (c : IntegItems) (v : StepValues) (d : Nat) : Nat :=
  (quot ((v.q.natAbs * d * 327680000 * pAbs c v * c.tBase * c.zr : Nat) : Int)
    (9 * c.pBase * (v.tGas + 273150) * 65536)).toNat

/-- CONV_FACTOR in 1/65 536 (R283). -/
def convFactorOf (c : IntegItems) (v : StepValues) : Nat :=
  satNat 32 (quot ((pAbs c v * c.tBase * c.zr : Nat) : Int) (c.pBase * (v.tGas + 273150))).toNat

/-- A gas meter with conversion (R273, R283). -/
def converts (s : State) : Bool := meterKind s == 4 && (items s).integ.gasConv != 0

/-! ### A step's record and classification -/

/-- The temperature channels the meter kind needs (R273). -/
def neededChannels (s : State) : List Nat :=
  let t := (items s).temp
  if meterKind s = 1 || meterKind s = 2 then ((t.ofRole 1).toList ++ (t.ofRole 2).toList)
  else if converts s then (t.ofRole 3).toList else []

/-- What a STEP job reads: the flow record and the temperature record it was lent (R269). -/
structure StepIn where
  flow : List Byte := []
  temp : Option (List Byte) := none
  deriving DecidableEq, Repr

/-- The records of a STEP job. -/
def stepInput (s : State) (j : Job) : StepIn :=
  { flow := (inputBytes s j 0).take 512, temp := j.tempGran.map fun g => (granBytes s [g]).take 64 }

/-- FLAGS of the flow record. -/
def StepIn.ff (x : StepIn) : Nat := leAt x.flow 2 2

/-- CH_STAT of a channel in the step's temperature record; 0 without one. -/
def StepIn.stat (x : StepIn) (n : Nat) : Nat := (x.temp.map fun t => leAt t (0x0C + n) 1).getD 0

/-- TEMP of a role's channel in the step's temperature record. -/
def StepIn.tempOf (x : StepIn) (t : TempItems) (role : Nat) : Int :=
  match x.temp, t.ofRole role with
  | some r, some n => signed 32 (leAt r (0x10 + 4 * n) 4)
  | _, _ => 0

/-- The values a step integrates and its conditions compare. -/
def stepValues (s : State) (x : StepIn) : StepValues :=
  let t := (items s).temp
  let v : StepValues := {
    q := signed 32 (leAt x.flow 0x0C 4), ts := x.tempOf t 1, tr := x.tempOf t 2, tGas := x.tempOf t 3
    pressure := (x.temp.map fun r => leAt r 0x34 4).getD 0 }
  { v with power := powerOf (meterKind s) (items s).integ v }

/-- Class (0 FIRST, 1 ERROR, 2 NORMAL) and cause of a step (Table 8.2, R273, R297). -/
def classify (s : State) (j : Job) (x : StepIn) : Nat × Nat :=
  let need := neededChannels s
  let conv2 := (items s).integ.gasConv == 2
  if s.integ.firstPending then (0, 4)
  else if x.ff.testBit 2 then (1, 1)
  else if (!need.isEmpty && x.temp.isNone) || need.any (fun n => (x.stat n).testBit 4)
      || (conv2 && isRaised s Src.pressFault) then (1, 2)
  else if j.mark then (1, 3)
  else (2, 0)

/-- A used temperature or pressure is held (R276). -/
def heldStep (s : State) (x : StepIn) : Bool :=
  (neededChannels s).any (fun n => (x.stat n).testBit 3)
  || (meterKind s == 4 && (items s).integ.gasConv == 2 && ((x.temp.map fun t => leAt t 1 1).getD 0).testBit 4)

/-! ### Applying a step -/

/-- Increments of one part of a step's interval (R276 to R283). -/
structure StepInc where
  vf : Nat := 0
  vr : Nat := 0
  heat : Nat := 0
  cool : Nat := 0
  gas : Nat := 0
  deriving DecidableEq, Repr

/-- The increments of `d` ticks with given values (R276). -/
def partInc (s : State) (v : StepValues) (d : Nat) : StepInc :=
  let c := (items s).integ
  let k := energyKind (meterKind s) c v
  let e := if k = 0 then 0 else energyFrac c v d
  { vf := if 0 < v.q then volFrac v.q d else 0
    vr := if v.q < 0 then volFrac v.q d else 0
    heat := if k = 1 then e else 0
    cool := if k = 2 then e else 0
    gas := if converts s && decide (0 < v.q) then gasFrac c v d else 0 }

/-- Two parts together. -/
def StepInc.plus (a b : StepInc) : StepInc := ⟨a.vf + b.vf, a.vr + b.vr, a.heat + b.heat, a.cool + b.cool, a.gas + b.gas⟩

/-- The part of an interval before the reseat unlock, where it lies inside (R278). -/
def splitAt (s : State) (last delta : Nat) : Option Nat :=
  s.integ.unlock.bind fun u =>
    let d := (u + 2 ^ 32 - last % 2 ^ 32) % 2 ^ 32
    if 0 < d && d ≤ delta then some d else none

/-- The reseat unlock lies after a pair's origin: a later step's interval holds it (R278). -/
def unlockAhead (origin u : Nat) : Bool :=
  let d := (u + 2 ^ 32 - origin % 2 ^ 32) % 2 ^ 32
  decide (0 < d) && decide (d < 2 ^ 31)

/-- The maxima of a closing window taken into a copy (R284). -/
def closeWindow (kind : Nat) (w : MaxWindow) (c : IntegCopy) : IntegCopy × Option (Nat × Nat) :=
  let len := w.stop - w.start
  if w.isOpen && !w.bad && 0 < w.ticks && 9 * len ≤ 10 * w.ticks then
    let avgQ := roundDivNat (w.sumV * 117964800) (w.ticks * 1000000 * 2 ^ 32)
    let avgP := roundDivNat (w.sumE * 117964800) (w.ticks * 2 ^ 32)
    let avgC := roundDivNat (w.sumC * 117964800) (w.ticks * 2 ^ 32)
    let c1 := if c.flowMax < avgQ then { c with flowMax := satNat 32 avgQ, flowMaxDt := w.stop } else c
    let c2 := if c1.powerMax < avgP then { c1 with powerMax := satNat 32 avgP, powerMaxDt := w.stop } else c1
    let c3 := if kind = 2 && c2.coolMax < avgC then { c2 with coolMax := satNat 32 avgC, coolMaxDt := w.stop } else c2
    (c3, some (satNat 32 avgQ, satNat 32 avgP))
  else (c, none)

/-- The window a step at `pairDt` belongs to, evaluating the one it closes (R284). A step before the open window (a
clock set back) drops it (log 9, DEDUCED). -/
def rollWindow (s : State) (pairDt : Nat) (c : IntegCopy) : IntegCopy × Option (Nat × Nat) :=
  if c.win.isOpen && c.win.start ≤ pairDt && pairDt < c.win.stop then (c, none)
  else
    let len := (items s).integ.maxPeriodMin * 60 * 32768
    let start := pairDt / len * len
    let (c1, avg) := if c.win.stop ≤ pairDt then closeWindow (meterKind s) c.win c else (c, none)
    ({ c1 with win := { isOpen := true, start := start, stop := start + len } }, avg)

/-- Everything a step decides before it takes effect. -/
structure StepPlan where
  cls : Nat := 0
  cause : Nat := 0
  /-- Ticks of the interval, integrated ticks, and those of the part before the unlock. -/
  delta : Nat := 0
  used : Nat := 0
  before : Option Nat := none
  inc : StepInc := {}
  errVol : Nat := 0
  errTime : Nat := 0
  flags : Nat := 0
  clamped : Bool := false
  tariff : Nat := 0
  v : StepValues := {}
  pairDt : Nat := 0
  origin : Nat := 0
  badWindow : Bool := false
  deriving DecidableEq, Repr

/-- A step's plan (R270 to R283). A FIRST step after a restoration has no LAST_PAIR_DT: what was lost is R73's (R274). -/
def planStep (s : State) (j : Job) : StepPlan :=
  let x := stepInput s j
  let c := (items s).integ
  let now := integNow s
  let (cls, cause) := classify s j x
  let v := stepValues s x
  let pairDt := leAt x.flow 4 8
  let origin := leAt x.flow 0x40 4
  let delta := (origin + 2 ^ 32 - now.lastTick % 2 ^ 32) % 2 ^ 32
  let cap := c.stepMaxS * 32768
  let used := if cls = 0 then 0 else min delta cap
  let gap := cls != 0 && decide (cap < delta)
  let before := if cls = 0 then none else (splitAt s now.lastTick delta).map fun d => min d used
  let prev := s.integ.last.getD v
  let inc := if cls = 2 then
      match before with
      | some d => (partInc s prev d).plus (partInc s v (used - d))
      | none => partInc s v used
    else {}
  let parts := match before with
    | some d => [(prev, d), (v, used - d)]
    | none => [(v, used)]
  let valid := !x.ff.testBit 2 && !x.ff.testBit 1
  let heat := meterKind s == 1 || meterKind s == 2
  let clamp := cls == 2 && heat && parts.any fun y => tableClamped y.1.ts || tableClamped y.1.tr
  let cool := cls == 2 && parts.any fun y => decide (0 < y.2) && energyKind (meterKind s) c y.1 == 2
  let gapTime := if quality s 0 = 3 || now.lastPairDt = 0 then 0 else pairDt - now.lastPairDt
  { cls := cls, cause := cause, delta := delta, used := used, before := before, inc := inc
    errVol := if cls = 1 && valid then (parts.map fun y => if 0 < y.1.q then volFrac y.1.q y.2 else 0).sum else 0
    errTime := if cls = 0 then gapTime else if cls = 1 then delta else delta - used
    flags := b2n (cls == 0) + 2 * b2n (cls == 1) + 4 * b2n (x.ff.testBit 0) + 8 * b2n before.isSome
      + 16 * b2n (x.ff.testBit 1) + 32 * b2n (x.ff.testBit 4) + 64 * b2n (cls == 2 && heldStep s x) + 128 * b2n gap
      + 256 * b2n clamp + 512 * b2n cool + 1024 * b2n (x.ff.testBit 3) + 2048 * b2n (x.ff.testBit 5)
    clamped := clamp, tariff := (tariffAt s pairDt (some v)).tariff, v := v, pairDt := pairDt, origin := origin
    badWindow := cls != 2 || s.time.invalid || decide (60 * 32768 < s.integ.stepSum) }

/-- The copy a step leaves (R274 to R276, R284, R306), and whether an accumulator saturated. -/
def StepPlan.apply (p : StepPlan) (s : State) (c0 : IntegCopy) : IntegCopy × Bool :=
  let (c, _) := rollWindow s p.pairDt c0
  let t := if p.cls = 2 then p.used else 0
  let part := fun (i a : Nat) => if p.flags.testBit i then addTicks a t else a
  let a1 := c.volFwd.add p.inc.vf
  let a2 := c.volRev.add p.inc.vr
  let a3 := c.heat.add p.inc.heat
  let a4 := c.cool.add p.inc.cool
  let a5 := c.gasBase.add p.inc.gas
  let a6 := c.errVol.add p.errVol
  let fed := match (items s).bill.qty with
    | 0 => p.inc.vf | 1 => p.inc.heat | 2 => p.inc.cool | _ => p.inc.gas
  let a7 := (nth c.tq p.tariff).add (if p.cls = 2 then fed else 0)
  ({ c with
     volFwd := a1.1, volRev := a2.1, heat := a3.1, cool := a4.1, gasBase := a5.1, errVol := a6.1
     operTime := addTicks c.operTime t, errTime := addTicks c.errTime p.errTime
     bridgeTime := if p.flags.testBit 2 || p.flags.testBit 3 then addTicks c.bridgeTime t else c.bridgeTime
     emptyTime := part 4 c.emptyTime, heldTime := part 6 c.heldTime
     tq := put c.tq p.tariff a7.1
     lastTick := p.origin, lastPairDt := p.pairDt
     win := { c.win with
       ticks := c.win.ticks + p.delta, sumV := c.win.sumV + p.inc.vf, sumE := c.win.sumE + p.inc.heat
       sumC := c.win.sumC + p.inc.cool, bad := c.win.bad || p.badWindow } },
   a1.2 || a2.2 || a3.2 || a4.2 || a5.2 || a6.2 || a7.2)

/-- One tamper source that watches steps and temperature records, after a step (R318): 2 REVERSE, 4 RETURN_MISSING,
5 LEAK. -/
def tamperSource (p : StepPlan) (x : StepIn) (n : Nat) (s : State) : State :=
  match n with
  | 2 => if p.cls = 2 then tamperReverse (p.flags.testBit 5) p.inc.vr p.used p.pairDt s else s
  | 4 =>
    match (items s).temp.ofRole 2, x.temp with
    | some c, some _ => if meterKind s = 1 || meterKind s = 2 then tamperReturn (x.stat c) p.pairDt s else s
    | _, _ => s
  | _ => if p.cls = 2 then tamperLeak p.v.q p.used p.pairDt s else s

/-- The tamper sources after a step: those that may close first, then those that may open, each in ascending order
(R330; log 12, DEDUCED). -/
def tamperStep (p : StepPlan) (x : StepIn) (s : State) : State :=
  let order := [2, 4, 5].filter (fun n => (nth s.tamper.src n).isOpen)
    ++ [2, 4, 5].filter (fun n => !(nth s.tamper.src n).isOpen)
  order.foldl (fun t n => tamperSource p x n t) s

/-- STEP (R273 to R285): the step takes effect in one cycle and its job ends. A step whose FLOW left no record has no
interval and integrates nothing (log 11, DEDUCED). -/
def stepJob (j : Job) (s : State) : State :=
  let x := stepInput s j
  if leAt x.flow 0 1 != 1 then engineEnds j.id { status := .done } s else
  let p := planStep s j
  let c := (items s).integ
  let avg := (rollWindow s p.pairDt (integNow s)).2
  let overflow := (p.apply s (integNow s)).2
  let s1 := commitInteg (fun c => (p.apply s c).1) s
  let grown := if p.cls = 2 then 0 else s.integ.errRun + p.errTime
  let gasOn := p.cls == 2 && converts s && decide (0 < p.v.q)
  let s2 := modInteg (fun i =>
    { i with
      error := p.cls == 1, firstPending := false, cause := p.cause, steps := i.steps + 1
      lastFlags := p.flags + p.cause * 2 ^ 12
      power := if p.cls = 2 then p.v.power else 0
      heatCoef := if p.cls = 2 && decide (p.before.getD 0 < p.used) then heatCoefOf (meterKind s) c p.v else 0
      convFactor := if gasOn then convFactorOf c p.v else i.convFactor
      winAvgFlow := (avg.map (·.1)).getD i.winAvgFlow
      winAvgPower := (avg.map (·.2)).getD i.winAvgPower
      lpFlags := i.lpFlags ||| (b2n (p.cls == 1) + 2 * b2n (p.flags.testBit 2) + 4 * b2n (p.flags.testBit 4))
      last := some p.v, errRun := grown, stepSum := 0
      unlock := i.unlock.filter (unlockAhead p.origin) }) s1
  let s3 := raiseIf overflow Src.accOverflow (raiseIf (p.flags.testBit 7) Src.stepGap
    (raiseIf p.clamped Src.tempTableRange s2))
  let s4 := if p.cls = 2 then setLevel Src.errorRun false s3 else s3
  let s5 := tamperStep p x s4
  let flags := p.flags + p.cause * 2 ^ 12
  engineEnds j.id { status := if flags % 4096 = 0 then .done else .doneFlagged, result := flags } s5

/-- STEP: the running job of the tag has its effect. -/
def execStep (tag : Nat) (s : State) : Host.Outcome State Fault Refusal :=
  done (onJob tag 7 1 stepJob s)

/-- ACC_RESET (R287, R307): every accumulator, fraction, time, maximum, window sum, tariff register and REF_VOL is
zeroed; refused to other roles than maker, and on a sealed chip. -/
def accResetJob (j : Job) (s : State) : State :=
  if !jobActorOk j.desc j.actor then engineEnds j.id { status := .refusedRole } s
  else if isSealed s then engineEnds j.id { status := .refusedPolicy } s
  else
    let s1 := commitInteg (fun c =>
      { lastTick := c.lastTick, lastPairDt := c.lastPairDt
        win := { c.win with ticks := 0, sumV := 0, sumE := 0, sumC := 0 } }) s
    engineEnds j.id { status := .done } (modTamper (fun t => { t with refVol := 0, bypRef := 0, bypOwn := 0 }) s1)

/-- ACC_RESET: the running job of the tag has its effect. -/
def execAccReset (tag : Nat) (s : State) : Host.Outcome State Fault Refusal :=
  done (onJob tag 7 2 accResetJob s)

/-- ERROR_RUN (R289): ERR_TIME has grown for ERR_ALARM_S without a NORMAL step. -/
def execErrorRun (s : State) : Host.Outcome State Fault Refusal :=
  done (if (items s).integ.errAlarmS * 32768 ≤ s.integ.errRun && s.boot.running then setLevel Src.errorRun true s else s)

/-- INTEG's registers (Table 8.7). -/
def readInteg (s : State) (off : Nat) : Nat :=
  let i := s.integ
  let c := integNow s
  let word := fun (v : Nat) (k : Nat) => v / 2 ^ (32 * k) % 2 ^ 32
  let acc := fun (a : Acc) (k : Nat) => if k = 2 then a.frac else word a.int k
  if off = 0x000 then
    b2n (!(onEngine s 7).isEmpty) + 2 * b2n i.error + 4 * b2n i.firstPending + 16 * i.cause
  else if off = 0x004 then i.steps.toNat
  else if off = 0x008 then i.lastFlags
  else if 0x010 ≤ off && off < 0x070 && off % 16 < 12 then
    acc (match off / 16 with
      | 1 => c.volFwd | 2 => c.volRev | 3 => c.heat | 4 => c.cool | 5 => c.gasBase | _ => c.errVol) (off % 16 / 4)
  else if 0x070 ≤ off && off < 0x098 then
    word (match (off - 0x070) / 8 with
      | 0 => c.operTime | 1 => c.errTime | 2 => c.bridgeTime | 3 => c.emptyTime | _ => c.heldTime) (off % 8 / 4)
  else if off = 0x0A0 then c.flowMax
  else if off = 0x0A4 || off = 0x0A8 then word c.flowMaxDt ((off - 0x0A4) / 4)
  else if off = 0x0B0 then c.powerMax
  else if off = 0x0B4 || off = 0x0B8 then word c.powerMaxDt ((off - 0x0B4) / 4)
  else if off = 0x0BC then c.coolMax
  else if off = 0x0C0 then (i.power.emod (2 ^ 32)).toNat
  else if off = 0x0C4 then i.heatCoef
  else if off = 0x0C8 || off = 0x0CC then word c.lastPairDt ((off - 0x0C8) / 4)
  else if off = 0x0D0 then i.convFactor
  else if off = 0x0D4 then i.winAvgFlow
  else if off = 0x0D8 then i.winAvgPower
  else if off = 0x0E0 then i.shadowCopy + 2 * b2n i.diverge + 4 * b2n i.lost
  else 0

end Sys2Proof.Machine
end

