-- ==== Sys2Proof/Machine/Billing.lean ====
section
/-! DEFINITION. Tariff calendar and billing (chapter 9): CALENDAR_EVALUATE, SNAP_REQUEST, BILL_COMMIT, TAR_IN_CHANGE,
and the snapshot. -/

namespace Sys2Proof.Machine

/-- A Mason event of a kind is still on its way: in the trigger FIFO or in a running recipe. -/
def eventInFlight (s : State) (kind : Nat) : Bool :=
  s.mason.fifo.any (fun e => e.kind == kind) || s.mason.ctxs.toList.any (fun c => c.busy && c.kind == kind)

/-- The monthly billing point (R310). Event 5 goes out once for a snapshot that is not yet committed (log 12, DEDUCED). -/
def billPoint (s : State) : State :=
  let key := billKey (items s).bill (s.time.dt.toNat / 32768)
  if s.bill.lastKey = 0xFFFFFFFF then modBill (fun b => { b with lastKey := key }) s
  else if s.bill.lastKey < key && !eventInFlight s 5 then
    masonEvent 5 0 0 (modBill (fun b => { b with due := some (key, min (key - b.lastKey - 1) 255) }) s)
  else s

/-- The calendar's evaluation (R309): BILL_STATUS and NEXT_SWITCH_DT are updated, event 6 is raised on a change of
source or tariff, and the billing point is judged. The first evaluation of a start sets the baseline (log 12, DEDUCED). -/
def evaluateCalendar (s : State) : State :=
  let dt := s.time.dt.toNat
  let c := tariffAt s dt s.integ.last
  let changed := match s.bill.cal with
    | some o => o.tariff != c.tariff || o.by_ != c.by_
    | none => false
  let s1 := modBill (fun b => { b with cal := some c, nextSwitch := nextSwitch s dt }) s
  billPoint (if changed then masonEvent 6 c.tariff 0 (modInteg (fun i => { i with lpFlags := i.lpFlags ||| 8 }) s1)
    else s1)

/-- The calendar may evaluate: the chip runs and DT has been restored. -/
def calendarRuns (s : State) : Bool := s.boot.running && !s.boot.bare && !s.faults.grave && !s.journal.restoreDue

/-- CALENDAR_EVALUATE (R309): at a local minute boundary, after a change of DT, after a restoration. -/
def execCalendarEvaluate (s : State) : Host.Outcome State Fault Refusal :=
  done (if s.time.calDue && calendarRuns s && !(winOf s .bill).fenced then
      evaluateCalendar (modTime (fun t => { t with calDue := false }) s)
    else s)

/-- TAR_IN_CHANGE (R300, R303): TAR_IN has shown a level for samples of D23; TAR_DEB_MS of them make it
the debounced level. -/
def execTarInChange (run : InputRun) (s : State) : Host.Outcome State Fault Refusal :=
  done (if s.bill.extIn = run.level || run.samples * 1000 < (items s).bill.tarDebMs * 1024
      || !sampledFor s s.bill.extAt run.samples
    then s else modBill (fun b => { b with extIn := run.level, extAt := s.time.d04 }) s)

/-- On-demand snapshots of the present governor day. -/
def snapsToday (s : State) : Nat := if s.bill.reqDay = today s then s.bill.reqToday else 0

/-- SNAP_REQUEST jobs that wait for their commit. -/
def snapWaiters (s : State) : List Job :=
  s.fabric.jobs.filter fun j => j.phase == .running && j.desc.engine == 8 && j.desc.opcode == 2 && j.mark

/-- SNAP_REQUEST (R311): event 9 with parameter 0x01, at most SNAP_DAY_MAX in a governor day; the job ends after the
commit. -/
def snapRequestJob (j : Job) (s : State) : State :=
  if j.mark then s
  else if !jobActorOk j.desc j.actor then engineEnds j.id { status := .refusedRole } s
  else if snapsToday s < (items s).bill.snapDayMax then
    masonEvent 9 1 0 (modJob j.id (fun j => { j with mark := true }) s)
  else engineEnds j.id { status := .refusedPolicy, retryS := secondsToRoll s } s

/-- SNAP_REQUEST: the running job of the tag has its effect. -/
def execSnapRequest (tag : Nat) (s : State) : Host.Outcome State Fault Refusal :=
  done (onJob tag 8 2 snapRequestJob s)

/-- MAIN of Table 9.2: the integer parts of the main registers. -/
def mainBytes (c : IntegCopy) : List Byte :=
  [c.volFwd, c.volRev, c.heat, c.cool, c.gasBase, c.errVol].flatMap fun a => bytesLE 8 a.int

/-- The integer parts of the tariff registers. -/
def tqBytes (c : IntegCopy) : List Byte := c.tq.toList.flatMap fun a => bytesLE 8 a.int

/-- TAMPER_ACTIVE. -/
def tamperActive (s : State) : Nat := (List.range 6).foldl (fun acc i => acc + b2n (nth s.tamper.src i).isOpen * 2 ^ i) 0

/-- The snapshot of Table 9.2. -/
def snapshot (s : State) (reason key skipped : Nat) : List Byte :=
  let c := integNow s
  let dt := s.time.dt.toNat
  let cal := tariffAt s dt s.integ.last
  let restart := reason = 1 && (items s).bill.maxRestart = 1
  bytesLE 1 1 ++ bytesLE 1 reason ++ bytesLE 1 (quality s 1) ++ bytesLE 1 skipped
    ++ bytesLE 4 ((s.bill.snapSeq + 1) % 2 ^ 32) ++ bytesLE 8 dt ++ bytesLE 4 key ++ bytesLE 1 cal.tariff
    ++ bytesLE 1 (b2n restart + 2 * b2n s.integ.error + 4 * b2n cal.dst) ++ bytesLE 2 0
    ++ mainBytes c ++ bytesLE 8 c.operTime ++ bytesLE 8 c.errTime
    ++ bytesLE 4 c.flowMax ++ bytesLE 4 c.powerMax ++ bytesLE 8 c.flowMaxDt ++ bytesLE 8 c.powerMaxDt
    ++ bytesLE 4 c.coolMax ++ bytesLE 2 (tamperActive s) ++ bytesLE 2 s.tamper.seen ++ tqBytes c
    ++ bytesLE 8 (nth s.tamper.pulse 0) ++ bytesLE 8 (nth s.tamper.pulse 1)
    ++ bytesLE 4 ((List.range 4).foldl (fun acc k => acc + b2n (anyRaised s (· == k)) * 2 ^ k) 0) ++ bytesLE 4 0

/-- The slot the next snapshot takes: the older one (R313). -/
def olderSlot (s : State) : Nat := 1 - s.bill.newest

/-- BILL_UNJOURNALED stays raised while either slot is unjournaled (R315). -/
def billLevel (s : State) : State :=
  setLevel Src.billUnjournaled (s.bill.slots.toList.any fun x => !x.journaled) s

/-- The journal job of a slot, where none is on its way already (R313, R315). -/
def journalSlot (n : Nat) (s : State) : State :=
  let x := nth s.bill.slots n
  if x.journaled || x.bytes.isEmpty || s.fabric.jobs.any (fun j => j.payload == x.bytes && j.desc.engine == 10) then s
  else submitRecord 0x18 1 x.bytes s

/-- The journal jobs of every unjournaled slot, oldest first, while the flash unit is not fenced (R315). -/
def journalSlots (s : State) : State :=
  if (winOf s .journal).fenced then s else journalSlot s.bill.newest (journalSlot (olderSlot s) s)

/-- A billing record has been committed: its slot is journaled (Table 9.3 step 6). -/
def billJournaled (payload : List Byte) (s : State) : State :=
  billLevel (modBill (fun b =>
    { b with slots := b.slots.map fun x => if x.bytes == payload && !x.bytes.isEmpty then { x with journaled := true }
      else x }) s)

/-- The effect cycle of a billing commit (R313). -/
def commitSnapshot (reason : Nat) (s : State) : State :=
  let monthly := s.bill.due.getD (billKey (items s).bill (s.time.dt.toNat / 32768), 0)
  let (key, skipped) := if reason = 1 then monthly else (s.bill.lastKey, 0)
  let bytes := snapshot s reason key skipped
  let n := olderSlot s
  let lost := !(nth s.bill.slots n).journaled && !(nth s.bill.slots s.bill.newest).journaled
  let s1 := modBill (fun b =>
    { b with
      slots := put b.slots n
        { bytes := bytes, crc := crc32 bytes, seq := (b.snapSeq + 1) % 2 ^ 32, journaled := false }
      newest := n, snapSeq := (b.snapSeq + 1) % 2 ^ 32
      lastKey := if reason = 1 then key else b.lastKey
      due := if reason = 1 then none else b.due
      reqToday := if reason = 2 then snapsToday s + 1 else b.reqToday
      reqDay := if reason = 2 then today s else b.reqDay
      lost := if lost then satInc b.lost else b.lost }) (clearStepSum 1 s)
  let s2 := modTamper (fun t => { t with seen := 0 }) s1
  let s3 := if reason = 1 && (items s).bill.maxRestart = 1 then commitInteg (fun c =>
      { c with flowMax := 0, flowMaxDt := 0, powerMax := 0, powerMaxDt := 0, coolMax := 0, coolMaxDt := 0 }) s2
    else s2
  raiseIf (reason = 1 && decide (0 < skipped)) Src.billCatchup (raiseIf lost Src.snapLost (billLevel s3))

/-- What a commit by a job replaces. -/
def snapBefore (job : Nat) (s : State) : SnapUndo :=
  let c := integNow s
  { job := job, slots := s.bill.slots, newest := s.bill.newest, snapSeq := s.bill.snapSeq, lastKey := s.bill.lastKey
    due := s.bill.due, reqToday := s.bill.reqToday, reqDay := s.bill.reqDay, lost := s.bill.lost, seen := s.tamper.seen
    flowMax := (c.flowMax, c.flowMaxDt), powerMax := (c.powerMax, c.powerMaxDt), coolMax := (c.coolMax, c.coolMaxDt) }

/-- The larger of two maxima, with its DT. -/
def largerMax (a b : Nat × Nat) : Nat × Nat := if a.1 < b.1 then b else a

/-- A commit whose job is stopped before it completes is rolled back: the slots, SNAP_SEQ, LAST_BILL_KEY, the maxima and
TAMPER_SEEN are as before it, but for what has come since (R132, R324). -/
def undoSnapshot (job : Nat) (s : State) : State :=
  match s.bill.before with
  | none => s
  | some u =>
    if u.job ≠ job then s
    else
      let s1 := modBill (fun b =>
        { b with
          slots := u.slots, newest := u.newest, snapSeq := u.snapSeq, lastKey := u.lastKey, due := u.due
          reqToday := u.reqToday, reqDay := u.reqDay, lost := u.lost, before := none }) s
      billLevel (modTamper (fun t => { t with seen := t.seen ||| u.seen }) (commitInteg (fun c =>
        let f := largerMax u.flowMax (c.flowMax, c.flowMaxDt)
        let p := largerMax u.powerMax (c.powerMax, c.powerMaxDt)
        let k := largerMax u.coolMax (c.coolMax, c.coolMaxDt)
        { c with
          flowMax := f.1, flowMaxDt := f.2, powerMax := p.1, powerMaxDt := p.2, coolMax := k.1, coolMaxDt := k.2 }) s1))

/-- The SNAP_REQUEST that a commit of reason 2 ends: DONE, or DONE_FLAGGED where a snapshot with SKIPPED ≠ 0 was committed
while it waited (R324; log 12, DEDUCED). -/
def endRequest (r : JobResult) (s : State) : State :=
  match (snapWaiters s).head? with
  | none => s
  | some w =>
    engineEnds w.id { r with status := if s.bill.flagged.contains w.id then .doneFlagged else .done }
      (modBill (fun b => { b with flagged := b.flagged.filter (· != w.id) }) s)

/-- A BILL_COMMIT completes: its snapshot's journal job is submitted, and the request it served ends (Table 9.3 step 5). -/
def snapshotDone (j : Job) (r : JobResult) (s : State) : State :=
  let s1 := journalSlot s.bill.newest (modBill (fun b => { b with before := none }) s)
  if j.desc.arg 0 % 4 = 2 then endRequest r s1 else s1

/-- BILL_COMMIT (R313): only one submitted inside a billing-commit lock, with reason 1 or 2. Its journal job follows as it
completes (Table 9.3 step 5). -/
def billCommitJob (j : Job) (s : State) : State :=
  let reason := j.desc.arg 0 % 4
  if !jobActorOk j.desc j.actor then engineEnds j.id { status := .refusedRole } s
  else if !j.mark || !(reason == 1 || reason == 2) then engineEnds j.id { status := .refusedPolicy } s
  else
    let s1 := commitSnapshot reason s
    let late := reason == 1 && (match s.bill.due with | some (_, n) => decide (0 < n) | none => false)
    let s2 := modBill (fun b =>
      { b with
        before := some (snapBefore j.id s)
        flagged := if late then b.flagged ++ (snapWaiters s).map (·.id) else b.flagged }) s1
    engineEnds j.id { status := .done, result := s1.bill.snapSeq % 2 ^ 16 } s2

/-- BILL_COMMIT: the running job of the tag has its effect. -/
def execBillCommit (tag : Nat) (s : State) : Host.Outcome State Fault Refusal :=
  done (onJob tag 8 1 billCommitJob s)

/-- A load-profile record (Table 10.8). -/
def loadProfile (s : State) : List Byte :=
  let c := integNow s
  let t := (items s).temp
  let chan := fun r => ((t.ofRole r).map fun n => (nth s.temp.ch n).temp).getD 0
  padTo 192 0 (bytesLE 1 1 ++ bytesLE 1 (quality s 5)
    ++ bytesLE 2 s.integ.lpFlags ++ bytesLE 4 0
    ++ bytesLE 8 s.time.dt.toNat ++ mainBytes c ++ bytesLE 8 c.operTime ++ bytesLE 8 c.errTime ++ tqBytes c
    ++ bytesLE 4 s.integ.winAvgFlow ++ bytesLE 4 s.integ.winAvgPower ++ bytesInt 4 (chan 1) ++ bytesInt 4 (chan 2)
    ++ bytesLE 2 (tamperActive s))

/-- BILL's registers (Table 9.9). -/
def readBill (s : State) (off : Nat) : Nat :=
  let b := s.bill
  let word := fun (v : Nat) (k : Nat) => v / 2 ^ (32 * k) % 2 ^ 32
  let ls := localS (items s).bill (s.time.dt.toNat / 32768)
  let days := ls / 86400
  let sec := (ls.emod 86400).toNat
  if off = 0x000 then
    let c := b.cal.getD {}
    c.tariff + c.by_ * 8 + c.season * 64 + c.profile * 256 + b2n c.dst * 2048 + b2n b.extIn * 4096
      + b2n (c.by_ == 1) * 8192
  else if off = 0x004 then
    let (y, m, d) := civil days
    y % 65536 + m * 2 ^ 16 + d * 2 ^ 20 + weekday days * 2 ^ 25
  else if off = 0x008 then sec / 3600 + sec / 60 % 60 * 2 ^ 5 + sec % 60 * 2 ^ 11
  else if off = 0x00C || off = 0x010 then word b.nextSwitch ((off - 0x00C) / 4)
  else if off = 0x014 then b.force
  else if off = 0x018 || off = 0x01C then word b.forceUntil ((off - 0x018) / 4)
  else if off = 0x020 then
    b2n ((nth b.slots 0).journaled && !(nth b.slots 0).bytes.isEmpty)
      + 2 * b2n ((nth b.slots 1).journaled && !(nth b.slots 1).bytes.isEmpty) + 4 * b.newest + 256 * snapsToday s
  else if off = 0x024 then b.snapSeq
  else if off = 0x028 then b.lastKey
  else if off = 0x02C then b.lost.toNat
  else if 0x040 ≤ off && off < 0x0C0 && off % 16 < 12 then
    let a := nth (integNow s).tq ((off - 0x040) / 16)
    if off % 16 = 8 then a.frac else word a.int (off % 16 / 4)
  else if 0x100 ≤ off && off < 0x1D0 then leAt (nth b.slots b.newest).bytes (off - 0x100) 4
  else 0

end Sys2Proof.Machine
end

