-- ==== Sys2Proof/Machine/Roles.lean ====
section
/-! DEFINITION. Authentication, sessions, dual consent and the ROLES registers (chapter 14). The commands that a port's
register write can also give (AUTH_BEGIN, AUTH_FINISH, SESSION_END) stand in Auth.lean. -/

namespace Sys2Proof.Machine

/-! ### Authentication (R488 to R493) -/

/-- The ASCII tag of an authentication or consent message. -/
def asciiTag (t : String) : List Byte := t.toList.map fun c => BitVec.ofNat 8 c.toNat

/-- The role-key slot of a role (R484); slot 3 for the maker of the bare state (R493). -/
def roleKeySlot (s : State) (role : Nat) : Nat := if s.boot.bare then 3 else at0 (items s).roles.roleSlot (role - 1)

/-- The role key, where its slot holds one that may verify (R484, R456). -/
def roleKey (s : State) (role : Nat) : Option (List Byte) :=
  let sl := nth s.keys.slots (roleKeySlot s role)
  if within 1 3 role && slotUsable s (roleKeySlot s role) && sl.attr.use.testBit 3 && sl.attr.use.testBit 6 then some sl.key else none

/-- An authentication message: tag, serial number, NC, NH, the port's master ID and the role (R488). -/
def authMsg (s : State) (t : String) (nc nh : List Byte) (master role : Nat) : List Byte :=
  asciiTag t ++ serial s ++ nc ++ nh ++ bytesLE 1 master ++ bytesLE 1 role

/-- Seconds left of a port's lockout for a role (R492). -/
def lockLeft (s : State) (i role : Nat) : Nat :=
  ceilDiv (nth (nth s.roles.sess i).lockUntil role - s.time.d04) 32768

/-- Some port is locked for some role. -/
def anyLockout (s : State) : Bool := (List.range 4).any fun i => (List.range 5).any fun r => lockLeft s i r != 0

/-- The challenge NC delivered: state, registers, and the waiting job's output. -/
def giveChallenge (i : Nat) (w : AuthWait) (nc : List Byte) (s : State) : State :=
  let s1 := modSess i (fun x => { x with want := none, chal := some ⟨w.role, w.nh, nc, s.time.d04⟩ }) s
  let s2 := modRoles (fun r => { r with authChal := nc, authState := 1, authRoleNow := 4, authLast := 0 }) s1
  match w.job with
  | some id => engineEnds id { out := nc } s2
  | none => s2

/-- AUTH_BEGIN on a port (R472, R488, R489, R492, R493): refused, or a challenge drawn, or a wait for the FIFO. The
status and RETRY_S. -/
def authBegin (master role : Nat) (nh : List Byte) (job : Option Nat) (s : State) : State × Status × Nat :=
  match sessionOf master with
  | none => (s, .refusedPolicy, 0)
  | some i =>
    let s1 := modSess i (fun x => { x with chal := none, want := none, lastRole := role }) (endSession i s)
    if !within 1 3 role || (s.boot.bare && !(role == 3 && master == 1)) then (s1, .refusedPolicy, 0)
    else if master = 2 && !hasRight s .debug role then (s1, .refusedRole, 0)
    else if lockLeft s1 i role ≠ 0 then (setLevel Src.authLockout true s1, .refusedPolicy, satNat 16 (lockLeft s1 i role))
    else
      let w : AuthWait := ⟨role, nh, s.time.ticks, job⟩
      match takeRandom 8 s1 with
      | some (nc, t) => (giveChallenge i w nc t, .done, 0)
      | none => (modSess i (fun x => { x with want := some w }) s1, .done, 0)

/-- The AUTH_BEGINs that wait for the FIFO take their challenges (R472). -/
def serveAuth (s : State) : State :=
  (List.range 4).foldl (fun t i =>
    match (nth t.roles.sess i).want with
    | none => t
    | some w =>
      match takeRandom 8 t with
      | some (nc, u) => giveChallenge i w nc u
      | none => t) s

/-- A failure counted for a port and role (R492): AUTH_FAIL, and the lockout that follows AUTH_FAIL_MAX of them, recorded
with the nonces of the exchange where there is one (Table 14.7). -/
def authFailed (i role : Nat) (nc nh : List Byte) (s : State) : State :=
  let c := (items s).roles
  let n := nth (nth s.roles.sess i).fails role + 1
  let s1 := raise Src.authFail (modSess i (fun x => { x with fails := put x.fails role n, lastRole := role }) s)
  if c.authFailMax ≤ n then
    audit { kind := 12, role := role, master := sessionMaster i, item := role, old := nc, new := nh }
      (modSess i (fun x => { x with
        lockUntil := put x.lockUntil role
          (s.time.d04 + secTicks (min 86400 (c.lockBaseS * 2 ^ min 17 (n - c.authFailMax)))) }) s1)
  else s1

/-- An exchange that waits for its response has lost its role key, so that its end is by R466: REFUSED_POLICY with QFLAGS
USE (R506). -/
def authKeyless (s : State) (master : Nat) : Bool :=
  match (sessionOf master).bind fun i => (nth s.roles.sess i).chal with
  | some c => !counted s c.at_ (secTicks (items s).roles.authChalS) && (roleKey s c.role).isNone
  | none => false

/-- The attributes of a session slot (R488 step 4). -/
def sessionAttr (s : State) (slot role : Nat) : SlotAttr :=
  match (items s).keys.entry slot with
  | some e => if e.attr.source = 2 then { e.attr with use := 15, role := role }
    else { source := 2, use := 15, role := role, minMode := 1, outSecret := false, eraseOn := 0xFF }
  | none => { source := 2, use := 15, role := role, minMode := 1, outSecret := false, eraseOn := 0xFF }

/-- AUTH_FINISH on a port: the status and CONF (R488 steps 4 and 5, R489, R492, R506). An ERASED session slot is not
loaded (R467). Its three CMACs are internal cipher jobs, the verification of RESP and the load of KS in mode M; a mismatch of the engine's own check in them (`fi`) stops it, and
is no failure counted (R455). -/
def authFinish (master : Nat) (resp : List Byte) (fi : Bool) (s : State) : State × Status × List Byte :=
  match sessionOf master with
  | none => (s, .refusedPolicy, [])
  | some i =>
    match (nth s.roles.sess i).chal with
    | none => (s, .refusedPolicy, [])
    | some c =>
      let s1 := modRoles (fun r => { r with authState := 0 }) (modSess i (fun x => { x with chal := none }) s)
      if counted s c.at_ (secTicks (items s).roles.authChalS) then (s1, .refusedPolicy, [])
      else match roleKey s c.role with
        | none => (s1, .refusedPolicy, [])
        | some k =>
          let len := (authMsg s "YLAU" c.nc c.nh master c.role).length
          let s1 := runCmac 1 len s1
          let rec_ : AuditReq := { role := c.role, master := master, item := c.role, old := c.nc, new := c.nh }
          if fi then (faultInject s1, .refusedPolicy, [])
          else if cmac k (authMsg s "YLAU" c.nc c.nh master c.role) != padTo 16 0 resp then
            (authFailed i c.role c.nc c.nh (audit { rec_ with kind := 11, status := Status.checkFailed.code } s1), .checkFailed, [])
          else if (nth s.keys.slots (sessionSlot i)).erased then (s1, .refusedPolicy, [])
          else
            let ks := cmac k (authMsg s "YLSK" c.nc c.nh master c.role)
            let conf := (cmac ks (asciiTag "YLOK" ++ c.nh)).take 8
            let filled := lockedFill (sessionSlot i) ks (sessionAttr s (sessionSlot i) c.role) (runCmac 1 len s1)
            let s2 := freePeers (sessionSlot i) (runCmac (cipherMode filled (sessionSlot i) 0) 12 filled)
            let s3 := modSess i (fun x => { x with
              isOpen := true, role := c.role, openedAt := s.time.d04, lastAt := s.time.d04, nc := c.nc, nh := c.nh
              fails := put x.fails c.role 0, lastRole := c.role }) s2
            let s4 := (if i = 1 then modPorts (fun p => { p with optCnt := 0 }) else id)
              (modRoles (fun r => { r with authConf := conf, authState := 2, authRoleNow := c.role }) s3)
            let s5 := audit { rec_ with kind := 10 } s4
            (if i = 2 && isSealed s then setLevel Src.debugOpen true s5 else s5, .done, conf)

/-- SESSION_END on a port (R491). -/
def sessionEnd (master : Nat) (s : State) : State × Status :=
  match sessionOf master with
  | none => (s, .refusedPolicy)
  | some i => (endSession i s, .done)

/-- SESSION_IDLE_TIMEOUT: a port's session has seen no request for SESS_IDLE_S (R491). -/
def execSessionIdleTimeout (i : Nat) (s : State) : Host.Outcome State Fault Refusal :=
  let x := nth s.roles.sess i
  done (if i < 4 && x.isOpen && counted s x.lastAt (secTicks (items s).roles.sessIdleS) then endSession i s else s)

/-- SESSION_MAX_TIMEOUT: SESS_MAX_S have counted since a session opened (R491). -/
def execSessionMaxTimeout (i : Nat) (s : State) : Host.Outcome State Fault Refusal :=
  let x := nth s.roles.sess i
  done (if i < 4 && x.isOpen && counted s x.openedAt (secTicks (items s).roles.sessMaxS) then endSession i s else s)

/-- CHALLENGE_EXPIRY: a challenge is AUTH_CHAL_S old (R489). -/
def execChallengeExpiry (i : Nat) (s : State) : Host.Outcome State Fault Refusal :=
  done (match (nth s.roles.sess i).chal with
  | some c => if i < 4 && counted s c.at_ (secTicks (items s).roles.authChalS) then
      modRoles (fun r => { r with authState := if r.authState = 1 then 0 else r.authState })
        (modSess i (fun x => { x with chal := none }) s)
    else s
  | none => s)

/-- LOCKOUT_END: a lockout has run out; AUTH_LOCKOUT clears when none remains (R492). -/
def execLockoutEnd (s : State) : Host.Outcome State Fault Refusal :=
  done (if anyLockout s then s else setLevel Src.authLockout false s)

/-! ### Dual consent (R494 to R497) -/

/-- A token of a role over ITEMS, DIGEST and BASE_SEQ (R496). -/
def consentToken (s : State) (key : List Byte) (items baseSeq : Nat) (digest : List Byte) : List Byte :=
  (cmac key (asciiTag "YLCN" ++ serial s ++ bytesLE 2 items ++ digest ++ bytesLE 4 baseSeq)).take 8

/-- The fields of a consent job's input: ITEMS, DIGEST, BASE_SEQ and the token, one after the other (log 22, DEDUCED). -/
structure ConsentIn where
  items : Nat := 0
  digest : List Byte := []
  baseSeq : Nat := 0
  token : List Byte := []
  deriving DecidableEq, Repr

/-- The fields read from the input bytes. -/
def ConsentIn.ofBytes (b : List Byte) : ConsentIn := ⟨leAt b 0 2, slice b 2 16, leAt b 18 4, slice b 22 8⟩

/-- The token check (Table 14.5): none where it passes under the actor's role key. A token of another role is
REFUSED_ROLE, a failing one CHECK_FAILED. Where the role's slot holds no key, no token can be checked, and the job that
names it is refused (R466, R506). -/
def tokenCheck (s : State) (role : Nat) (x : ConsentIn) : Option Status :=
  let passes := fun r => match roleKey s r with
    | some k => consentToken s k x.items x.baseSeq x.digest == x.token
    | none => false
  if (roleKey s role).isNone then some .refusedPolicy
  else if passes role then none
  else if [1, 2, 3].any (fun r => r != role && passes r) then some .refusedRole
  else some .checkFailed

/-- PAIRS bit of two roles (R495), none for a pair of one role. -/
def pairBit (a b : Nat) : Option Nat :=
  match min a b, max a b with
  | 1, 2 => some 0 | 1, 3 => some 1 | 2, 3 => some 2 | _, _ => none

/-- The pair is allowed for every protection item of ITEMS (R495). -/
def pairAllowed (s : State) (its a b : Nat) : Bool :=
  match pairBit a b with
  | some k => (List.range 8).all fun i => !its.testBit i || (at0 (items s).roles.pairs i).testBit k
  | none => false

/-- A strict audit refuses a job of certain rights while the audit queue is full (R500). -/
def strictRefused (s : State) : Bool := (items s).roles.auditStrict == 1 && auditFull s

/-- A consent entry changed. -/
def modConsent (e : Nat) (f : Consent → Consent) (s : State) : State :=
  modRoles (fun r => { r with consents := upd r.consents e f }) s

/-- The audit record of a consent step (Table 14.7). -/
def auditConsent (kind : Nat) (a : Actor) (ref its : Nat) (digest : List Byte) (st : Status) (s : State) : State :=
  audit { kind := kind, role := a.role, master := a.master, item := ref, old := bytesLE 2 its, new := digest,
          status := st.code, radio := radioMaster a.master } s

/-- A failing token counts as an authentication failure of the port and role (Table 14.5, R492). -/
def tokenFailed (a : Actor) (st : Status) (s : State) : State :=
  if st = .checkFailed then
    match sessionOf a.master with
    | some i => authFailed i a.role [] [] s
    | none => raise Src.authFail s
  else s

/-- The entry a proposal takes: a free one, or one that is over (R497). -/
def consentRoom (s : State) : Option Nat :=
  let st := fun e => (nth s.roles.consents e).state
  match (List.range 4).find? (fun e => st e == .free) with
  | some e => some e
  | none => (List.range 4).find? fun e => st e == .expired || st e == .used || st e == .withdrawn

/-- CONSENT_PROPOSE (R496 step 1, Table 14.5). -/
def consentProposeJob (j : Job) (s : State) : State :=
  let x := ConsentIn.ofBytes (inputBytes s j 0)
  let a := j.actor
  let fail := fun (st : Status) (retry : Nat) (t : State) =>
    engineEnds j.id { status := st, retryS := retry } (auditConsent 7 a 0 x.items x.digest st t)
  let unchecked := fun (st : Status) (t : State) =>
    engineEnds j.id { status := st, qflags := b2n (st == .refusedPolicy) } (auditConsent 7 a 0 x.items x.digest st t)
  if !within 1 3 a.role then fail .refusedRole 0 s
  else if strictRefused s then fail .refusedPolicy 0 s
  else match tokenCheck s a.role x with
    | some st => unchecked st (tokenFailed a st s)
    | none =>
      if 256 ≤ x.items || x.baseSeq ≠ s.boot.img.seq then fail .refusedPolicy 0 s
      else match consentRoom s with
        | none => fail .refusedPolicy 3600 s
        | some e =>
          let ref := s.roles.nextRef
          let s1 := modRoles (fun r => { r with nextRef := ref + 1 }) (modConsent e (fun _ => {
            state := .proposed, proposer := a.role, items := x.items, ref := ref, baseSeq := x.baseSeq
            digest := x.digest, until_ := s.time.d04 + secTicks 86400 }) s)
          engineEnds j.id { result := ref % 2 ^ 20 } (auditConsent 7 a ref x.items x.digest .done s1)

/-- CONSENT_PROPOSE: the running job of the tag has its effect. -/
def execConsentPropose (tag : Nat) (s : State) : Host.Outcome State Fault Refusal :=
  done (onJob tag 13 0x13 consentProposeJob s)

/-- The entry with a reference that is still of use. -/
def consentByRef (s : State) (ref : Nat) : Option Nat :=
  (List.range 4).find? fun e => (nth s.roles.consents e).ref == ref && (nth s.roles.consents e).state != .free

/-- What a countersign comes to (Table 14.5): the status and the entry's new state. -/
def signOutcome (s : State) (c : Consent) (role : Nat) (x : ConsentIn) : Status × ConsentState :=
  if c.state != .proposed then (.refusedPolicy, c.state)
  else if role = c.proposer then (.refusedPolicy, c.state)
  else if x.items != c.items || x.digest != c.digest || x.baseSeq != c.baseSeq then (.refusedPolicy, c.state)
  else if c.until_ ≤ s.time.d04 then (.refusedPolicy, .expired)
  else if c.baseSeq ≠ s.boot.img.seq then (.refusedPolicy, .expired)
  else if !pairAllowed s c.items c.proposer role then (.refusedPolicy, .withdrawn)
  else (.done, .committed)

/-- A CONSENT_SIGN job's countersign is valid, so that its consent commit runs (R496 step 3). -/
def signValid (s : State) (j : Job) : Bool :=
  let x := ConsentIn.ofBytes (inputBytes s j 0)
  within 1 3 j.actor.role && !strictRefused s && (tokenCheck s j.actor.role x).isNone
    && ((consentByRef s (j.desc.arg 0)).any fun e => (signOutcome s (nth s.roles.consents e) j.actor.role x).1 == .done)

/-- The consent-commit lock taken by a CONSENT_SIGN job as it is dispatched, where a locked sequence can begin (R132). -/
def consentLock (j : Job) (s : State) : State :=
  if j.desc.engine = 13 && j.desc.opcode = 0x14 && signValid s j && !lockBusy s then
    modMason (fun m => { m with lock := some (.consentCommit, s.time.ticks) }) s
  else s

/-- CONSENT_SIGN: the countersign and the consent-commit locked sequence (R496 steps 2 and 3, R504); it waits where no
locked sequence can begin (R132). -/
def consentSignJob (j : Job) (s0 : State) : State :=
  let s := unlockAs .consentCommit s0
  let x := ConsentIn.ofBytes (inputBytes s j 0)
  let a := j.actor
  let ref := j.desc.arg 0
  let ends := fun (st : Status) (t : State) =>
    engineEnds j.id { status := st, result := if st = .done then ref % 2 ^ 20 else 0 }
      (auditConsent 8 a ref x.items x.digest st t)
  if lockBusy s0 && !ownLock s0 .consentCommit then s0
  else if !within 1 3 a.role then ends .refusedRole s
  else if strictRefused s then ends .refusedPolicy s
  else match tokenCheck s a.role x with
    | some st => engineEnds j.id { status := st, qflags := b2n (st == .refusedPolicy) }
        (auditConsent 8 a ref x.items x.digest st (tokenFailed a st s))
    | none =>
      match consentByRef s ref with
      | none => ends .refusedPolicy s
      | some e =>
        let (st, after) := signOutcome s (nth s.roles.consents e) a.role x
        let s1 := modConsent e (fun c => { c with
          state := after
          signer := if st = .done then a.role else c.signer
          until_ := if st = .done then s.time.d04 + secTicks 86400 else c.until_ }) s
        ends st (raiseIf (after == .expired && decide ((nth s.roles.consents e).until_ ≤ s.time.d04)) Src.consentExpired s1)

/-- CONSENT_SIGN: the running job of the tag has its effect. -/
def execConsentSign (tag : Nat) (s : State) : Host.Outcome State Fault Refusal :=
  done (onJob tag 13 0x14 consentSignJob s)

/-- A staging in progress holds a consent reference (R497): its STAGE job's ARG1 names it. -/
def stageHolds (s : State) (ref : Nat) : Bool :=
  (runningId s (stagedJob s)).isSome && s.boot.stgRef == ref

/-- CONSENT_WITHDRAW: a role of the entry takes it back (R497). A staging that holds the entry completes first, so the
job waits for it. -/
def consentWithdrawJob (j : Job) (s : State) : State :=
  let a := j.actor
  let ref := j.desc.arg 0
  if stageHolds s ref then s
  else
    let found := (consentByRef s ref).filter fun e =>
      let c := nth s.roles.consents e
      (c.state == .proposed && a.role == c.proposer)
        || (c.state == .committed && (a.role == c.proposer || a.role == c.signer))
    match found with
    | some e =>
      if strictRefused s then engineEnds j.id { status := .refusedPolicy } s
      else
        let c := nth s.roles.consents e
        engineEnds j.id {} (auditConsent 9 a ref c.items c.digest .done
          (modConsent e (fun c => { c with state := .withdrawn }) s))
    | none =>
      engineEnds j.id { status := .refusedPolicy } (auditConsent 9 a ref 0 [] .refusedPolicy s)

/-- CONSENT_WITHDRAW: the running job of the tag has its effect. -/
def execConsentWithdraw (tag : Nat) (s : State) : Host.Outcome State Fault Refusal :=
  done (onJob tag 13 0x15 consentWithdrawJob s)

/-- An entry whose window has closed expires (Table 14.5). -/
def expireConsent (e : Nat) (st : ConsentState) (s : State) : State :=
  let c := nth s.roles.consents e
  if e < 4 && c.state == st && c.until_ ≤ s.time.d04 then
    auditConsent 9 ⟨0, 0⟩ c.ref c.items c.digest .refusedPolicy
      (raise Src.consentExpired (modConsent e (fun c => { c with state := .expired }) s))
  else s

/-- CONSENT_SIGN_EXPIRY: a proposal not countersigned within 24 h. -/
def execConsentSignExpiry (e : Nat) (s : State) : Host.Outcome State Fault Refusal := done (expireConsent e .proposed s)

/-- CONSENT_USE_EXPIRY: a committed consent not used within 24 h. -/
def execConsentUseExpiry (e : Nat) (s : State) : Host.Outcome State Fault Refusal := done (expireConsent e .committed s)

/-! ### Debug level (R501) -/

/-- DEBUG_HOURS_EXPIRY: DEBUG_HOURS have counted since the level was installed. -/
def execDebugHoursExpiry (s : State) : Host.Outcome State Fault Refusal :=
  let h := (items s).ports.debugHours
  done (if h ≠ 0 && counted s s.roles.debugSince (secTicks (3600 * h)) then
    modRoles (fun r => { r with debugExpired := true }) s else s)

/-! ### Registers -/

/-- The rights in the order of Table 14.2, a family's members in ascending order (log 23, DEDUCED). -/
def rightList : List Right :=
  [.readId, .readTotals, .readStatus] ++ (List.range 8).map .readJournal
    ++ [.tariff, .time, .snapZeroize, .field, .diag, .linkLeave, .reseat]
    ++ (List.range 18).map (fun i => .stage (i + 1)) ++ [.makerOnly, .debug, .consent]
    ++ (List.range 32).map fun i => .queue (32 + i)

/-- RIGHTS[r]: [0] public, [1] operator, [2] installer, [3] maker. -/
def rightsWord (s : State) (r : Nat) : Nat :=
  match rightList[r]? with
  | some x => let m := (items s).roles.holders x; b2n (m.testBit 4) + (m &&& 14)
  | none => 0

/-- A word of a session (Table 14.8). -/
def readSess (s : State) (i off : Nat) : Nat :=
  let x := nth s.roles.sess i
  match off with
  | 0x0 => x.role + 8 * b2n x.isOpen
  | 0x4 => if x.isOpen then satNat 16 ((s.time.d04 - x.lastAt) / 32768) else 0
  | 0x8 => (if x.isOpen then satNat 16 ((s.time.d04 - x.openedAt) / (60 * 32768)) else 0)
      + satNat 16 (nth x.fails x.lastRole) * 2 ^ 16
  | _ => satNat 17 (lockLeft s i x.lastRole)

/-- A word of a consent entry (Table 14.8). -/
def readConsent (s : State) (e off : Nat) : Nat :=
  let c := nth s.roles.consents e
  match off with
  | 0x00 => c.state.code + c.proposer * 8 + c.signer * 64 + c.items * 2 ^ 16
  | 0x04 => c.ref % 2 ^ 32
  | 0x08 => c.baseSeq
  | 0x0C => if c.state == .proposed || c.state == .committed then
      satNat 17 (ceilDiv (c.until_ - s.time.d04) 32768) else 0
  | _ => leAt c.digest (off - 0x10) 4

/-- The exchange words: AUTH_CTRL to AUTH_STATUS (Table 14.8, and R493 in BOOT). -/
def readAuth (s : State) (off : Nat) : Nat :=
  let r := s.roles
  if off = 0x000 then r.authRole
  else if 0x004 ≤ off && off < 0x00C then leAt r.authNh (off - 0x004) 4
  else if 0x00C ≤ off && off < 0x014 then leAt r.authChal (off - 0x00C) 4
  else if 0x024 ≤ off && off < 0x02C then leAt r.authConf (off - 0x024) 4
  else if off = 0x030 then r.authState + r.authRoleNow * 4 + r.authLast * 2 ^ 8
  else 0

/-- A word of ROLES (Table 14.8). -/
def readRoles (s : State) (off : Nat) : Nat :=
  if off < 0x040 then readAuth s off
  else if off < 0x080 then readSess s ((off - 0x040) / 0x10) (off % 0x10)
  else if 0x100 ≤ off && off < 0x180 then readConsent s ((off - 0x100) / 0x20) (off % 0x20)
  else if off = 0x200 then s.roles.auditSeq
  else if off = 0x204 then s.roles.auditQueue.length + s.roles.auditDrop.toNat * 2 ^ 16
  else if off = 0x208 then
    let h := (items s).ports.debugHours
    debugLevel s + (if h = 0 then 0
      else satNat 24 (ceilDiv (s.roles.debugSince + secTicks (3600 * h) - s.time.d04) (60 * 32768))) * 2 ^ 8
  else if 0x300 ≤ off && off < 0x300 + 4 * rightList.length then rightsWord s ((off - 0x300) / 4)
  else 0

end Sys2Proof.Machine
end

