-- ==== Sys2Proof/Machine/Cipher.lean ====
section
/-! DEFINITION. Quoin's commands (chapter 13): the cipher jobs CCM_SEAL to CMAC_VER, ZEROIZE, ALARM, ERASE_REPEAT, the
random source's RANDOM to MASK_STALE, and the CIPHER, KEYSLOT and ENTROPY registers. ERASE_CMD is a register write and
stands with them. -/

namespace Sys2Proof.Machine

/-! ### Cipher jobs -/

/-- The USE bits any of which admits an operation (Table 13.3, R456). -/
def useBits (op : Nat) : List Nat :=
  match op with
  | 1 => [0] | 2 => [1] | 3 => [0, 1] | 4 => [0] | 5 => [1] | 6 => [2] | 7 => [3] | _ => []

/-- A job is refused for its slot (R456); the slots of a fenced KEYSLOT unit cannot be used (Table 15.4). Slot 0 signs only inside the chip (Table 13.3). -/
def useRefused (s : State) (j : Job) : Bool :=
  let n := j.desc.arg 0 % 32
  let sl := nth s.keys.slots n
  decide (24 ≤ n) || !slotUsable s n || !(useBits j.desc.opcode).any (fun b => sl.attr.use.testBit b)
  || (isPort j.actor.master && (n == 0 || !sl.attr.use.testBit 7)) || (n == 0 && j.desc.opcode == 6)

/-- TAG_LEN: 4 to 16, even; the four bits spell 16 as 0 (log 22, DEDUCED). -/
def tagLen (w : Nat) : Option Nat :=
  let t := if w % 16 = 0 then 16 else w % 16
  if 4 ≤ t && t % 2 = 0 then some t else none

/-- What an operation computes: the payload out, the tag out, and whether a tag it verified matched (R454). -/
def cipherResult (op : Nat) (key param aad msg : List Byte) (t : Nat) : List Byte × List Byte × Bool :=
  let iv := slice param 0 16
  let nonce := slice param 0 13
  let tag := slice param 16 t
  match op with
  | 1 => let r := ccmSeal key nonce aad msg t; (r.1, r.2, true)
  | 2 => let r := ccmOpen key nonce aad msg tag; (r.1, [], r.2)
  | 3 => (ctrMode key iv msg, [], true)
  | 4 => (cbcEnc key iv msg, [], true)
  | 5 => (cbcDec key iv msg, [], true)
  | 6 => ([], (cmac key msg).take t, true)
  | _ => ([], [], (cmac key msg).take t == tag)

/-- The arguments of a cipher job are ones its row gives a meaning to: whole blocks for CBC, a TAG_LEN where a tag is
made or verified, input as long as it says, and granules for what it delivers (log 22, DEDUCED). -/
def cipherArgsOk (s : State) (j : Job) : Bool :=
  let op := j.desc.opcode
  let p := j.desc.arg 1 % 2 ^ 16
  let a := j.desc.arg 1 / 2 ^ 16
  let makesTag := op == 1 || op == 6
  let pays := decide (op ≤ 5)
  (!(op == 4 || op == 5) || p % 16 == 0)
  && (decide (3 ≤ op && op ≤ 5) || (tagLen (j.desc.arg 2)).isSome)
  && decide (p ≤ (inputBytes s j 2).length) && (decide (3 ≤ op) || decide (a ≤ (inputBytes s j 1).length))
  && decide ((if pays then ceilDiv p 512 else 0) + b2n makesTag ≤ j.outs.length)

/-- A cipher job runs (R450 to R457, R473, Table 13.9): refused for its slot, stopped by a mismatch of the engine's own check
in block `fi` (0 for the first), failing its check, or done; the tag stands in the granule after the payload, whose index RESULT [19:17] names (log 22, DEDUCED). -/
def cipherJob (op tag : Nat) (fi : Option Nat) (s : State) : State :=
  match runningJob s tag 13 op with
  | none => s
  | some j =>
    let n := j.desc.arg 0 % 32
    if useRefused s j then engineEnds j.id { status := .refusedPolicy, qflags := 1 } s
    else if !cipherArgsOk s j then engineEnds j.id { status := .refusedPolicy } s
    else
      let p := j.desc.arg 1 % 2 ^ 16
      let a := if op ≤ 2 then j.desc.arg 1 / 2 ^ 16 else 0
      let mode := cipherMode s n (bits 5 5 (j.desc.arg 0))
      let count := cipherBlocks op p a
      let (cycles, s2) := runBlocks mode (match fi with | some k => min k (count - 1) | none => count) s
      if fi.isSome then faultInject (engineEnds j.id { status := .refusedPolicy, qflags := 2 } s2)
      else
        let sl := nth s.keys.slots n
        let (out, t, ok) := cipherResult op sl.key (inputBytes s j 0) (slice (inputBytes s j 1) 0 a)
          (slice (inputBytes s j 2) 0 p) ((tagLen (j.desc.arg 2)).getD 16)
        let res := satNat 16 cycles + mode * 2 ^ 16
        let stale := s2.cipher.mask.stale
        if !ok then
          engineEnds j.id { status := .checkFailed, qflags := 8 * b2n stale, result := res }
            (modCipher (fun c => { c with tagFail := satInc c.tagFail }) s2)
        else
          let k := ceilDiv out.length 512
          let bytes := if t.isEmpty then out else padTo (k * 512) 0 out ++ t
          let secret := sl.attr.outSecret && (op == 2 || op == 5 || (op == 3 && sl.attr.use.testBit 1))
          let s3 := if secret then j.outs.foldl (fun u g => modGran g (fun x => { x with secret := true }) u) s2 else s2
          engineEnds j.id {
            status := if stale then .doneFlagged else .done, qflags := 8 * b2n stale
            result := res + (if t.isEmpty then 0 else k % 8) * 2 ^ 17, out := bytes } s3

/-- CCM_SEAL; `fi` is the block in which the engine's own check sees a mismatch, if it does (R455). -/
def execCcmSeal (tag : Nat) (fi : Option Nat) (s : State) : Host.Outcome State Fault Refusal := done (cipherJob 1 tag fi s)

/-- CCM_OPEN. -/
def execCcmOpen (tag : Nat) (fi : Option Nat) (s : State) : Host.Outcome State Fault Refusal := done (cipherJob 2 tag fi s)

/-- CTR. -/
def execCtr (tag : Nat) (fi : Option Nat) (s : State) : Host.Outcome State Fault Refusal := done (cipherJob 3 tag fi s)

/-- CBC_ENC. -/
def execCbcEnc (tag : Nat) (fi : Option Nat) (s : State) : Host.Outcome State Fault Refusal := done (cipherJob 4 tag fi s)

/-- CBC_DEC. -/
def execCbcDec (tag : Nat) (fi : Option Nat) (s : State) : Host.Outcome State Fault Refusal := done (cipherJob 5 tag fi s)

/-- CMAC_GEN. -/
def execCmacGen (tag : Nat) (fi : Option Nat) (s : State) : Host.Outcome State Fault Refusal := done (cipherJob 6 tag fi s)

/-- CMAC_VER. -/
def execCmacVer (tag : Nat) (fi : Option Nat) (s : State) : Host.Outcome State Fault Refusal := done (cipherJob 7 tag fi s)

/-! ### Alarms -/

/-- ZEROIZE: alarm source 5 on the named slots (Table 13.9); `ns` is the erase's duration and `repeats` the slots whose
compare does not pass at once (R464). -/
def execZeroize (tag ns repeats : Nat) (s : State) : Host.Outcome State Fault Refusal :=
  done (match runningJob s tag 13 9 with
  | none => s
  | some j =>
    if strictRefused s then engineEnds j.id { status := .refusedPolicy } s
    else alarm 5 (j.desc.arg 0 % 2 ^ 24) true ns repeats (engineEnds j.id {} s))

/-- An alarm source of Table 13.6 can reach Quoin now. -/
def alarmCan (s : State) (source : Nat) : Bool :=
  match source with
  | 0 => true
  | 1 => true
  | 2 => s.lintel.mainOn && !(onEngine s 13).isEmpty
  | 3 => s.lintel.mainOn
  | 4 => isSealed s && s.clock.testEn
  | 5 => s.lintel.mainOn
  | 6 => s.lintel.mainOn
  | _ => false

/-- What a mismatch of the engine's own check stops, other than in a job's own command: the job in the engine, with QFLAGS
FI, and with FI_DETECT raised (R455). -/
def stopEngine (s : State) : State :=
  raise Src.fiDetect (modCipher (fun c => { c with fi := satInc c.fi })
    ((onEngine s 13).foldl (fun t j => engineEnds j.id { status := .refusedPolicy, qflags := 2 } t) s))

/-- ALARM: an alarm of a source of Table 13.6 reaches Quoin (R463). FAULT_INJECT is the mismatch of R455, met in a slot's load
or in another piece of work that has no command of its own. -/
def execAlarm (source ns repeats : Nat) (s : State) : Host.Outcome State Fault Refusal :=
  done (if !alarmCan s source then s
  else if source = 3 then abortLoads (alarm 3 (2 ^ 24 - 1) true ns repeats (stopEngine s))
  else alarm source (2 ^ 24 - 1) true ns repeats s)

/-- ERASE_REPEAT: the erase pulse is repeated on the slots whose compare failed; `failing` still fail (R464). The erase has
lasted `ns` when none does, and ERASE_NS, of 12 bits, saturates (log 10, DESIGN CHOICE). -/
def execEraseRepeat (failing ns : Nat) (s : State) : Host.Outcome State Fault Refusal :=
  done (if s.keys.repeatMask = 0 then s
  else modKeys (fun k =>
    { k with
      repeatMask := k.repeatMask &&& failing
      eraseNs := if k.repeatMask &&& failing = 0 then min ns 4095 else k.eraseNs }) s)

/-! ### The random source -/

/-- Raw bits of the source through its health tests: whether they passed (R468, R471). -/
def takeRaw (raw : List Bool) (s : State) : State × Bool :=
  let (e, failed) := feedBits (items s).keys raw s.entropy
  let s1 := modEntropy (fun _ => e) s
  match failed with
  | some rct => (healthFail rct s1, false)
  | none => (s1, true)

/-- The source runs: it is on and not fenced, and the FIFO is not full or the expander is due (R468). -/
def sourceRuns (s : State) : Bool :=
  s.entropy.running && !(winOf s .entropy).fenced && s.lintel.mainOn
  && (decide (s.entropy.fifo.length ≤ 48) || maskDue s)

/-- A RANDOM job takes what the FIFO holds, and ends when it has all its bytes (R472). -/
def serveRandom (j : Job) (s : State) : State :=
  let n := j.desc.arg 0 % 1024
  let k := min (n - j.payload.length) s.entropy.fifo.length
  match takeRandom k s with
  | none => s
  | some (bs, t) =>
    let got := j.payload ++ bs
    if got.length = n then engineEnds j.id { out := got } t
    else modJob j.id (fun x => { x with payload := got }) t

/-- RANDOM: a job takes whole bytes from the random FIFO, and waits where it is empty (R472, Table 13.9). -/
def randomJob (j : Job) (s : State) : State :=
  let n := j.desc.arg 0 % 1024
  if n = 0 || 512 < n || j.outs.isEmpty then engineEnds j.id { status := .refusedPolicy } s
  else if j.mark then s
  else serveRandom { j with mark := true } (modJob j.id (fun x => { x with mark := true }) s)

/-- RANDOM: the running job of the tag has its effect. -/
def execRandom (tag : Nat) (s : State) : Host.Outcome State Fault Refusal :=
  done (onJob tag 14 1 randomJob s)

/-- RAW_SAMPLES: raw bits before any test, on an unsealed chip only (Table 13.9). The tests watch them all the same. -/
def rawSamplesJob (raw : List Bool) (j : Job) (s : State) : State :=
  let n := j.desc.arg 0 % 8192
  if isSealed s || n = 0 || 4096 < n || j.outs.isEmpty || raw.length != n then
    engineEnds j.id { status := .refusedPolicy } s
  else
    let bytes := (List.range (ceilDiv n 8)).map fun i => (packBits 8 ((raw.drop (8 * i)).take 8) : Byte)
    engineEnds j.id { out := bytes } (takeRaw raw s).1

/-- RAW_SAMPLES: the running job of the tag has its effect. -/
def execRawSamples (tag : Nat) (raw : List Bool) (s : State) : Host.Outcome State Fault Refusal :=
  done (onJob tag 14 2 (rawSamplesJob raw) s)

/-- ENTROPY_WAIT_TIMEOUT: a consumer has waited 2 ms, and no block has arrived since (R472): a RANDOM job that has not all its
bytes, an AUTH_BEGIN, or a CONN_REQ, which has no job: the node looks for a beacon again (log 16, DEDUCED). -/
def execEntropyWaitTimeout (w : EntropyWaiter) (s : State) : Host.Outcome State Fault Refusal :=
  let refused : JobResult := { status := .refusedPolicy, retryS := 1, qflags := 4 }
  done (match w with
  | .job tag =>
    match runningJob s tag 14 1 with
    | some j =>
      if j.mark && passed s (max j.startedAt s.entropy.blockAt) (msTicks 2) then engineEnds j.id refused s else s
    | none => s
  | .port i =>
    match (nth s.roles.sess i).want with
    | some x =>
      if i < 4 && passed s x.since (msTicks 2) then
        let s1 := modRoles (fun r => { r with authLast := Status.refusedPolicy.code })
          (modSess i (fun y => { y with want := none }) s)
        match x.job with
        | some id => engineEnds id refused s1
        | none => s1
      else s
    | none => s
  | .link =>
    match s.link.reqWait with
    | some t =>
      if passed s (max t s.entropy.blockAt) (msTicks 2) then
        modLink (fun l => { l with st := if l.st = 2 then 1 else l.st, best := none, join := none, reqWait := none }) s
      else s
    | none => s)

/-- CONDITIONED_BLOCK: COND_RAW raw bits pass the tests and give a block for the mask expander or the random FIFO
(R470, R473); the jobs that wait for the FIFO are served. -/
def execConditionedBlock (raw : List Bool) (s : State) : Host.Outcome State Fault Refusal :=
  done (if !sourceRuns s || raw.length != (items s).keys.condRaw then s
  else
    let (s1, ok) := takeRaw raw s
    if !ok then s1
    else
      let block := conditionBlock s raw
      let s2 := modEntropy (fun e => { e with condBlocks := e.condBlocks + 1 }) s1
      if maskDue s2 then seedMask block s2
      else if !s2.entropy.startupOk then s2
      else
        let s3 := modEntropy (fun e => { e with fifo := e.fifo ++ block, blockAt := s.time.ticks }) s2
        (s3.fabric.jobs.filter fun j => j.desc.engine == 14 && j.desc.opcode == 1 && j.phase == .running
          && j.mark).foldl (fun t j => serveRandom j t) (serveAuth s3))

/-- STARTUP_TEST_PASS: 1024 start-up bits pass both tests and are discarded (R469). -/
def execStartupTestPass (raw : List Bool) (s : State) : Host.Outcome State Fault Refusal :=
  done (if !s.entropy.running || (winOf s .entropy).fenced || !s.lintel.mainOn
      || raw.length != 1024 then s
  else
    let (s1, ok) := takeRaw raw s
    if ok then modEntropy (fun e => { e with startupOk := true }) s1 else s1)

/-- HEALTH_TEST_FAIL: raw bits on which a test reaches its cutoff (R468, R471). -/
def execHealthTestFail (raw : List Bool) (s : State) : Host.Outcome State Fault Refusal :=
  done (if sourceRuns s then (takeRaw raw s).1 else s)

/-- MASK_STALE: the expander has output 16 × RESEED_BITS bits without a reseed (R473). -/
def execMaskStale (s : State) : Host.Outcome State Fault Refusal :=
  done (if s.lintel.mainOn then noteStale s else s)

/-! ### Registers -/

/-- A word of CIPHER (Table 13.10). -/
def readCipher (s : State) (off : Nat) : Nat :=
  let c := s.cipher
  match off with
  | 0x000 =>
    let cur := (onEngine s 13).find? fun j => decide (j.desc.opcode ≤ 7)
    b2n (!(onEngine s 13).isEmpty || s.keys.slots.toList.any (·.loading)) + (match cur with
      | some j => let n := j.desc.arg 0 % 32
        2 * cipherMode s n (bits 5 5 (j.desc.arg 0)) + 4 * n
      | none => 0) + 128 * (items s).keys.cipherFloor
  | 0x004 => c.blocks.toNat
  | 0x008 => c.jobsS.toNat + c.jobsM.toNat * 2 ^ 16
  | 0x00C => c.tagFail.toNat + c.fi.toNat * 2 ^ 16
  | 0x010 => b2n c.mask.seeded + 2 * b2n c.mask.stale + satNat 16 (c.mask.bits / 1024) * 2 ^ 16
  | 0x014 => c.lastCycles
  | _ => 0

/-- The DT of the first alarm in the interval of ALARM_CAUSE (R465). -/
def alarmDt (s : State) : Nat :=
  match s.keys.dtOld, s.keys.dtNew with
  | some d, _ => d.toNat
  | none, some d => d.toNat
  | none, none => 0

/-- A word of KEYSLOT (Table 13.11). -/
def readKeyslot (s : State) (off : Nat) : Nat :=
  let k := s.keys
  match off with
  | 0x000 => slotFull s
  | 0x004 => slotErased s
  | 0x008 => k.causeOld ||| k.causeNew
  | 0x00C => alarmDt s % 2 ^ 32
  | 0x010 => alarmDt s / 2 ^ 32
  | 0x014 => k.eraseNs
  | 0x018 => k.alarms.toNat
  | 0x01C => k.loads.toNat + k.loadFails.toNat * 2 ^ 16
  | _ =>
    if 0x100 ≤ off && off < 0x280 then
      let x := nth k.slots ((off - 0x100) / 0x10)
      match (off - 0x100) % 0x10 with
      | 0x0 => x.attr.word
      | 0x4 => b2n x.full + 2 * b2n x.erased + 4 * b2n x.loading + 8 * b2n x.checkFail + x.gen.toNat * 2 ^ 16
      | _ => 0
    else 0

/-- A word of ENTROPY (Table 13.12). -/
def readEntropy (s : State) (off : Nat) : Nat :=
  let e := s.entropy
  match off with
  | 0x000 => b2n (sourceRuns s) + 2 * b2n e.startupOk + 4 * b2n (randomAvailable s) + 8 * b2n e.dead
      + 16 * ceilDiv e.fifo.length 16
  | 0x004 => e.raw.toNat
  | 0x008 => e.rct.toNat + e.apt.toNat * 2 ^ 16
  | 0x00C => e.worstRun + e.worstApt * 2 ^ 16
  | 0x010 => e.restarts.toNat
  | 0x014 => e.condBlocks.toNat
  | _ => 0

end Sys2Proof.Machine
end

