-- ==== Sys2Proof/Machine/Radio.lean ====
section
/-! DEFINITION. The radio (chapter 11): contexts and activities, the synthesiser, listen-before-talk, transmissions and
the antenna watch, receptions, windows and the van-wake sniff. -/

namespace Sys2Proof.Machine

/-! ### Small operations -/

/-- RF_STATUS.ACTIVITY (Table 11.8). -/
def activityCode (s : State) : Nat :=
  match s.radio.act.kind with
  | .none => 0
  | k =>
    if s.radio.act.phase != .onAir then 1
    else match k with
      | .slotRx => 3 | .window => 4 | .sniff => 5 | .test => 6 | _ => 2

/-- The profile in force: 0 P, 1 F (Table 11.4). -/
def profileNow (s : State) : Nat := watchProfile s.radio.watch

/-- Microseconds of the link timer (D12), 32 bits; it starts with the main domain. -/
def linkNow (s : State) : Nat := bootTicks s * 15625 / 512 % 2 ^ 32

/-- The tick at or after an instant of the link timer. -/
def tickOfLink (s : State) (us : Nat) : Nat :=
  let d := signed 32 (us + 2 ^ 32 - linkNow s)
  if d < 0 then s.time.ticks - (d.natAbs * 512 / 15625) else s.time.ticks + ceilDiv (d.natAbs * 512) 15625

/-- Ticks of a number of microseconds, rounded up. -/
def usTicks (n : Nat) : Nat := ceilDiv (n * 512) 15625

/-- A delay of a uniform random number of milliseconds from `lo` to `hi`, in ticks (R472). -/
def drawMs (lo hi : Nat) (s : State) : Nat × State :=
  let d := drawUpTo (hi - lo) s
  (msTicks (lo + d.1), d.2)

/-- The band entry that a transmission's carrier lies in, by its kind (R377, R391). -/
def actBand (s : State) (a : Activity) : Option Band :=
  let r := (items s).radio
  match a.kind with
  | .slotTx =>
    let p := at0 (items s).link.plans (b2n s.link.planF)
    let ch := match a.job.bind (fun id => s.fabric.jobs.find? (fun j => j.id == id)) with
      | some j => j.desc.arg 2 % 64
      | none => 0
    r.bandOf ((p.ch0Khz + ch * p.spacingKhz) * 1000)
  | .test =>
    let khz := match a.job.bind (fun id => s.fabric.jobs.find? (fun j => j.id == id)) with
      | some j => j.desc.arg 0
      | none => 0
    r.bandOf (khz * 1000)
  | _ => r.bandOf (at0 r.freqHz (b2n a.profF))

/-- A power held under the band entry's and the port's maxima (R378). -/
def cappedPower (s : State) (band : Option Band) (port : Nat) (dbm : Int) : Int :=
  let p := at0 (items s).radio.txpMax port
  match band with
  | some b => min dbm (min b.txpMax p)
  | none => min dbm p

/-! ### Contexts -/

/-- A job put into a free context (R375). -/
def enterCtx (c : RadioCtx) (s : State) : State :=
  if s.radio.ctxs.length < 4 then modRadio (fun r => { r with ctxs := r.ctxs ++ [c] }) s else s

/-- RESULT of a SEND (Table 11.7): profile F, retried, a window opened, a command accepted. -/
def RadioCtx.result (c : RadioCtx) : Nat :=
  if c.kind = .send then b2n c.profF + 2 * b2n c.retried + 4 * b2n (c.windows != 0) + 8 * b2n c.accepted else 0

/-- A context's job ends without success. -/
def failCtx (job : Nat) (st : Status) (q : Nat) (s : State) : State :=
  match ctxOf s job with
  | none => s
  | some c => leaveCtx job { status := st, qflags := q + 2 * b2n c.interfered, result := c.result } s

/-- A SEND whose windows have ended: DONE, or DONE_FLAGGED where a flag stands (R19, Table 11.7). -/
def finishSend (job : Nat) (s : State) : State :=
  match ctxOf s job with
  | none => s
  | some c =>
    let q := 2 * b2n c.interfered
    leaveCtx job { status := if q = 0 then .done else .doneFlagged, qflags := q, result := c.result } s

/-! ### Activities -/

/-- An activity's start-up begins: the antenna switch takes the port's code (R379). -/
def startAct (a : Activity) (s : State) : State :=
  modRadio (fun r =>
    { r with
      act := { a with phase := .startUp, since := s.time.ticks }
      antSw := at0 (items s).radio.antMap a.port }) s

/-- An ending other than SYNTH_TIMEOUT breaks the run of SYNTH_PERSIST. -/
def synthGood (s : State) : State := modRadio (fun r => { r with synthRun := 0 }) s

/-- A SYNTH_TIMEOUT ending counted; eight in a row raise SYNTH_PERSIST (Table 11.9). -/
def synthBad (s : State) : State :=
  let n := s.radio.synthRun + 1
  let s1 := modRadio (fun r =>
    { r with synthTimeouts := satInc r.synthTimeouts, synthRun := if n = 8 then 0 else n }) s
  raiseIf (n == 8) Src.synthPersist s1

/-- A slot job ends SLOT_MISSED (R386): no SYNTH_TIMEOUT ending. -/
def slotMissed (job : Nat) (s : State) : State :=
  leaveCtx job { status := .slotMissed } (modRadio (fun r => { r with slotMissed := satInc r.slotMissed, synthRun := 0 }) s)

/-- The next jitter point after a failed start of a SEND (R387): 50 ms plus a random part. -/
def retrySend (job : Nat) (s : State) : State :=
  let d := drawMs 0 (items s).radio.drvJitterMs s
  modCtx job (fun c =>
    { c with retried := true, started := false, at_ := some (s.time.ticks + msTicks 50 + d.1) }) d.2

/-- The job of an activity that ended without success: a SEND's telegram is retried once (R387); its window or answer ends
the SEND (R94, R385). -/
def failAct (a : Activity) (st : Status) (q : Nat) (s : State) : State :=
  match a.kind, a.job with
  | .send, some id =>
    match ctxOf s id with
    | some c => if c.retried then failCtx id st q s else retrySend id s
    | none => s
  | _, some id => failCtx id st q s
  | _, none => s

/-! ### Arbitration (R376) -/

/-- The order of R376, highest first. -/
def ActKind.rank : ActKind → Nat
  | .slotTx => 0 | .slotRx => 0 | .window => 1 | .answer => 1 | .send => 2 | .probe => 2 | .sniff => 3 | _ => 4

/-- The ticks of a start-up from the stopped crystal (Table 11.5). -/
def startTicks : Nat := usTicks 498

/-- The estimated length of a template's telegram, start-up included, in ticks. -/
def sendLen (s : State) (t f : Nat) : Nat :=
  let r := (items s).radio
  usTicks (500 + at0 (if f = 1 then r.estAirF else r.estAirP) t)

/-- Intervals in which higher activities that have not started hold the air: contexts, and their windows and answers, which
rank with the windows (R376; log 15, DEDUCED). -/
def claims (s : State) (rank : Nat) : List (Nat × Nat) :=
  s.radio.ctxs.flatMap fun c =>
    (if !c.started && decide (c.kind.rank < rank) then (c.at_.map fun t => (t, t + c.len)).toList else [])
    ++ (if 1 < rank then
          (c.winAt.map fun t => (t - startTicks, t + msTicks (items s).radio.rxwLenMs)).toList
          ++ (c.answerAt.map fun t => (t, t + sendLen s c.template (b2n c.profF))).toList
        else [])

/-- The end of the first claim that an activity from now to `len` ticks later would overlap. -/
def clash (s : State) (rank len : Nat) : Option Nat :=
  ((claims s rank).find? fun c => decide (c.1 < s.time.ticks + len) && decide (s.time.ticks < c.2)).map (·.2)

/-- The tick at which the air is free for an activity of a rank, none where it is free now. -/
def airTaken (s : State) (rank len : Nat) : Option Nat :=
  if s.radio.act.kind != .none then some (max s.radio.act.until_ s.time.ticks) else clash s rank len

/-- VBAT's latest measurement is below TX_MIN (R80). -/
def txLow (s : State) : Bool := decide (s.lintel.vbatMv < (items s).power.txMin)

/-! ### TELEGRAM_DUE, WMB_SEND and the start of activities -/

/-- TELEGRAM_DUE (R394): a telegram falls due every PERIOD_S of the active profile; its SEND draws its jitter point. -/
def execTelegramDue (s : State) : Host.Outcome State Fault Refusal :=
  done (let r := (items s).radio
    let p := secTicks (at0 r.periodS (profileNow s))
    if radioUp s && counted s s.radio.dueAt p then
      modRadio (fun x => { x with dueAt := s.radio.dueAt + p, wasDue := true }) s
    else s)

/-- The jitter point of a SEND that draws `u` (R394, R402): for a wake's response the point its wake drew, else that long
after the due instant of its period, or after its dispatch where that has passed or nothing has been due (log 15,
DEDUCED). -/
def jitterPoint (s : State) (wake : Bool) (u : Nat) : Nat :=
  match wake, s.radio.wakePoint with
  | true, some t => t
  | _, _ =>
    let due := s.time.ticks - (s.time.d04 - s.radio.dueAt)
    if s.radio.wasDue && decide (s.time.ticks ≤ due + u) then due + u else s.time.ticks + u

/-- WMB_SEND (R375, R394): the dispatched job waits in a context of its own for its jitter point, with the template of its
own chain. -/
def wmbSendJob (j : Job) (s : State) : State :=
  if (ctxOf s j.id).isSome then s
  else
    let t := j.tpl.getD s.radio.builtTpl
    let d := drawMs 0 (items s).radio.drvJitterMs s
    enterCtx { job := j.id, kind := .send, at_ := some (jitterPoint s j.mark d.1), len := sendLen s t (profileNow s)
               template := t, slot := (at0 (items s).radio.templates t).slot, wake := j.mark }
      (modRadio (fun r => { r with wakePoint := if j.mark then none else r.wakePoint }) d.2)

/-- WMB_SEND: the running job of the tag has its effect. -/
def execWmbSend (tag : Nat) (s : State) : Host.Outcome State Fault Refusal :=
  done (onJob tag 11 2 wmbSendJob s)

/-- A start in a context that finds the air taken: a SEND moves behind the winner by a random 5 to 20 ms, a slot
waits for the activity to end (R376). -/
def deferStart (c : RadioCtx) (free : Nat) (s : State) : State :=
  if c.kind.rank = 0 then s
  else
    let d := drawMs 5 20 s
    modCtx c.job (fun x => { x with at_ := some (free + d.1) }) d.2

/-- The MPDU of a SLOT_TX: what the link gives, or the job's input. -/
def slotFrame (s : State) (j : Job) : List Byte := if j.payload.isEmpty then inputBytes s j 0 else j.payload

/-- The activity of a context and its job. -/
def ctxActivity (s : State) (c : RadioCtx) (j : Job) : Activity :=
  let r := (items s).radio
  match c.kind with
  | .slotTx =>
    let port := (at0 (items s).link.plans (b2n s.link.planF)).port
    { kind := .slotTx, job := some j.id, port := port, txp := nth s.radio.txp port, until_ := s.time.ticks + c.len
      bits := gyaleBits (bits 7 6 (j.desc.arg 2)) (slotFrame s j) }
  | .slotRx =>
    let port := (at0 (items s).link.plans (b2n s.link.planF)).port
    { kind := .slotRx, job := some j.id, port := port, until_ := s.time.ticks + c.len }
  | .test =>
    { kind := .test, job := some j.id, port := j.desc.arg 1 / 32 % 2
      txp := (j.desc.arg 1 % 32 : Nat) - 10, until_ := s.time.ticks + c.len }
  | .probe =>
    { kind := .probe, job := some j.id, port := r.portOf 0, txp := r.drivePower 0, until_ := s.time.ticks + c.len }
  | k =>
    let f := profileNow s
    { kind := k, job := some j.id, port := r.portOf f, profF := f == 1, txp := r.drivePower s.radio.watch
      until_ := s.time.ticks + c.len }

/-- The microseconds that a start-up takes now (Table 11.5). -/
def startUs (s : State) : Nat := if s.lintel.xoOn then 148 else 498

/-- A slot job that has not begun can no longer meet its instant, plus its guard for a SLOT_TX, with the start-up it still
needs (R386). -/
def slotLate (s : State) (j : Job) : Bool :=
  let guard : Nat := if j.desc.opcode = 3 then j.desc.arg 1 % 2 ^ 16 else 0
  j.desc.engine == 11 && (j.desc.opcode == 3 || j.desc.opcode == 4)
    && decide ((guard : Int) < signed 32 (linkNow s + startUs s + 2 ^ 32 - j.desc.arg 0))

/-- A context's instant has come: the start-up begins, unless the air is taken (R376), a transmission is held (R81) or
VBAT is too low for it (R80). -/
def beginCtx (retry : Bool) (tag : Nat) (s : State) : State :=
  match jobByTag s tag with
  | none => s
  | some j =>
    match ctxOf s j.id with
    | none => s
    | some c =>
      let ready := match c.at_ with
        | some t => decide (t ≤ s.time.ticks)
        | none => false
      if !(radioUp s && ready && !c.started && c.retried == retry && j.phase == .running) then s
      else if slotLate s j then slotMissed j.id s
      else match airTaken s c.kind.rank c.len with
        | some t => deferStart c t s
        | none =>
          if c.kind.transmits && txLow s then
            failCtx j.id .brownout 0 (modCtx j.id (fun x => { x with profF := c.kind == .send && profileNow s == 1 }) s)
          else if c.kind.transmits && s.lintel.txHeld then s
          else
            let a := ctxActivity s c j
            let a := { a with txp := cappedPower s (actBand s a) a.port a.txp }
            startAct a (modCtx j.id (fun x => { x with started := true, profF := a.profF }) s)

/-- JITTER_POINT: the instant of a job in a context falls due (R376, R394). -/
def execJitterPoint (tag : Nat) (s : State) : Host.Outcome State Fault Refusal := done (beginCtx false tag s)

/-- SEND_RETRY: the second jitter point of a failed SEND falls due (R387). -/
def execSendRetry (tag : Nat) (s : State) : Host.Outcome State Fault Refusal := done (beginCtx true tag s)

/-! ### The synthesiser and listen-before-talk -/

/-- The guard of a slot job in µs: ARG1 of a SLOT_TX, none of a SLOT_RX (R386). -/
def slotGuard (s : State) (a : Activity) : Nat :=
  match a.kind, a.job.bind (fun id => s.fabric.jobs.find? (fun j => j.id == id)) with
  | .slotTx, some j => j.desc.arg 1 % 2 ^ 16
  | _, _ => 0

/-- A slot job that begins `lateUs` after its instant misses it (R386). -/
def tooLate (s : State) (a : Activity) (lateUs : Nat) : Bool :=
  (a.kind == .slotTx || a.kind == .slotRx) && decide (slotGuard s a < lateUs)

/-- The transmission begins, or its slot is missed; a page program in progress keeps it waiting, a sector erase is
suspended for it (R77, R78). -/
def beginTx (lateUs : Nat) (s : State) : State :=
  let a := s.radio.act
  if tooLate s a lateUs then
    match a.job with
    | some id => slotMissed id (endAct s)
    | none => endAct s
  else if s.lintel.peak = .program then modAct (fun a => { a with phase := .startUp }) s
  else
    modLintel (fun l => { l with eraseSuspended := l.peak == .erase, peak := .tx })
      (modAct (fun a => { a with phase := .onAir, since := s.time.ticks }) s)

/-- Lock comes too late for the activity in start-up (R94, R385): the crystal after 1 ms, or lock after 400 µs of calibration
and acquisition; `xoUs` is the crystal's start time. -/
def lockOverdue (s : State) (xoUs : Nat) : Bool :=
  !s.radio.locked && (decide (1000 < xoUs) || passed s s.radio.act.since (usTicks (xoUs + 400) + 1))

/-- SYNTH_LOCK (Table 11.5, R384, R391): lock is detected; `xo` is the crystal's start time in µs where it had to start,
with the offset of the link timer against D04 measured at that wake in ppm (R92), `lateUs` how long after the activity's instant the first symbol or the listening would begin. -/
def execSynthLock (xo : Option (Nat × Int)) (lateUs : Nat) (s : State) : Host.Outcome State Fault Refusal :=
  done (if !inPhase s .startUp || lockOverdue s ((xo.map (·.1)).getD 0) then s
    else
      let s1 := modLintel (fun l => { l with xoOn := true }) (modRadio (fun r => { r with locked := true }) s)
      let s2 := match xo with
        | some (us, ppm) => modClock (fun c =>
            { c with xoOk := true, xoStartUs := satNat 16 us, linkPpm := satInt 16 ppm }) s1
        | none => s1
      let a := s2.radio.act
      if a.kind.transmits then
        match actBand s2 a with
        | some b =>
          if b.lbtEn = 1 && a.tries = 0 then modAct (fun x => { x with phase := .lbt, since := s.time.ticks }) s2
          else beginTx lateUs s2
        | none => beginTx lateUs s2
      else if tooLate s2 a lateUs then
        (match a.job with
         | some id => slotMissed id (endAct s2)
         | none => endAct s2)
      else modAct (fun x => { x with phase := .onAir, since := s.time.ticks }) s2)

/-- The activity ends SYNTH_TIMEOUT; a slot missed in the same cycle ends SLOT_MISSED (R384 to R386). -/
def synthFail (lateUs : Nat) (s : State) : State :=
  let a := s.radio.act
  let s1 := synthBad (endAct s)
  if tooLate s a lateUs then
    match a.job with
    | some id => slotMissed id s1
    | none => s1
  else failAct a .synthTimeout 0 s1

/-- SYNTH_TIMEOUT (R385). -/
def execSynthTimeout (lateUs : Nat) (s : State) : Host.Outcome State Fault Refusal :=
  done (if inPhase s .startUp && !s.radio.locked && passed s s.radio.act.since (400 * 512 / 15625) then synthFail lateUs s
    else s)

/-- XO39_START_TIMEOUT (R94): the crystal does not start within 1 ms. -/
def execXo39StartTimeout (lateUs : Nat) (s : State) : Host.Outcome State Fault Refusal :=
  done (if inPhase s .startUp && !s.lintel.xoOn && passed s s.radio.act.since (1000 * 512 / 15625) then
      synthFail lateUs (raise Src.xo39Fail (modClock (fun c =>
        { c with xoOk := false, monFail := setBit c.monFail 8 true }) s))
    else s)

/-- Lock lost in a frame: the activity ends SYNTH_TIMEOUT (R384); only a failed start-up or listen is retried (R387). -/
def frameLost (s : State) : State :=
  let a := s.radio.act
  let s1 := synthBad (endAct s)
  match a.kind, a.job with
  | _, some id => failCtx id .synthTimeout 0 s1
  | _, none => s1

/-- LOCK_LOST_IN_FRAME (R384). -/
def execLockLostInFrame (s : State) : Host.Outcome State Fault Refusal :=
  done (if inPhase s .onAir then frameLost s else s)

/-- XO39_RUN_ON_EXPIRY: 2 ms after the last activity the crystal stops (Table 11.5). -/
def execXo39RunOnExpiry (s : State) : Host.Outcome State Fault Refusal :=
  done (if s.radio.act.kind == .none && s.lintel.xoOn && passed s s.lintel.xoIdleSince (msTicks 2) then
      modLintel (fun l => { l with xoOn := false }) s
    else s)

/-- LBT_LISTEN_END (R391): LBT_US have passed; the channel was busy where the highest RSSI sample, in 0.5 dBm, reached
LBT_DBM. -/
def execLbtListenEnd (rssi : Int) (lateUs : Nat) (s : State) : Host.Outcome State Fault Refusal :=
  done (if !inPhase s .lbt then s
    else
      let a := s.radio.act
      let n := a.tries + 1
      let s1 := modAct (fun x => { x with tries := n }) s
      match actBand s a with
      | none => s
      | some b =>
        if !passed s a.since (b.lbtUs * 512 / 15625) then s
        else if rssi < 2 * b.lbtDbm then beginTx lateUs s1
        else if tooLate s a lateUs then
          (match a.job with
           | some id => slotMissed id (endAct s1)
           | none => endAct s1)
        else if b.lbtTries ≤ n then
          let s2 := modRadio (fun r => { r with lbtBusy := satInc r.lbtBusy }) (synthGood (endAct s1))
          (match a.kind, a.job with
           | .slotTx, some id => slotMissed id s2
           | _, _ => failAct a .refusedPolicy 1 s2)
        else
          let d := drawMs 1 b.lbtBackoffMs s1
          modAct (fun x => { x with phase := .backoff, since := s.time.ticks + d.1 }) d.2)

/-- LBT_BACKOFF_END (R391): the random wait ends and the chip listens again. -/
def execLbtBackoffEnd (s : State) : Host.Outcome State Fault Refusal :=
  done (if inPhase s .backoff && passed s s.radio.act.since 0 then
      modAct (fun x => { x with phase := .lbt, since := s.time.ticks }) s
    else s)

/-! ### The end of a transmission and the antenna watch -/

/-- The runs after one evaluation of R381. -/
def watchRuns (r : RadioItems) (rl bad good : Nat) : Nat × Nat :=
  if rl < r.rlBad then (min (bad + 1) 255, 0)
  else if r.rlGood ≤ rl then (0, min (good + 1) 255)
  else (0, 0)

/-- What the watch wants (R381). -/
def watchWant (r : RadioItems) (st bad good : Nat) : Nat :=
  if r.watchN ≤ bad then min (st + 1) 2 else if r.watchN ≤ good then 0 else st

/-- One evaluation of the antenna watch (R381, R382, R4). -/
def watchEval (rl : Nat) (s : State) : State :=
  let r := (items s).radio
  let st := s.radio.watch
  let runs := watchRuns r rl s.radio.bad s.radio.good
  let want := watchWant r st runs.1 runs.2
  let new := clampN want r.watchMin r.watchMax
  let run := if want ≠ new then s.radio.runWatch + 1 else 0
  let s1 := modRadio (fun x =>
    { x with
      watch := new
      bad := if new ≠ st then 0 else runs.1
      good := if new ≠ st then 0 else runs.2
      runWatch := run
      clampedWatch := decide (8 ≤ run)
      clampsWatch := if run = 8 then satInc x.clampsWatch else x.clampsWatch
      watchChanges := if new ≠ st then satInc x.watchChanges else x.watchChanges
      dueAt := if watchProfile new ≠ watchProfile st then s.time.d04 else x.dueAt
      probeAt := if new = 2 && st ≠ 2 then s.time.ticks else x.probeAt }) s
  let s2 := raiseIf (decide (st = 0) && decide (0 < new)) Src.antMismatch s1
  setLevel Src.antFallback (new == 2) s2

/-- The watch takes a measured transmission: telegrams under P in states 0 and 1, probes in state 2 (R381). -/
def watchTakes (s : State) (a : Activity) : Bool :=
  decide (0 ≤ a.txp) && (a.kind == .probe || (s.radio.watch < 2 && !a.profF && (a.kind == .send || a.kind == .answer)))

/-- A telegram of a SEND has gone out: its receive window, or the job's end; one wake allows four windows (R398,
R400). -/
def telegramOut (job : Nat) (answer : Bool) (s : State) : State :=
  match ctxOf s job with
  | none => s
  | some c =>
    let r := (items s).radio
    let n := decide (3 ≤ at0 r.mode (b2n c.profF)) && (at0 r.templates c.template).rxwEn == 1
    if (n || c.wake) && (!answer || !c.wake || decide (c.windows < 4)) then
      modCtx job (fun x => { x with winAt := some (s.time.ticks + msTicks r.rxwDelayMs), answerAt := none }) s
    else finishSend job s

/-- TX_END (R381, R394, Table 11.9): a transmission ends after `airUs`, with return loss `rl` and lowest
VBAT `minMv` (MIN_LOADED of Table 2.10); `low` says that the forward power was 4 dB below its setting. -/
def execTxEnd (rl : Nat) (low : Bool) (airUs minMv : Nat) (s : State) : Host.Outcome State Fault Refusal :=
  done (let a := s.radio.act
    if !(inPhase s .onAir && a.kind.transmits) then s
    else
      let measured := decide (0 ≤ a.txp)
      let n := if low then s.radio.paRun + 1 else 0
      let s1 := modRadio (fun r =>
        { r with
          lastAir := satNat 24 airUs, txCount := r.txCount + 1, paRun := if n = 4 then 0 else n
          rlLast := if measured then min rl 63 else r.rlLast }) (modLintel (fun l => { l with minLoaded := minMv }) (synthGood (endAct s)))
      let s2 := raiseIf (n == 4) Src.paLow s1
      let s3 := if watchTakes s a then watchEval (min rl 63) s2 else s2
      match a.kind, a.job with
      | .send, some id => telegramOut id false s3
      | .answer, some id => telegramOut id true s3
      | .probe, some id => leaveCtx id { status := .done, result := min rl 63 } s3
      | .slotTx, some id => leaveCtx id { status := .done, result := airUs % 2 ^ 20 } s3
      | _, some id => leaveCtx id { status := .done } s3
      | _, none => s3)

/-- TX_BROWNOUT (R81, R82): VBAT stays below TX_MIN for more than 20 µs in a transmission. -/
def execTxBrownout (mv : Nat) (s : State) : Host.Outcome State Fault Refusal :=
  done (let a := s.radio.act
    if !(inPhase s .onAir && a.kind.transmits && decide (mv < (items s).power.txMin)) then s
    else
      let s1 := modLintel (fun l =>
        { l with txHeld := true, vbatMv := mv, minLoaded := mv })
        (synthGood (endAct s))
      match a.job with
      | some id => failCtx id .brownout 0 s1
      | none => s1)

/-- WATCH_PROBE_DUE (Table 11.4): in state 2 a probe falls due every PROBE_MIN minutes; a recipe submits it. -/
def execWatchProbeDue (s : State) : Host.Outcome State Fault Refusal :=
  done (let p := secTicks (60 * (items s).radio.probeMin)
    if radioUp s && s.radio.watch == 2 && passed s s.radio.probeAt p then
      modRadio (fun r => { r with probeAt := r.probeAt + p }) s
    else s)

/-- RF_TEST (Table 11.7): an unmodulated carrier inside a band entry of its port. -/
def rfTestJob (j : Job) (s : State) : State :=
  let ok := match (items s).radio.bandOf (j.desc.arg 0 * 1000) with
    | some b => b.port == j.desc.arg 1 / 32 % 2
    | none => false
  if (ctxOf s j.id).isSome then s
  else if !jobActorOk j.desc j.actor then engineEnds j.id { status := .refusedRole } s
  else if !(ok && within 1 1000 (j.desc.arg 2)) then engineEnds j.id { status := .refusedPolicy } s
  else enterCtx { job := j.id, kind := .test, at_ := some s.time.ticks, len := msTicks (j.desc.arg 2) } s

/-- RF_TEST: the running job of the tag has its effect. -/
def execRfTest (tag : Nat) (s : State) : Host.Outcome State Fault Refusal :=
  done (onJob tag 11 6 rfTestJob s)

/-! ### Slots -/

/-- The carrier of a slot job's channel lies in a band entry of the plan's port (R377). -/
def slotBandOk (s : State) (j : Job) : Bool :=
  let p := at0 (items s).link.plans (b2n s.link.planF)
  match (items s).radio.bandOf ((p.ch0Khz + j.desc.arg 2 % 64 * p.spacingKhz) * 1000) with
  | some b => b.port == p.port
  | none => false

/-- The tick at which a slot job's start-up begins: TX_LEAD_US before its instant. -/
def leadTick (s : State) (inst : Nat) : Nat :=
  let d := signed 32 (inst + 2 ^ 32 - (items s).radio.txLeadUs + 2 ^ 32 - linkNow s)
  if d < 0 then s.time.ticks - usTicks d.natAbs else s.time.ticks + d.natAbs * 512 / 15625

/-- A slot job put into a context for an air time or listening time, or ended SLOT_MISSED: where it can no longer meet its
instant (R386), and on a carrier that the chip may not use (R377; log 15, DEDUCED). -/
def slotJob (j : Job) (kind : ActKind) (us : Nat) (s : State) : State :=
  if slotLate s j || !slotBandOk s j then slotMissed j.id s
  else enterCtx { job := j.id, kind := kind, at_ := some (leadTick s (j.desc.arg 0))
                  len := usTicks ((items s).radio.txLeadUs + us) } s

/-- SLOT_TX (R386): the job waits for its instant less TX_LEAD_US, and has missed its slot as soon as the start-up still
before it says so. -/
def slotTxJob (j : Job) (s : State) : State :=
  match ctxOf s j.id with
  | some c => if slotLate s j && !c.started then slotMissed j.id s else s
  | none => slotJob j .slotTx (gyaleAir (bits 6 6 (j.desc.arg 2)) (bits 7 7 (j.desc.arg 2)) (slotFrame s j).length) s

/-- SLOT_TX: the running job of the tag has its effect. -/
def execSlotTx (tag : Nat) (s : State) : Host.Outcome State Fault Refusal :=
  done (onJob tag 11 3 slotTxJob s)

/-- SLOT_RX (R386, R390): the job waits for its listening interval. Once that interval is over without a frame in the
air, it ends: SLOT_MISSED where the receiver never listened, CHECK_FAILED where only bad frames came. -/
def slotRxJob (j : Job) (s : State) : State :=
  let start := j.desc.arg 0
  let len : Nat := j.desc.arg 1 % 2 ^ 24
  let since := signed 32 (linkNow s + 2 ^ 32 - start)
  match ctxOf s j.id with
  | some c =>
    if !c.started then (if slotLate s j then slotMissed j.id s else s)
    else if s.radio.act.job == some j.id && inPhase s .onAir && !s.radio.act.sync && decide ((len : Int) ≤ since) then
      leaveCtx j.id { status := if s.radio.act.bad then .checkFailed else .done } (synthGood (endAct s))
    else s
  | none => slotJob j .slotRx len s

/-- SLOT_RX: the running job of the tag has its effect. -/
def execSlotRx (tag : Nat) (s : State) : Host.Outcome State Fault Refusal :=
  done (onJob tag 11 4 slotRxJob s)

/-! ### Receptions -/

/-- SYNC_WORD_DETECT (R389, R398): a synchronisation word is found; the watch for interference begins. -/
def execSyncWordDetect (s : State) : Host.Outcome State Fault Refusal :=
  done (let a := s.radio.act
    let open_ := a.kind != .window || (decide (a.opens ≤ s.time.ticks) && decide (s.time.ticks ≤ a.until_))
    if inPhase s .onAir && !a.kind.transmits && !a.sync && open_ then modAct (fun x => { x with sync := true }) s else s)

/-- A window ends: it was the SEND's last, unless an answer of its own is still to come. -/
def closeRxWindow (s : State) : State :=
  let s1 := synthGood (endAct s)
  match s.radio.act.job with
  | none => s1
  | some id => if (ctxOf s1 id).any (·.answerAt.isSome) then s1 else finishSend id s1

/-- The time of the listen in progress is over. -/
def listenOver (s : State) : Bool :=
  let a := s.radio.act
  match a.kind with
  | .window => decide (a.until_ ≤ s.time.ticks)
  | .sniff => decide (a.until_ ≤ s.time.ticks)
  | _ => false

/-- A window or sniff whose time ended during a frame closes with it. -/
def closeIfOver (s : State) : State :=
  if listenOver s then
    match s.radio.act.kind with
    | .window => closeRxWindow s
    | .sniff => synthGood (endAct s)
    | _ => s
  else s

/-- RX_INTERFERENCE_ABORT (R389): the frame is abandoned; nothing of it is delivered. -/
def execRxInterferenceAbort (s : State) : Host.Outcome State Fault Refusal :=
  done (let a := s.radio.act
    if !(inPhase s .onAir && !a.kind.transmits && a.sync) then s
    else
      let s1 := modAct (fun x => { x with sync := false })
        (modRadio (fun r => { r with interfered := satInc r.interfered }) s)
      match a.kind, a.job with
      | .slotRx, some id => leaveCtx id { status := .rxInterfered } (synthGood (endAct s1))
      | .window, some id => closeIfOver (modCtx id (fun c => { c with interfered := true }) s1)
      | _, _ => closeIfOver s1)

/-- The peer entry of an address under a slot. -/
def peerOf (s : State) (addr : List Byte) (slot : Nat) : Option Nat :=
  (List.range 8).find? fun i => let p := nth s.radio.peers i; p.used && p.addr == addr && p.slot == slot

/-- The first free peer entry. -/
def freePeer (s : State) : Option Nat := (List.range 8).find? fun i => !(nth s.radio.peers i).used

/-- A frame that passes R397 updates its peer entry and is recorded. -/
def takePeer (i : Nat) (x : WmbRx) (s : State) : State :=
  writeCounter 0x1B 1 x.slot x.counter x.peer
    (modRadio (fun r => { r with peers := put r.peers i ⟨true, padTo 8 0 x.peer, x.slot, x.counter⟩ }) s)

/-- The roles of a slot by its ROLE attribute (Table 13.3). -/
def slotRole (s : State) (slot : Nat) : Nat := (nth s.keys.slots slot).attr.role

/-- An accepted command frame: held for one frame time (R437), to be answered RSP_DELAY_MS later by the SEND whose window
took it (R400). -/
def holdCommand (job : Nat) (x : WmbRx) (s : State) : State :=
  modRadio (fun r =>
    { r with
      held := r.held ++ [{
        master := 5, role := slotRole s x.slot, slot := x.slot, msg := x.payload
        at_ := s.time.ticks, until_ := s.time.ticks + x.airTicks, job := some job }] })
    (modCtx job (fun c =>
      { c with accepted := true, answerAt := some (s.time.ticks + msTicks (items s).radio.rspDelayMs) }) s)

/-- A frame in a window (R397, R399, R407): accepted as a command, or discarded with its counter. -/
def windowFrame (job : Nat) (x : WmbRx) (s : State) : State :=
  let sl := nth s.keys.slots x.slot
  if !x.own then closeIfOver s
  else if x.profile ≠ 2 then
    closeIfOver (modRadio (fun r => { r with winRefused := satInc r.winRefused }) s)
  else if !(slotUsable s x.slot && x.macOk) then
    closeIfOver (modRadio (fun r => { r with micFail := satInc r.micFail }) s)
  else if !sl.attr.use.testBit 5 then closeIfOver s
  else
    let take := fun i => closeRxWindow (holdCommand job x (takePeer i x s))
    match peerOf s (padTo 8 0 x.peer) x.slot with
    | some i =>
      if (nth s.radio.peers i).ctr < x.counter then take i
      else closeIfOver (modRadio (fun r => { r with replay := satInc r.replay }) s)
    | none =>
      match freePeer s with
      | some i => take i
      | none => closeIfOver (raise Src.peerFull s)

/-- A wake frame (R402). -/
def isWakeFrame (s : State) (x : WmbRx) : Bool :=
  let r := (items s).radio
  x.crcOk && x.formatA && x.ci == r.wakeCi && (x.id == r.id || x.id == 0xFFFFFFFF) && x.profile == 0

/-- A valid wake frame (R402, R410): event 9 with parameter 0x10, a jitter point, and the quiet time; from the
WAKE_DAY_MAX-th of the governor day it is ignored. -/
def wakeFrame (s : State) : State :=
  let r := (items s).radio
  let n := (if s.radio.wakeDay = today s then s.radio.wakesToday else 0) + 1
  let quiet := match s.radio.wakeAt with
    | some t => !passed s t (secTicks r.wakeQuietS)
    | none => false
  if quiet then s
  else
    let s1 := modRadio (fun x => { x with wakesToday := n, wakeDay := today s }) s
    if r.wakeDayMax ≤ n then raise Src.wakeLimit s1
    else
      let d := drawMs 0 r.wakeSpreadMs s1
      masonEvent 9 0x10 0 (modRadio (fun x =>
        { x with
          wakes := satInc x.wakes, wakeAt := some s.time.ticks, wakePoint := some (s.time.ticks + d.1) }) d.2)

/-- RX_FRAME_END (R388 to R390, R392, R398 to R402): the frame after a synchronisation word ends. One of a format that the
mode does not have fails its check like one whose CRC fails (log 13, DEDUCED). -/
def execRxFrameEnd (obs : RxObs) (s : State) : Host.Outcome State Fault Refusal :=
  done (let a := s.radio.act
    if !(inPhase s .onAir && !a.kind.transmits && a.sync) then s
    else
      let (good, rssi) := match obs with
        | .wmb x => (x.crcOk && modeHas (at0 (items s).radio.mode (b2n a.profF)) (b2n !x.formatA), x.rssi)
        | .gyale x ok => (phrOk x.phr && ok, x.rssi)
      let s1 := modAct (fun x => { x with sync := false }) s
      if !good then
        closeIfOver (modAct (fun x => { x with bad := true }) (modRadio (fun r => { r with crcFail := satInc r.crcFail }) s1))
      else
        let s2 := modRadio (fun r => { r with rssiLast := rssi }) s1
        match a.kind, a.job, obs with
        | .slotRx, some id, .gyale x _ =>
          leaveCtx id { status := .done, result := x.mpdu.length, out := x.mpdu ++ bytesInt 2 rssi } (synthGood (endAct s2))
        | .window, some id, .wmb x => windowFrame id x s2
        | .sniff, _, .wmb x =>
          if a.extended && isWakeFrame s x then synthGood (endAct (wakeFrame s2)) else closeIfOver s2
        | _, _, _ => closeIfOver s2)

/-- A context whose window's start-up is due: it listens from the window's opening on (R398, Table 11.5). -/
def windowDue (s : State) : Option (RadioCtx × Nat) :=
  s.radio.ctxs.findSome? fun c => match c.winAt with
    | some t => if t ≤ s.time.ticks + startTicks then some (c, t) else none
    | none => none

/-- RX_WINDOW_OPEN (R398, R376): a window's instant comes, less its start-up; where the air is taken it is skipped and counted
in SNIFF_COUNT.SKIPPED (log 15, DEDUCED). -/
def execRxWindowOpen (s : State) : Host.Outcome State Fault Refusal :=
  done (match windowDue s with
    | none => s
    | some (c, t) =>
      if !radioUp s then s
      else
        let s1 := modCtx c.job (fun c => { c with winAt := none }) s
        let len := msTicks (items s).radio.rxwLenMs
        match airTaken s1 1 (startTicks + len) with
        | none =>
          startAct { kind := .window, job := some c.job, port := (items s).radio.portOf (b2n c.profF), profF := c.profF
                     opens := t, until_ := t + len }
            (modCtx c.job (fun c => { c with windows := c.windows + 1 }) s1)
        | some _ => finishSend c.job (modRadio (fun r => { r with skipped := satInc r.skipped }) s1))

/-- RX_WINDOW_CLOSE (R398): the window's time ends; a frame whose word has come is received to its end. -/
def execRxWindowClose (s : State) : Host.Outcome State Fault Refusal :=
  done (if s.radio.act.kind == .window && decide (s.radio.act.until_ ≤ s.time.ticks) && !s.radio.act.sync then closeRxWindow s
    else s)

/-! ### The van-wake sniff -/

/-- A sniff is skipped (R401). -/
def sniffSkipped (s : State) : Bool :=
  let r := (items s).radio
  let quiet := match s.radio.wakeAt with
    | some t => !passed s t (secTicks r.wakeQuietS)
    | none => false
  (airTaken s 3 (usTicks (500 + at0 r.sniffUs (profileNow s)))).isSome || s.lintel.gov.cExhausted || quiet || s.mason.halted

/-- SNIFF (R401): the sniff's instant, the end of its listen, or the end of its extended listen. `rssi` is the RSSI in
0.5 dBm and `rateOk` says that the rate detector matched for half the time. -/
def execSniff (rssi : Int) (rateOk : Bool) (s : State) : Host.Outcome State Fault Refusal :=
  done (let r := (items s).radio
    let f := profileNow s
    let a := s.radio.act
    if a.kind == .sniff then
      if a.phase != .onAir || a.sync then s
      else if a.extended then (if a.until_ ≤ s.time.ticks then synthGood (endAct s) else s)
      else if !passed s a.since (usTicks (at0 r.sniffUs f)) then s
      else if decide (2 * r.wakeDbm ≤ rssi) && rateOk then
        modAct (fun x => { x with extended := true, until_ := a.since + msTicks r.wakeWaitMs }) s
      else synthGood (endAct s)
    else if !(radioUp s && at0 r.sniffEn f == 1 && passed s s.radio.sniffAt (msTicks (at0 r.sniffPeriodMs f))) then s
    else
      let s1 := modRadio (fun x => { x with sniffAt := s.time.ticks }) s
      if sniffSkipped s then modRadio (fun x => { x with skipped := satInc x.skipped }) s1
      else
        startAct { kind := .sniff, port := r.portOf f, profF := f == 1
                   until_ := s.time.ticks + usTicks (500 + at0 r.sniffUs f) } s1)

/-! ### Endings from outside -/

/-- The power loop of a port takes one link-margin report (R380, R4). Each port's loop has its own run and flag; the flag and
count of Table 11.8 show either's flag and both their events (log 36, DESIGN CHOICE). -/
def powerLoop (port : Nat) (margin : Int) (s : State) : State :=
  let r := (items s).radio
  let p := nth s.radio.txp port
  let want := p + clamp (r.marginTarget - margin) (-2) 2
  let new := clamp want (at0 r.txpMin port) (at0 r.txpMax port)
  let run := if want ≠ new then nth s.radio.runPower port + 1 else 0
  modRadio (fun x =>
    { x with
      txp := put x.txp port new, runPower := put x.runPower port run, clampedPower := put x.clampedPower port (decide (8 ≤ run))
      clampsPower := if run = 8 then satInc x.clampsPower else x.clampsPower }) s

/-- A register of the RADIO block (Table 11.8). -/
def readRadio (s : State) (off : Nat) : Nat :=
  let r := s.radio
  let i8 := fun (x : Int) => (x.emod 256).toNat
  if off = 0x000 then
    activityCode s + 8 * b2n s.lintel.xoOn + 16 * b2n r.locked + 32 * (if r.act.kind == .none then 0 else r.act.port)
      + 64 * r.watch + 256 * r.ctxs.length
  else if off = 0x004 then i8 (nth r.txp 0) + 256 * i8 (nth r.txp 1)
  else if off = 0x008 then r.rlLast + 256 * r.bad + 65536 * r.good
  else if off = 0x00C then (r.rssiLast.emod 65536).toNat
  else if off = 0x010 then
    let power := r.clampedPower.toList.any id
    b2n (power || r.clampedWatch) + 2 * b2n power + 4 * b2n r.clampedWatch
  else if off = 0x014 then r.clampsPower.toNat + 65536 * r.clampsWatch.toNat
  else if off = 0x018 then r.lastAir
  else if off = 0x01C then r.txCount.toNat
  else if off = 0x020 then r.synthTimeouts.toNat + 65536 * r.slotMissed.toNat
  else if off = 0x024 then r.interfered.toNat + 65536 * r.crcFail.toNat
  else if off = 0x028 then r.micFail.toNat + 65536 * r.replay.toNat
  else if off = 0x02C then r.lbtBusy.toNat + 65536 * r.winRefused.toNat
  else if off = 0x030 then r.wakes.toNat + 65536 * r.skipped.toNat
  else if off = 0x034 then r.watchChanges.toNat
  else if 0x040 ≤ off && off < 0x0A0 then nth r.txc ((off - 0x40) / 4)
  else if 0x0A0 ≤ off && off < 0x120 then
    let p := nth r.peers ((off - 0xA0) / 16)
    match off % 16 with
    | 0 => leAt p.addr 0 4 | 4 => leAt p.addr 4 4 | 8 => p.slot + 2 ^ 31 * b2n p.used | _ => p.ctr
  else 0

end Sys2Proof.Machine
end

