-- ==== Sys2Proof/Machine/Link.lean ====
section
/-! DEFINITION. The Gyale link (chapter 12): frames and their checks, connections, slots, the join, routed messages,
forwarding and the link's jobs. -/

namespace Sys2Proof.Machine

/-! ### Frames (Tables 12.1 to 12.5) -/

/-- The fields of a received MPDU. -/
structure LinkHdr where
  type : Nat := 0
  sec : Bool := false
  ackReq : Bool := false
  more : Bool := false
  sleepy : Bool := false
  version : Nat := 0
  sn : Byte := 0
  dst : List Byte := []
  src : List Byte := []
  keyid : Nat := 0
  fcnt : Nat := 0
  /-- The payload in clear. -/
  payload : List Byte := []
  deriving DecidableEq, Repr, Inhabited

/-- The fields of an MPDU before its payload is opened (Tables 12.2 and 12.3). -/
def LinkHdr.parse (m : List Byte) : LinkHdr :=
  let fc := leAt m 0 2
  { type := fc % 8, sec := fc.testBit 3, ackReq := fc.testBit 4, more := fc.testBit 5, sleepy := fc.testBit 6
    version := bits 11 8 fc, sn := byteAt m 2, dst := slice m 3 8, src := slice m 11 8, keyid := leAt m 19 1
    fcnt := leAt m 20 4 }

/-- The all-ones address. -/
def allOnes8 : List Byte := List.replicate 8 0xFF

/-- The CCM nonce of a link frame (R418) and of a routed message (R421). -/
def linkNonce (addr : List Byte) (cnt : Nat) (tail : Byte) : List Byte := addr ++ bytesLE 4 cnt ++ [tail]

/-- The frame-control word (Table 12.3). -/
def frameControl (s : State) (type : Nat) (sec ackReq more : Bool) : Nat :=
  type + 8 * b2n sec + 16 * b2n ackReq + 32 * b2n more + 64 * b2n ((items s).link.nodeKind == 0) + 256

/-- A secured MPDU (R417, R418) under the link-key slot. -/
def sealFrame (s : State) (type : Nat) (ackReq more : Bool) (dst : List Byte) (sn : Byte) (fcnt : Nat)
    (payload : List Byte) : List Byte :=
  let slot := (items s).link.linkSlot
  let head := bytesLE 2 (frameControl s type true ackReq more) ++ [sn] ++ dst ++ serial s ++ bytesLE 1 slot ++ bytesLE 4 fcnt
  let (ct, tag) := ccmSeal (nth s.keys.slots slot).key (linkNonce (serial s) fcnt 1) head payload 8
  head ++ ct ++ tag

/-- A beacon (R424): unsecured, closed by its CRC-32. -/
def beaconFrame (s : State) (payload : List Byte) : List Byte :=
  let body := bytesLE 2 (frameControl s 0 false false false) ++ [s.link.beaconSn] ++ allOnes8 ++ serial s ++ payload
  body ++ bytesLE 4 (crc32 body).toNat

/-! ### Counters (R420) -/

/-- A radio-counter record of a kind and slot is on its way into the journal. -/
def reservePending (s : State) (kind slot : Nat) : Bool :=
  s.fabric.jobs.any fun j => j.desc.engine == 10 && j.payload.length == 32 && leAt j.payload 1 1 == kind
    && leAt j.payload 2 1 == slot && leAt j.payload 8 8 == 0

/-- A reservation asked for: its record, or the fault where the journal is fenced (R396, R420). -/
def reserve (master kind slot counter : Nat) (fail : FaultSrc) (s : State) : State :=
  if (winOf s .journal).fenced then raise fail s
  else if reservePending s kind slot then s
  else writeCounter master kind slot (min counter (2 ^ 32 - 1)) [] s

/-- A counter at 0xFFFF_FFFF raises FCNT_EXHAUSTED (R420). -/
def noteSpent (s : State) : State :=
  if s.link.fcnt = 2 ^ 32 - 1 ∨ s.link.ofcnt = 2 ^ 32 - 1 then setLevel Src.fcntExhausted true s else s

/-- The next value of LINK_FCNT, where one is reserved; none once a counter is exhausted, so that only beacons go out
(R420). -/
def takeFcnt (s : State) : Option Nat × State :=
  if s.link.fcnt = 2 ^ 32 - 1 ∨ s.link.ofcnt = 2 ^ 32 - 1 then (none, noteSpent s)
  else if s.link.fcnt < s.link.fcntRes then
    (some (s.link.fcnt + 1), noteSpent (modLink (fun l => { l with fcnt := l.fcnt + 1 }) s))
  else
    let l := (items s).link
    (none, reserve 0x1C 2 l.linkSlot (s.link.fcnt + l.ctrReserve) Src.fcntReserveFail s)

/-- A radio-counter record of the chip's own counters has committed: the reservation stands (R396, R420). -/
def counterCommitted (rec_ : List Byte) (s : State) : State :=
  let kind := leAt rec_ 1 1
  let slot := leAt rec_ 2 1
  let cnt := leAt rec_ 4 4
  let l := (items s).link
  if leAt rec_ 8 8 ≠ 0 then s
  else if kind = 1 then modRadio (fun r => { r with txcRes := upd r.txcRes slot (max cnt) }) s
  else if kind = 2 && slot = l.linkSlot then modLink (fun x => { x with fcntRes := max x.fcntRes cnt }) s
  else if kind = 2 && slot = l.e2eSlot then modLink (fun x => { x with ofcntRes := max x.ofcntRes cnt }) s
  else s

/-! ### Connections -/

/-- The channel of event `n` (R426). -/
def hopChannel (x : Conn) (n : Nat) : Nat :=
  let u := (x.hopBase + n * x.hopInc) % 64
  let used := mapUsed x.map
  if x.map.testBit u then u else at0 used (u % used.length)

/-- Ticks of a connection's interval (R425). -/
def intervalTicks (x : Conn) : Nat := if x.sleepy then secTicks x.interval else msTicks x.interval

/-- The guard of R429 in µs for a connection's next event, the time since the last synchronisation being taken at its
expected instant. -/
def guardUs (s : State) (x : Conn) : Nat :=
  let own := (items s).link.ownPpm
  let own := if own < s.clock.linkPpm.natAbs then own + s.clock.linkPpm.natAbs else own
  ceilDiv ((own + x.peerPpm) * ((x.nextAt - x.syncAt) * 15625 / 512)) 1000000 + 250

/-- The slot jobs that the link submits (R429): master 0x1C on LINK_Q. -/
def slotTx (instant ch phy : Nat) (frame : List Byte) (s : State) : State :=
  chipJob 0x1C (items s).link.linkQ
    { opcode := 3, engine := 11
      args := [BitVec.ofNat 32 instant, 100, BitVec.ofNat 32 (ch % 64 + phy % 4 * 64), 0] }
    frame (modLink (fun l => { l with lastTx := frame }) s)

def slotRx (start len ch phy : Nat) (s : State) : State :=
  chipJob 0x1C (items s).link.linkQ
    { opcode := 4, engine := 11, outCount := 1
      args := [BitVec.ofNat 32 start, BitVec.ofNat 32 (len % 2 ^ 24), BitVec.ofNat 32 (ch % 64 + phy % 4 * 64), 0] } [] s

/-- The time of the preamble, synchronisation word and PHR in µs. -/
def headUs : Nat := ceilDiv (88 * 10000) 384

/-- Air time of a frame under a connection's PHY. -/
def phyAir (phy len : Nat) : Nat := gyaleAir (phy % 2) (phy / 2 % 2) len

/-- The next SN of the frames to an address, taken (R420). -/
def takeSn (addr : List Byte) (s : State) : Byte × State :=
  let n := ((s.link.txSn.find? fun x => x.1 == addr).map (·.2)).getD 0
  (n, modLink (fun l => { l with txSn := keepNewest 64 (l.txSn.filter (fun x => x.1 != addr) ++ [(addr, n + 1)]) }) s)

/-- A listen for a frame that is to begin 300 ± 50 µs after an instant of the link timer (R427). -/
def answerListen (c : Nat) (after_ : Nat) (s : State) : State :=
  let x := nth s.link.conns c
  slotRx ((after_ + 250) % 2 ^ 32) (100 + headUs) x.chLast x.phy s

/-- A frame sent on a connection at an instant of the link timer, under the SN it had before or the next one (R420); where it
asks for an answer, a listen follows (R427). The SN it went out with; none while no counter value is reserved. -/
def sendOn (c : Nat) (type : Nat) (ackReq more : Bool) (payload : List Byte) (sn : Option Nat) (instant : Nat)
    (s : State) : State × Option Nat :=
  let x := nth s.link.conns c
  match takeFcnt s with
  | (none, s1) => (s1, none)
  | (some f, s1) =>
    let (n, s2) := match sn with
      | some n => ((BitVec.ofNat 8 n : Byte), s1)
      | none => takeSn x.addr s1
    let frame := sealFrame s2 type ackReq more x.addr n f payload
    let s3 := slotTx instant x.chLast x.phy frame s2
    (if ackReq then answerListen c (instant + phyAir x.phy frame.length) s3 else s3, some n.toNat)

/-- The first frame in a connection's queue that may go out in its present event (R432). -/
def nextFrame (x : Conn) : Option LinkFrame := x.queue.find? fun f => decide (f.after_ ≤ x.anchor)

/-- The relay has stopped forwarding, or stops now (R434). -/
def forwardStops (s : State) : Bool := s.link.relayPaused || s.lintel.gov.cExhausted

/-- A forward of a payload under a PHY is refused: the relay has stopped, or its SLOT_TX would be refused for energy (R86,
R434). -/
def forwardRefused (s : State) (phy : Nat) (p : List Byte) : Bool :=
  forwardStops s || energyRefused s 2 { opcode := 3, engine := 11, args := [0, 0, BitVec.ofNat 32 (phy % 4 * 64), 0] }
    (p ++ List.replicate 32 0)

/-- Frames not forwarded: the relay pauses and counts them (R434). -/
def pauseRelay (n : Nat) (s : State) : State :=
  setLevel Src.relayPaused true
    (modLink (fun l => { l with relayPaused := true, energySkip := satAdd l.energySkip n }) s)

/-- The forwards in a connection's queue that are refused leave it (R434). -/
def dropForwards (c : Nat) (s : State) : State :=
  let x := nth s.link.conns c
  let no := fun (f : LinkFrame) => f.fwd && forwardRefused s x.phy f.payload
  let n := (x.queue.filter no).length
  if n = 0 then s else pauseRelay n (modConn c (fun y => { y with queue := y.queue.filter fun f => !no f }) s)

/-- The next pending frame of a connection sent, and kept until its ACK; a first sending takes the next SN (R420). -/
def sendNext (c : Nat) (instant : Nat) (s : State) : State :=
  let s0 := dropForwards c s
  let x := nth s0.link.conns c
  match nextFrame x with
  | none => s0
  | some f =>
    match sendOn c f.type true (decide (1 < x.queue.length)) f.payload f.sn instant s0 with
    | (s1, none) => s1
    | (s1, some n) =>
      modLink (fun l => { l with relayed := if f.fwd && f.sn.isNone then satInc l.relayed else l.relayed })
        (modConn c (fun y => { y with sent := some { f with sn := some n }, queue := y.queue.erase f }) s1)

/-- A frame put into a connection's queue; a sleepy child's queue holds four, and drops its oldest (R428). -/
def queueFrame (c : Nat) (f : LinkFrame) (s : State) : State :=
  let x := nth s.link.conns c
  let full := x.sleepy && x.kind == 2 && decide (4 ≤ x.queue.length)
  let s1 := modConn c (fun y => { y with queue := (if full then y.queue.drop 1 else y.queue) ++ [f] }) s
  if full then modLink (fun l => { l with childQDrop := satInc l.childQDrop }) s1 else s1

/-! ### Receive checks (Table 12.4) -/

/-- The neighbour entry of an address. -/
def neighOf (s : State) (addr : List Byte) : Option Nat :=
  (List.range 32).find? fun i => let n := nth s.link.neigh i; n.used && n.addr == addr

/-- The entry for a new neighbour: a free one, or the one of no connection unused longest (R419). -/
def neighFree (s : State) : Option Nat :=
  match (List.range 32).find? fun i => !(nth s.link.neigh i).used with
  | some i => some i
  | none =>
    ((List.range 32).filter fun i => (connOf s (nth s.link.neigh i).addr).isNone).foldl (fun acc i =>
      match acc with
      | none => some i
      | some j => if (nth s.link.neigh i).at_ < (nth s.link.neigh j).at_ then some i else some j) none

/-- Air time of a received frame in µs. -/
def rxAirUs (x : GyaleRx) : Nat := phyAir (phrPhy x.phr) x.mpdu.length

/-- What the checks of Table 12.4 answer. -/
inductive RxCheck where
  | discard | duplicate (h : LinkHdr) | pass (h : LinkHdr)
  deriving Repr

/-- Check 3: the frame opened (R418). -/
def openFrame (s : State) (m : List Byte) (h : LinkHdr) : Option (List Byte) :=
  if h.sec then
    let sl := nth s.keys.slots h.keyid
    let body := m.drop 24
    if decide (32 ≤ m.length) && slotUsable s h.keyid && sl.attr.use.testBit 4 then
      let r := ccmOpen sl.key (linkNonce h.src h.fcnt 1) (m.take 24) (body.take (body.length - 8)) (body.drop (body.length - 8))
      if r.2 then some r.1 else none
    else none
  else if h.type = 0 && 23 ≤ m.length && crc32 (m.take (m.length - 4)) == BitVec.ofNat 32 (leAt m (m.length - 4) 4) then
    some ((m.take (m.length - 4)).drop 19)
  else none

/-- The checks of Table 12.4 in their order; `exchange` says that the frame belongs to a connection exchange. -/
def checkFrame (x : GyaleRx) (exchange : Bool) (s : State) : RxCheck × State :=
  let h := LinkHdr.parse x.mpdu
  if !(phrOk x.phr && within 19 127 (phrLen x.phr)) then
    (.discard, modLink (fun l => { l with crcFail := satInc l.crcFail }) s)
  else if !(h.version == 1 && (h.dst == serial s || (h.type == 0 && h.dst == allOnes8))) then (.discard, s)
  else match openFrame s x.mpdu h with
    | none => (.discard, modLink (fun l => { l with micFail := satInc l.micFail }) s)
    | some p =>
      let h := { h with payload := p }
      if !h.sec then (.pass h, s)
      else
        let store := fun (i : Nat) (t : State) =>
          modLink (fun l =>
            { l with neigh := put l.neigh i ⟨true, h.src, h.fcnt, some h.sn.toNat, s.time.ticks⟩ }) t
        match neighOf s h.src with
        | some i =>
          let n := nth s.link.neigh i
          if h.fcnt ≤ n.fcnt then (.discard, modLink (fun l => { l with replay := satInc l.replay }) s)
          else if n.sn == some h.sn.toNat then
            (.duplicate h, store i (modLink (fun l => { l with dupSn := satInc l.dupSn }) s))
          else (.pass h, store i s)
        | none =>
          if !exchange then (.discard, s)
          else match neighFree s with
            | some i => (.pass h, store i s)
            | none => (.discard, raise Src.neighFull s)

/-- A valid frame on a connection: it lives, and its timer is synchronised (R429, R430). -/
def hearConn (c : Nat) (s : State) : State :=
  modConn c (fun y =>
    { y with missed := 0, seenAt := s.time.ticks, syncAt := s.time.ticks, heard := true, listening := false }) s

/-- The event may go on (R427). -/
def eventOpen (s : State) (c : Nat) : Bool :=
  !passed s (nth s.link.conns c).eventAt (msTicks (items s).link.evtMaxMs)

/-- The ACK of a frame (R427, R428): the SN, the RSSI in whole dBm, and the adjustment. MORE says that this side holds frames
for the other, and the first of them follows 300 µs after the ACK; else a listen follows where the other side has set MORE. -/
def sendAck (c : Nat) (h : LinkHdr) (x : GyaleRx) (s0 : State) : State :=
  let s := dropForwards c s0
  let y := nth s.link.conns c
  let more := (nextFrame y).isSome && eventOpen s c
  let adj : Int := if y.sleepy && y.kind == 2 then clamp (-x.off) (-32767) 32767 else 0
  let payload := [h.sn] ++ bytesLE 1 (x.rssi / 2 + 150).toNat ++ bytesInt 2 adj
  let t := linkNow s + 300
  let end_ := t + phyAir y.phy 36
  match sendOn c 4 false more payload none (t % 2 ^ 32) s with
  | (s1, none) => s1
  | (s1, some _) =>
    if more then sendNext c ((end_ + 300) % 2 ^ 32) s1
    else if h.more && eventOpen s c then answerListen c end_ s1
    else s1

/-- A frame on a live connection, acknowledged where it asks for it; a poll of a sleepy child always is (R428). A duplicate is
acknowledged, but keeps no connection alive (Table 12.4, R430). -/
def acceptOn (x : GyaleRx) (type : Nat) (deliver : Nat → LinkHdr → State → State) (s : State) : State :=
  if linkOff s then s
  else match checkFrame x false s with
    | (.discard, s1) => s1
    | (.duplicate h, s1) =>
      (match connOf s1 h.src with
       | some c =>
         let t := modConn c (fun y => { y with syncAt := s.time.ticks, listening := false }) s1
         if h.ackReq then sendAck c h x t else t
       | none => s1)
    | (.pass h, s1) =>
      match connOf s1 h.src with
      | none => s1
      | some c =>
        if h.type ≠ type then s1
        else
          let y := nth s1.link.conns c
          let s2 := deliver c h (modLink (fun l => { l with rxOk := l.rxOk + 1 }) (hearConn c s1))
          if h.ackReq || (y.sleepy && y.kind == 2 && !y.heard && type != 4) then sendAck c h x s2 else s2

/-! ### Joining (R423 to R425) -/

/-- SCAN_LISTEN (R424): SCAN_MS on each advertising channel in turn, every SCAN_PERIOD_S. -/
def execScanListen (s : State) : Host.Outcome State Fault Refusal :=
  done (let l := (items s).link
    let n := s.link.scanCh
    if !(s.link.st == 1 && !linkOff s && decide (s.link.scanAt ≤ s.time.ticks)) then s
    else slotRx ((linkNow s + (items s).radio.txLeadUs) % 2 ^ 32) (l.scanMs * 1000) (at0 (linkPlan s).adv n) 0
      (modLink (fun x =>
        { x with
          scanAt := if n < 2 then s.time.ticks + msTicks l.scanMs
            else s.time.ticks + secTicks l.scanPeriodS - 2 * msTicks l.scanMs
          scanCh := (n + 1) % 3, best := if n = 0 then none else x.best }) s))

/-- A beacon's claim as a candidate parent (R424). -/
def beaconCandidate (s : State) (h : LinkHdr) (x : GyaleRx) (ch : Nat) : Option Candidate :=
  let l := (items s).link
  let p := h.payload
  let depth := leAt p 2 1
  let flags := leAt p 3 1
  if decide (20 ≤ p.length) && leAt p 0 2 == l.netId && decide (2 * l.rssiMin ≤ x.rssi) && flags.testBit 0
      && decide (depth + 1 ≤ l.depthMax) then
    some { addr := h.src, depth := depth, rssi := x.rssi, root := slice p 4 8, at_ := s.time.ticks, ch := ch
           reader := flags.testBit 2 }
  else none

/-- A sleepy node that is connected may take a reader's connection beside its parent's (R414). The spec does not give the
exchange: it is that of R425, begun by the reader's beacon (log 16, DEDUCED). -/
def takesReader (s : State) : Bool :=
  s.link.st == 3 && (items s).link.nodeKind == 0 && s.link.join.isNone
    && !s.link.conns.toList.any (fun c => c.kind == 3)

/-- GYALE_BEACON_RX (R424): the lowest DEPTH is chosen, then the highest RSSI. `ch` is the channel it came on. -/
def execGyaleBeaconRx (x : GyaleRx) (ch : Nat) (s : State) : Host.Outcome State Fault Refusal :=
  done (if linkOff s then s
    else match checkFrame x false s with
      | (.pass h, s1) =>
        if h.type ≠ 0 || h.sec || !(s1.link.st == 1 || takesReader s1) then s1
        else match beaconCandidate s1 h x ch with
          | none => s1
          | some c =>
            if s1.link.st ≠ 1 && !c.reader then s1 else
            let better := match s1.link.best with
              | none => true
              | some b => decide (c.depth < b.depth) || (c.depth == b.depth && decide (b.rssi < c.rssi)) || c.addr == b.addr
            if better then modLink (fun l => { l with best := some c }) s1 else s1
      | (_, s1) => s1)

/-- Microseconds of `n` ticks, rounded down. -/
def ticksUs (n : Nat) : Nat := n * 15625 / 512

/-- CONN_REQ_SEND (R425): 300 µs after the chosen beacon ends, on its channel, under the next SN to its sender (R420). Where
the random FIFO holds no challenge, the request waits up to 2 ms for a block, and goes when it is commanded anew (R472). -/
def execConnReqSend (s : State) : Host.Outcome State Fault Refusal :=
  done (let l := (items s).link
    match s.link.best with
    | none => s
    | some b =>
      if !(s.link.st == 1 || (takesReader s && b.reader)) || linkOff s
          || passed s (s.link.reqWait.getD b.at_) (match s.link.reqWait with | some _ => msTicks 2 + 1 | none => usTicks 300 + 1)
        then s
      else match takeRandom 8 s with
        | none => modLink (fun x => { x with reqWait := some (x.reqWait.getD s.time.ticks) }) s
        | some (chal, s1) =>
          match takeFcnt s1 with
          | (none, s2) => s2
          | (some f, s2) =>
            let payload := bytesLE 1 l.nodeKind ++ chal ++ bytesLE 1 l.ownPpm ++ bytesLE 1 (l.fec + 2 * l.rate)
            let (sn, s3) := takeSn b.addr s2
            let frame := sealFrame s3 1 false false b.addr sn f payload
            let since := ticksUs (s.time.ticks - b.at_)
            let t := linkNow s + 2 ^ 32 - since + max 300 since
            let air := phyAir 0 frame.length
            slotRx ((t + air) % 2 ^ 32) l.reqWinUs b.ch 0
              (slotTx (t % 2 ^ 32) b.ch 0 frame
                (modLink (fun x =>
                  { x with
                    st := if x.st = 1 then 2 else x.st, best := none, reqWait := none
                    join := some { b with chal := chal, at_ := b.at_ + usTicks (max 300 since + air) } }) s3)))

/-- The join comes to nothing: SCAN again, or the parent's connection alone (Table 12.6). -/
def joinFails (s : State) : State :=
  modLink (fun l => { l with st := if l.st = 2 then 1 else l.st, best := none, join := none, reqWait := none }) s

/-- CONN_RSP_TIMEOUT (R425): no valid answer within REQ_WIN_US of the request's end. -/
def execConnRspTimeout (s : State) : Host.Outcome State Fault Refusal :=
  done (match s.link.join with
    | some j =>
      if passed s j.at_ (usTicks (items s).link.reqWinUs) then joinFails s else s
    | none => s)

/-- The first free connection. -/
def freeConnSlot (s : State) : Option Nat := (List.range 16).find? fun c => (nth s.link.conns c).kind == 0

/-- The children of a relay. -/
def children (s : State) : List Nat := (List.range 16).filter fun c => (nth s.link.conns c).kind == 2

/-- How far a first slot at `t`, repeated every `ivl` ticks, has to move so that no slot of a child, each taken as
EVT_MAX_MS, overlaps one of its own: none where they never meet (R428). -/
def slotShift (s : State) (x : Conn) (ivl t : Nat) : Option Nat :=
  let w := msTicks (items s).link.evtMaxMs
  let g := Nat.gcd (intervalTicks x) ivl
  let d := (((t : Int) - x.nextAt).emod g).toNat
  if d < w then some (w - d) else if g < d + w then some (g - d + w) else none

/-- A first slot at or after a free value that overlaps no slot of another child's, now or in any later period (R428). -/
def placeSlot (s : State) (ivl : Nat) : (fuel : Nat) → (t : Nat) → Nat
  | 0, t => t
  | n + 1, t =>
    match ((children s).filter fun c => (nth s.link.conns c).sleepy).findSome? fun c =>
        slotShift s (nth s.link.conns c) ivl t with
    | some k => placeSlot s ivl n (t + k)
    | none => t

/-- GYALE_CONN_REQ_RX (R414, R425, R428): a relay answers with a CONN_RSP. What the spec does not fix of it (hop
sequence and first instant) are free values (log 16, DESIGN CHOICE). -/
def execGyaleConnReqRx (x : GyaleRx) (ch : Nat) (s : State) : Host.Outcome State Fault Refusal :=
  done (let l := (items s).link
    if linkOff s || l.nodeKind ≠ 1 || s.link.st ≠ 3 then s
    else match checkFrame x true s with
      | (.pass h, s1) =>
        if h.type ≠ 1 || h.payload.length ≠ 11 then s1
        else match takeFcnt s1 with
          | (none, s2) => s2
          | (some f, s2) =>
            let sleepy := leAt h.payload 0 1 == 0
            let old := connOf s2 h.src
            let s3 := match old with
              | some c => freeConn c s2
              | none => s2
            let room := decide ((children s3).length < l.childMax)
            let slot := if room then freeConnSlot s3 else none
            let result := if slot.isSome then 0 else 1
            let ivl := if sleepy then l.slotPeriodS else l.actIntervalMs
            let base := Config.freeIndex s.draws % 64
            let inc := Config.freeIndex (s.draws + 1) % 128 * 2 + 1
            let rspAir := phyAir 0 63
            let rspEnd := s.time.ticks + usTicks (300 + rspAir)
            let free := rspEnd + Config.freeIndex (s.draws + 2) % (if sleepy then secTicks ivl else msTicks ivl)
            let first := if sleepy then placeSlot s3 (secTicks ivl) 64 free else free
            let cap := leAt h.payload 10 1
            let phy := b2n (l.rate == 1 && cap.testBit 1) + 2 * b2n (l.fec == 1 && cap.testBit 0)
            let payload := bytesLE 1 result ++ slice h.payload 1 8 ++ bytesLE 4 ivl ++ bytesLE 1 base ++ bytesLE 1 inc
              ++ bytesLE 8 (linkPlan s).map ++ bytesLE 4 ((first - rspEnd) * 15625 / 512) ++ bytesLE 2 (l.supervMs / 10)
              ++ bytesLE 1 l.ownPpm ++ bytesLE 1 phy
            let (sn, s3) := takeSn h.src s3
            let frame := sealFrame s3 2 false false h.src sn f payload
            let s4 := slotTx ((linkNow s + 300) % 2 ^ 32) ch 0 frame (drew 3 s3)
            match slot with
            | none => s4
            | some c => modConn c (fun _ =>
                { kind := 2, addr := h.src, sleepy := sleepy, central := !sleepy, hopInc := inc, hopBase := base
                  interval := ivl, peerPpm := leAt h.payload 9 1, map := (linkPlan s).map, superv := l.supervMs / 10
                  phy := phy, nextAt := first, seenAt := s.time.ticks, syncAt := s.time.ticks }) s4
      | (_, s1) => s1)

/-- An older connection to the node that now answers is gone, but for the parent of a node that is CONNECTED. -/
def dropStale (src : List Byte) (s : State) : State :=
  match connOf s src with
  | some c => if s.link.st = 3 && (nth s.link.conns c).kind = 1 then s else freeConn c s
  | none => s

/-- The connection that a CONN_RSP's payload describes. -/
def connFrom (s : State) (j : Candidate) (p : List Byte) : Conn :=
  { kind := if j.reader then 3 else 1, addr := j.addr, sleepy := (items s).link.nodeKind == 0, interval := leAt p 9 4
    hopBase := leAt p 13 1, hopInc := leAt p 14 1, map := leAt p 15 8, superv := leAt p 27 2
    peerPpm := leAt p 29 1, phy := leAt p 30 1, nextAt := s.time.ticks + usTicks (leAt p 23 4)
    seenAt := s.time.ticks, syncAt := s.time.ticks }

/-- The node takes the connection: CONNECTED under its parent, or a reader's beside it (R414, R425). -/
def takeConn (j : Candidate) (p : List Byte) (s : State) : State :=
  match freeConnSlot s with
  | none => s
  | some c =>
    (if s.link.st = 3 then id else setLevel Src.orphan false)
      (modLink (fun l =>
        if l.st = 3 then { l with best := none, join := none }
        else { l with st := 3, depth := j.depth + 1, root := j.root, best := none, join := none
                      beaconAt := s.time.ticks })
        (modConn c (fun _ => connFrom s j p) s))

/-- GYALE_CONN_RSP_RX (R425): an accepting answer within REQ_WIN_US and with the own CHAL sets the connection up; one with
another CHAL is ignored, and leaves the neighbour entry as it was. -/
def execGyaleConnRspRx (x : GyaleRx) (s : State) : Host.Outcome State Fault Refusal :=
  done (match s.link.join with
    | none => s
    | some j =>
      if linkOff s || !(s.link.st == 2 || s.link.st == 3) || (LinkHdr.parse x.mpdu).src ≠ j.addr
          || passed s j.at_ (usTicks ((items s).link.reqWinUs + rxAirUs x) + 1) then s
      else match checkFrame x true s with
        | (.pass h, s1) =>
          let p := h.payload
          if h.type ≠ 2 || p.length ≠ 31 || slice p 1 8 ≠ j.chal then s
          else if leAt p 0 1 ≠ 0 then joinFails (dropStale h.src s1)
          else takeConn j p (dropStale h.src s1)
        | (_, s1) => s1)

/-- BEACON_SEND (R414, R424): a connected relay's beacon, on the advertising channels in turn, and a listen for the
request that may follow it. -/
def execBeaconSend (s : State) : Host.Outcome State Fault Refusal :=
  done (let l := (items s).link
    if linkOff s || l.nodeKind ≠ 1 || s.link.st ≠ 3 || !passed s s.link.beaconAt (msTicks l.beaconMs) then s
    else
      let room := decide ((children s).length < l.childMax)
      let payload := bytesLE 2 l.netId ++ bytesLE 1 s.link.depth ++ bytesLE 1 (b2n room) ++ s.link.root
        ++ bytesLE 8 (linkPlan s).map
      let ch := at0 (linkPlan s).adv (s.link.beaconSn.toNat % 3)
      let t := linkNow s + (items s).radio.txLeadUs
      let frame := beaconFrame s payload
      slotRx ((t + phyAir 0 frame.length + 250) % 2 ^ 32) (100 + headUs) ch 0
        (slotTx (t % 2 ^ 32) ch 0 frame
          (modLink (fun x => { x with beaconAt := s.time.ticks, beaconSn := x.beaconSn + 1 }) s)))

/-- ORPHAN_TIMEOUT (R424). -/
def execOrphanTimeout (s : State) : Host.Outcome State Fault Refusal :=
  done (if (s.link.st == 1 || s.link.st == 2) && !linkOff s
      && passed s s.link.lostSince (secTicks (3600 * (items s).link.orphanH)) then setLevel Src.orphan true s
    else s)

/-! ### Events and slots (R426 to R430, R435) -/

/-- A new event of a connection: its counter, channel and next instant. -/
def beginEvent (c : Nat) (s : State) : State :=
  modConn c (fun x =>
    let n := if x.begun then x.event + 1 else x.event
    { x with
      event := n, begun := true, chLast := hopChannel x n.toNat, nextAt := x.nextAt + intervalTicks x
      inEvent := true, heard := false, eventAt := s.time.ticks, anchor := x.nextAt, guardUs := guardUs s x }) s

/-- The event ends; a LINK_SEND with a fragment still in the connection's queue has missed its slot (Table 12.8). A slot
without a valid frame counts as missed; too many of them, or too wide a guard, lose a sleepy connection (R430). -/
def endEvent (c : Nat) (s0 : State) : State :=
  let s := (((nth s0.link.conns c).queue.filterMap (·.job)).eraseDups).foldl (fun t j => sendDone j none t) s0
  let x := nth s.link.conns c
  let n := if x.heard then 0 else x.missed + 1
  let s1 := modConn c (fun y => { y with inEvent := false, listening := false, missed := n }) s
  let s2 := if x.heard then s1 else modLink (fun l => { l with slotMissed := satInc l.slotMissed }) s1
  let wide := decide (x.interval * 1000000 < 4 * x.guardUs)
  if x.sleepy && (decide ((items s).link.sleepyLossN ≤ n) || wide) then loseConn c s2 else s2

/-- The side that speaks first in an event: the central of an active connection, the node of a sleepy one. -/
def speaksFirst (x : Conn) : Bool := if x.sleepy then x.kind == 1 || x.kind == 3 else x.central

/-- The instant of a connection's next event on the link timer. -/
def eventInstant (s : State) (x : Conn) : Nat := (linkNow s + (x.nextAt - s.time.ticks) * 15625 / 512) % 2 ^ 32

/-- An event falls due: a TERM, a pending frame or a poll is sent, or the guard listen opens. -/
def runEvent (c : Nat) (s : State) : State :=
  let x := nth s.link.conns c
  let t := eventInstant s x
  let s1 := dropForwards c (beginEvent c s)
  let y := nth s1.link.conns c
  match x.termDue with
  | some reason =>
    (match sendOn c 6 false false [BitVec.ofNat 8 reason] none t s1 with
     | (s2, some _) => linkSync (freeConn c s2)
     | (s2, none) => s2)
  | none =>
    if speaksFirst x then
      if (nextFrame y).isSome then sendNext c t s1
      else match sendOn c 3 true false [] none t s1 with
        | (s2, some n) => modConn c (fun z => { z with sent := some { type := 3, sn := some n } }) s2
        | (s2, none) => s2
    else
      let g := y.guardUs
      slotRx ((t + 2 ^ 32 - g) % 2 ^ 32) (2 * g + headUs) y.chLast y.phy (modConn c (fun z => { z with listening := true }) s1)

/-- The event of a connection is due: its instant less the lead of start-up and guard. -/
def eventDue (s : State) (x : Conn) : Bool :=
  let lead := (items s).radio.txLeadUs + (if speaksFirst x then 0 else guardUs s x)
  x.kind != 0 && !x.inEvent && decide (x.nextAt ≤ s.time.ticks + usTicks lead)

/-- The frame that waits for its ACK is given up: a forwarded one goes back to the head of the queue with its SN (R420), but
from the full queue of a sleepy child it is dropped as the oldest (R428); a LINK_SEND has missed its slot (Table 12.8). -/
def giveUpSent (c : Nat) (s : State) : State :=
  let x := nth s.link.conns c
  let s1 := modConn c (fun y => { y with sent := none }) s
  match x.sent with
  | none => s1
  | some f =>
    match f.job with
    | some j => sendDone j none s1
    | none =>
      if !f.fwd then s1
      else if x.sleepy && x.kind == 2 && decide (4 ≤ x.queue.length) then
        modLink (fun l => { l with childQDrop := satInc l.childQDrop }) s1
      else modConn c (fun y => { y with queue := { f with tries := 0 } :: y.queue }) s1

/-- EVENT_ANSWER_TIMEOUT (R427): the expected answer does not begin; the frame is sent again with the same SN, up to
RETRY_N times, and then, or after EVT_MAX_MS, the event ends. -/
def execEventAnswerTimeout (c : Nat) (s : State) : Host.Outcome State Fault Refusal :=
  done (let x := nth s.link.conns c
    let l := (items s).link
    if linkOff s || !x.inEvent then s
    else match x.sent with
      | some f =>
        if f.tries < l.retryN && !passed s x.eventAt (msTicks l.evtMaxMs) then
          let r := sendOn c f.type true (!x.queue.isEmpty) f.payload f.sn ((linkNow s + 300) % 2 ^ 32) s
          if r.2.isSome then modConn c (fun y => { y with sent := some { f with tries := f.tries + 1 } }) r.1 else r.1
        else endEvent c (giveUpSent c s)
      | none => endEvent c s)

/-- GUARD_LISTEN_TIMEOUT (R429, R430, R442): the guard listen ends without the peer's first frame. -/
def execGuardListenTimeout (c : Nat) (s : State) : Host.Outcome State Fault Refusal :=
  done (let x := nth s.link.conns c
    if !linkOff s && x.inEvent && x.listening then endEvent c s else s)

/-- SUPERVISION_TIMEOUT (R430): an active connection without a valid frame for SUPERV. -/
def execSupervisionTimeout (c : Nat) (s : State) : Host.Outcome State Fault Refusal :=
  done (let x := nth s.link.conns c
    if !linkOff s && x.kind != 0 && !x.sleepy && passed s x.seenAt (msTicks (10 * x.superv)) then loseConn c s else s)

/-! ### Frames on connections -/

/-- GYALE_DATA_RX: a DATA frame is delivered and acknowledged (Table 12.4, R427, R428). -/
def execGyaleDataRx (x : GyaleRx) (s : State) : Host.Outcome State Fault Refusal :=
  done (acceptOn x 3 (fun _ _ t => t) s)

/-- The sensitivity of a PHY in dBm (R436). -/
def sensitivity (phy : Nat) : Int := (if phy % 2 = 0 then -109 else -103) - (if phy / 2 % 2 = 1 then 3 else 0)

/-- GYALE_ACK_RX (R427, R428, R436): the frame sent is acknowledged, the margin goes to the power loop, a sleepy node
adjusts its next slot, and the event goes on while either side has more. -/
def execGyaleAckRx (x : GyaleRx) (s : State) : Host.Outcome State Fault Refusal :=
  done (acceptOn x 4 (fun c h t =>
      let y := nth t.link.conns c
      match y.sent with
      | none => t
      | some f =>
        if h.payload.length ≠ 4 || f.sn ≠ some (leAt h.payload 0 1) then t
        else
          let rssi : Int := (leAt h.payload 1 1 : Int) - 150
          let margin := rssi - sensitivity y.phy
          let adj := signed 16 (leAt h.payload 2 2)
          let d : Int := adj * 512 / 15625
          let t1 := modConn c (fun z =>
            { z with sent := none, nextAt := if y.sleepy then ((z.nextAt : Int) + d).toNat else z.nextAt }) t
          let t2 := powerLoop (linkPlan t).port margin t1
          let t3 := if y.kind = 1 then
              modLink (fun l => { l with margin := margin, parentRssi := leAt h.payload 1 1 }) t2
            else t2
          let t4 := match f.job with
            | some j => sendDone j (some f.frag) t3
            | none => t3
          let t5 := dropForwards c t4
          if (nextFrame (nth t5.link.conns c)).isSome && eventOpen t c then sendNext c ((linkNow t + 300) % 2 ^ 32) t5
          else if h.more && eventOpen t c then answerListen c (linkNow t) t5
          else endEvent c t5) s)

/-- GYALE_TERM_RX (R430): the connection ends at once; the parent's leads to SCAN (Table 12.6). -/
def execGyaleTermRx (x : GyaleRx) (s : State) : Host.Outcome State Fault Refusal :=
  done (if linkOff s then s
    else match checkFrame x false s with
      | (.pass h, s1) =>
        if h.type ≠ 6 then s1
        else match connOf s1 h.src with
          | none => s1
          | some c =>
            let k := (nth s1.link.conns c).kind
            parentGone k (modLink (fun l => { l with rxOk := l.rxOk + 1 }) (freeConn c s1))
      | (_, s1) => s1)

/-! ### Routed messages (R421, R422, R431 to R434) -/

/-- The originator entry of an address under a slot, or a free one. -/
def origSlot (s : State) (addr : List Byte) (slot : Nat) : Option Nat :=
  ((List.range 8).find? fun i => let o := nth s.link.orig i; o.used && o.addr == addr && o.slot == slot)
    <|> ((List.range 8).find? fun i => !(nth s.link.orig i).used)

/-- A message complete: the radio-counter record of KIND 3, and the hold of one frame time (R422, R437, R446). -/
def takeMessage (orig : List Byte) (slot ofcnt : Nat) (msg : List Byte) (airUs : Nat) (s : State) : State :=
  modRadio (fun r =>
    { r with held := r.held ++ [{
        master := 4, role := slotRole s slot, slot := slot, msg := msg, at_ := s.time.ticks
        until_ := s.time.ticks + usTicks airUs, orig := orig }] })
    (writeCounter 0x1C 3 slot ofcnt orig s)

/-- A message of an originator under a slot, by the base of its fragments, is discarded whole and counted, once however many
of its fragments come (R422). -/
def failReasm (orig : List Byte) (slot base : Nat) (s : State) : State :=
  if s.link.given.contains (orig, slot, base) then s
  else modLink (fun l =>
    { l with
      reasm := l.reasm.filter fun r => !(r.orig == orig && r.slot == slot && r.base == base)
      given := keepNewest 16 (l.given ++ [(orig, slot, base)])
      reasmFail := satInc l.reasmFail }) s

/-- The reassemblies of an originator under a slot that a newer message leaves incomplete (R422). -/
def dropReasm (orig : List Byte) (slot base : Nat) (s : State) : State :=
  (s.link.reasm.filter fun r => r.orig == orig && r.slot == slot && r.base != base).foldl (fun t r =>
    failReasm orig slot r.base t) s

/-- A fragment for this node (R421, R422). A failed IMIC is discarded and counted in MIC_FAIL (R8; log 37, DEDUCED). -/
def takeFragment (p : List Byte) (airUs : Nat) (s : State) : State :=
  let orig := slice p 1 8
  let ofcnt := leAt p 17 4
  let okey := leAt p 21 1
  let idx := leAt p 22 1 % 16
  let count := leAt p 22 1 / 16 + 1
  let body := p.drop 23
  let ct := body.take (body.length - 8)
  let sl := nth s.keys.slots okey
  let ad := (0 : Byte) :: (p.take 22).drop 1
  let op := ccmOpen sl.key (linkNonce orig ofcnt 2) ad ct (body.drop (body.length - 8))
  if !(within 1 64 ct.length && decide (idx < count)) then s
  else if !(slotUsable s okey && sl.attr.use.testBit 5 && op.2) then modLink (fun l => { l with micFail := satInc l.micFail }) s
  else match origSlot s orig okey with
    | none => s
    | some i =>
      let e := nth s.link.orig i
      let base := (ofcnt + 2 ^ 32 - idx) % 2 ^ 32
      if e.used && ofcnt ≤ e.ofcnt then failReasm orig okey base s
      else
        let s1 := dropReasm orig okey base (modLink (fun l => { l with orig := put l.orig i ⟨true, orig, okey, ofcnt⟩ }) s)
        let old := s1.link.reasm.find? fun r => r.orig == orig && r.slot == okey
        let fits := match old with
          | some r => r.next == idx && r.count == count
              && !passed s r.since (secTicks (items s).link.reasmS)
          | none => idx == 0
        if !fits then failReasm orig okey base s1
        else
          let got := (if idx = 0 then [] else (old.map (·.body)).getD []) ++ op.1
          let clear := modLink (fun l => { l with reasm := l.reasm.filter fun r => !(r.orig == orig && r.slot == okey) }) s1
          if idx + 1 = count then takeMessage orig okey ofcnt got airUs clear
          else modLink (fun l =>
            { l with reasm := l.reasm ++ [{
                orig := orig, base := base, count := count, slot := okey, next := idx + 1, body := got
                since := if idx = 0 then s.time.ticks else (old.map (·.since)).getD s.time.ticks }] }) clear

/-- A routed payload with its TTL one lower. -/
def lowerTtl (p : List Byte) : List Byte := bytesLE 1 (leAt p 0 1 % 16 - 1) ++ p.drop 1

/-- A flood put into the queues of the sleepy children but the one it came from (R432). -/
def floodSleepy (c : Nat) (q : List Byte) (s : State) : State :=
  ((children s).filter fun k => k != c && (nth s.link.conns k).sleepy).foldl (fun t k =>
    queueFrame k { type := 5, payload := q, fwd := true } t) s

/-- A second copy of a flood comes in the cycle of the first, over a connection of a lower index: the flood is taken from
this one, its forwards being those of this copy (R445). -/
def takeLower (c : Nat) (p : List Byte) (s : State) : State :=
  let mine := fun (q : List Byte) => slice q 1 8 == slice p 1 8 && leAt q 17 4 == leAt p 17 4
  if s.link.fwds.any fun f => !f.uplink && mine f.payload then
    let q := lowerTtl p
    let s1 := modLink (fun l =>
      { l with
        lastFlood := l.lastFlood.map fun f => { f with conn := c }
        conns := l.conns.map fun x => { x with queue := x.queue.filter fun f => !(x.sleepy && f.fwd && mine f.payload) } }) s
    if leAt p 0 1 % 16 = 0 then
      modLink (fun l => { l with fwds := l.fwds.filter fun f => !mine f.payload, ttlEnd := satInc l.ttlEnd }) s1
    else floodSleepy c q (modLink (fun l =>
      { l with fwds := l.fwds.map fun f => if mine f.payload then { f with payload := q, from_ := c } else f }) s1)
  else s

/-- A FLOOD or UPLINK that passed Table 12.4 (R431 to R433). -/
def routed (uplink : Bool) (c : Nat) (h : LinkHdr) (airUs : Nat) (s : State) : State :=
  let p := h.payload
  if p.length < 32 then s
  else
    let key := (slice p 1 8, leAt p 17 4)
    let fdst := slice p 9 8
    let ttl := leAt p 0 1 % 16
    if s.link.seen.contains key then
      let s1 := modLink (fun l => { l with seenDrop := satInc l.seenDrop }) s
      if !uplink && s.link.lastFlood.any (fun f => f.key == key && f.at_ == s.time.ticks && decide (c < f.conn)) then
        takeLower c p s1
      else s1
    else
      let s1 := modLink (fun l =>
        { l with
          seen := keepNewest 64 (l.seen ++ [key])
          lastFlood := if uplink then l.lastFlood else some ⟨key, s.time.ticks, c⟩ }) s
      let own := fdst == serial s
      let s2 := if own || fdst == allOnes8 then takeFragment p airUs s1 else s1
      if own || (items s).link.nodeKind ≠ 1 then s2
      else if ttl = 0 then
        (if uplink then s2 else modLink (fun l => { l with ttlEnd := satInc l.ttlEnd }) s2)
      else if forwardStops s2 then pauseRelay 1 s2
      else
        let d := drawMs 0 63 s2
        let q := lowerTtl p
        let s3 := modLink (fun l => { l with fwds := l.fwds ++ [⟨uplink, q, c, s.time.ticks + d.1⟩] }) d.2
        if uplink then s3 else floodSleepy c q s3

/-- GYALE_FLOOD_RX (R431, R432, R445). -/
def execGyaleFloodRx (x : GyaleRx) (s : State) : Host.Outcome State Fault Refusal :=
  done (acceptOn x 5 (fun c h t => routed false c h (rxAirUs x) t) s)

/-- GYALE_UPLINK_RX (R431, R433). -/
def execGyaleUplinkRx (x : GyaleRx) (s : State) : Host.Outcome State Fault Refusal :=
  done (acceptOn x 7 (fun c h t => routed true c h (rxAirUs x) t) s)

/-- One forward whose delay has passed: a flood goes to the active connections but the one it came on (sleepy children
hold it already), an uplink to the parent (R432 to R434). -/
def forwardNow (f : Forward) (s : State) : State :=
  if forwardStops s then pauseRelay 1 s
  else if f.uplink then
    match parentConn s with
    | some c => queueFrame c { type := 7, payload := f.payload, fwd := true, after_ := f.at_ } s
    | none => modLink (fun l => { l with noRoute := satInc l.noRoute }) s
  else ((List.range 16).filter fun c =>
      let x := nth s.link.conns c
      x.kind != 0 && !x.sleepy && c != f.from_).foldl
    (fun t c => queueFrame c { type := 5, payload := f.payload, fwd := true, after_ := f.at_ } t) s

/-- RELAY_FORWARD: the relay delays that have passed (R432, R433). -/
def execRelayForward (s : State) : Host.Outcome State Fault Refusal :=
  done (if linkOff s then s
    else
      let due := s.link.fwds.filter fun f => decide (f.at_ ≤ s.time.ticks)
      due.foldl (fun t f => forwardNow f t)
        (modLink (fun l => { l with fwds := l.fwds.filter fun f => !decide (f.at_ ≤ s.time.ticks) }) s))

/-- REASSEMBLY_TIMEOUT (R422): messages not complete within REASM_S. -/
def execReassemblyTimeout (s : State) : Host.Outcome State Fault Refusal :=
  done (let old := fun (r : Reasm) => passed s r.since (secTicks (items s).link.reasmS)
    (s.link.reasm.filter old).foldl (fun t r => failReasm r.orig r.slot r.base t) s)

/-! ### Jobs (Table 12.8) -/

/-- The fragments of a message (R421): at most sixteen of at most 64 bytes. -/
def fragments : (fuel : Nat) → List Byte → List (List Byte)
  | 0, _ => []
  | n + 1, m => if m.length ≤ 64 then [m] else m.take 64 :: fragments n (m.drop 64)

/-- The routed part of a fragment (Table 12.5). -/
def routedPart (s : State) (ttl : Nat) (fdst : List Byte) (ofcnt idx count : Nat) (body : List Byte) : List Byte :=
  let slot := (items s).link.e2eSlot
  let head := fun (t : Nat) => bytesLE 1 t ++ serial s ++ fdst ++ bytesLE 4 ofcnt ++ bytesLE 1 slot
  let r := ccmSeal (nth s.keys.slots slot).key (linkNonce (serial s) ofcnt 2) (head 0) body 8
  head ttl ++ bytesLE 1 (idx + 16 * (count - 1)) ++ r.1 ++ r.2

/-- A message of this node put on its way (R421, R433): its fragments, each under the next OFCNT, in the queues of the
connections it takes. False where no counter values are reserved. -/
def sendMessage (uplink : Bool) (ttl : Nat) (fdst msg : List Byte) (job : Option Nat) (s : State) : State × Bool :=
  let frs := fragments 16 msg
  let n := frs.length
  let first := s.link.ofcnt + 1
  let l := (items s).link
  if 2 ^ 32 - 1 < s.link.ofcnt + n then (setLevel Src.fcntExhausted true s, false)
  else if s.link.ofcntRes < s.link.ofcnt + n then
    (reserve 0x1C 2 l.e2eSlot (s.link.ofcnt + l.ctrReserve) Src.fcntReserveFail s, false)
  else
    let conns := if uplink then (parentConn s).toList
      else (List.range 16).filter fun c => (nth s.link.conns c).kind != 0
    let s1 := noteSpent (modLink (fun x => { x with ofcnt := x.ofcnt + n }) s)
    let s2 := match job with
      | some j => modLink (fun x => { x with sends := x.sends ++ [⟨j, List.replicate n conns.length, first⟩] }) s1
      | none => s1
    (frs.zipIdx.foldl (fun t f =>
      let p := routedPart s ttl fdst (first + f.2) f.2 n f.1
      conns.foldl (fun t c =>
        queueFrame c { type := if uplink then 7 else 5, payload := p, job := job, frag := f.2 } t) t) s2, true)

/-- The completion record of a queue's job, while its ring holds it. -/
def recordOf (s : State) (q seq : Nat) : Option (List Byte) :=
  ((nth s.fabric.queues q).ring.find? fun c => c.seq == seq).map (·.bytes)

/-- The job with a queue's sequence number has not completed. -/
def jobLives (s : State) (q seq : Nat) : Bool :=
  (s.fabric.jobs ++ s.fabric.stalled).any fun j => j.queue == q && j.seq.toNat == seq

/-- An answer to a mesh command kept until it can go. -/
def oweAnswer (x : OwedAnswer) (s : State) : State := modLink (fun l => { l with owed := l.owed ++ [x] }) s

/-- The answers to mesh commands that can go now, sent to ROOT as UPLINK messages with TTL_UP (R433). One whose
completion record its ring has lost is not sent. -/
def sendOwed (s : State) : State :=
  s.link.owed.foldl (fun t x =>
    let gone := modLink (fun l => { l with owed := l.owed.erase x }) t
    let send := fun (msg : List Byte) =>
      let r := sendMessage true (items t).link.ttlUp t.link.root msg none gone
      if r.2 then r.1 else modLink (fun l => { l with owed := l.owed ++ [x] }) r.1
    match x.job with
    | none => send x.msg
    | some (q, n) => match recordOf t q n with
      | some b => send b
      | none => if jobLives t q n then t else gone) s

/-- CONNECTION_EVENT (R426, R427): an active connection's anchor falls due. -/
def execConnectionEvent (c : Nat) (s : State) : Host.Outcome State Fault Refusal :=
  done (let x := nth s.link.conns c
    if !linkOff s && !x.sleepy && eventDue s x then runEvent c (sendOwed s) else s)

/-- SLEEPY_SLOT (R428): a sleepy connection's slot falls due. -/
def execSleepySlot (c : Nat) (s : State) : Host.Outcome State Fault Refusal :=
  done (let x := nth s.link.conns c
    if !linkOff s && x.sleepy && eventDue s x then runEvent c (sendOwed s) else s)

/-- The link counts as free for a LINK_SEND: its first transmit opportunity, an uplink's on the parent connection, lies
within 1 s (R440). -/
def linkFreeSoon (s : State) (d : Desc) : Bool :=
  s.link.st != 3 || (List.range 16).any fun c =>
    let x := nth s.link.conns c
    x.kind != 0 && (d.arg 0 % 2 == 1 || parentConn s == some c) && (x.inEvent || decide (x.nextAt ≤ s.time.ticks + 32768))

/-- LINK_SEND (R433, R440). The message is the whole of its input granules (log 17, DEDUCED). -/
def linkSendJob (j : Job) (s : State) : State :=
  let d := j.desc
  let msg := inputBytes s j 0
  let uplink := d.arg 0 % 2 == 0
  if s.link.sends.any (fun x => x.job == j.id) then s
  else if s.link.st ≠ 3 || linkOff s || !(within 1 1024 msg.length) then
    engineEnds j.id { status := .refusedPolicy } s
  else
    let fdst := if uplink then s.link.root else bytesLE 4 (d.arg 1) ++ bytesLE 4 (d.arg 2)
    (sendMessage uplink (if uplink then (items s).link.ttlUp else d.arg 0 / 2 % 16) fdst msg (some j.id) s).1

/-- LINK_SEND: the running job of the tag has its effect. -/
def execLinkSend (tag : Nat) (s : State) : Host.Outcome State Fault Refusal :=
  done (onJob tag 12 1 linkSendJob s)

/-- A TERM to the parent, and SCAN. -/
def leaveParent (reason : Nat) (s : State) : State :=
  match parentConn s with
  | some c =>
    enterScan (freeConn c (sendOn c 6 false false [BitVec.ofNat 8 reason] none ((linkNow s + 300) % 2 ^ 32) s).1)
  | none => if s.link.st = 0 then s else enterScan s

/-- LINK_LEAVE (Table 12.8): TERM reason 1 to the parent, then SCAN. -/
def linkLeaveJob (j : Job) (s : State) : State :=
  if !jobActorOk j.desc j.actor then engineEnds j.id { status := .refusedRole } s
  else engineEnds j.id { status := .done } (if linkOff s then s else leaveParent 1 s)

/-- LINK_LEAVE: the running job of the tag has its effect. -/
def execLinkLeave (tag : Nat) (s : State) : Host.Outcome State Fault Refusal :=
  done (onJob tag 12 2 linkLeaveJob s)

/-- LINK_RESCAN (Table 12.8): SCAN at once. -/
def linkRescanJob (j : Job) (s : State) : State :=
  if !jobActorOk j.desc j.actor then engineEnds j.id { status := .refusedRole } s
  else
    let s1 := match parentConn s with
      | some c => freeConn c s
      | none => s
    engineEnds j.id { status := .done } (if linkOff s then s1 else enterScan s1)

/-- LINK_RESCAN: the running job of the tag has its effect. -/
def execLinkRescan (tag : Nat) (s : State) : Host.Outcome State Fault Refusal :=
  done (onJob tag 12 3 linkRescanJob s)

/-- A register of the LINK block (Table 12.9). -/
def readLink (s : State) (off : Nat) : Nat :=
  let l := s.link
  let live := ((List.range 16).filter fun c => (nth l.conns c).kind != 0).length
  let par := (parentConn s).map fun c => nth l.conns c
  if off = 0x000 then
    l.st + 8 * b2n ((items s).link.nodeKind == 1) + 16 * b2n ((items s).link.nodeKind == 0) + 32 * b2n l.planF + 64 * l.depth
      + 1024 * live + 2 ^ 15 * b2n l.relayPaused
  else if off = 0x004 then ((par.map fun c => leAt c.addr 0 4)).getD 0
  else if off = 0x008 then ((par.map fun c => leAt c.addr 4 4)).getD 0
  else if off = 0x00C then l.parentRssi + 256 * (l.margin.emod 256).toNat + 65536 * (((par.map (·.missed)).getD 0) % 65536)
  else if off = 0x010 then l.fcnt
  else if off = 0x014 then l.ofcnt
  else if off = 0x018 then l.rxOk.toNat
  else if off = 0x01C then l.micFail.toNat + 65536 * l.replay.toNat
  else if off = 0x020 then l.dupSn.toNat + 65536 * l.seenDrop.toNat
  else if off = 0x024 then l.relayed.toNat + 65536 * l.ttlEnd.toNat
  else if off = 0x028 then l.noRoute.toNat + 65536 * l.childQDrop.toNat
  else if off = 0x02C then l.connLost.toNat + 65536 * l.slotMissed.toNat
  else if off = 0x030 then l.reasmFail.toNat + 65536 * l.cmdConflict.toNat
  else if off = 0x034 then l.crcFail.toNat + 65536 * l.energySkip.toNat
  else if 0x100 ≤ off && off < 0x300 then
    let c := nth l.conns ((off - 0x100) / 32)
    match off % 32 with
    | 0x00 => leAt c.addr 0 4 | 0x04 => leAt c.addr 4 4
    | 0x08 => c.kind + 4 * b2n c.sleepy + 8 * b2n c.central + 2 ^ 8 * c.hopInc + 2 ^ 16 * c.hopBase + 2 ^ 24 * c.chLast
    | 0x0C => c.interval | 0x10 => c.event.toNat + 65536 * (c.missed % 65536) | 0x14 => c.guardUs
    | 0x18 => if c.kind = 0 then 0 else (s.time.ticks - c.seenAt) * 1000 / 32768
    | _ => c.peerPpm + 256 * min c.queue.length 7
  else if 0x300 ≤ off && off < 0x380 then
    let o := nth l.orig ((off - 0x300) / 16)
    match off % 16 with
    | 0 => leAt o.addr 0 4 | 4 => leAt o.addr 4 4 | 8 => o.slot + 2 ^ 31 * b2n o.used | _ => o.ofcnt
  else if 0x400 ≤ off && off < 0x600 then
    let n := nth l.neigh ((off - 0x400) / 16)
    match off % 16 with
    | 0 => leAt n.addr 0 4 | 4 => leAt n.addr 4 4 | 8 => n.fcnt
    | _ => n.sn.getD 0 + 256 * (if n.used then (connOf s n.addr).getD 31 else 0) + 2 ^ 31 * b2n n.used
  else if off = 0x600 then ((par.map (·.map)).getD 0) % 2 ^ 32
  else if off = 0x604 then ((par.map (·.map)).getD 0) / 2 ^ 32
  else 0

end Sys2Proof.Machine
end

