-- ==== Sys2Proof/Machine/Journal.lean ====
section
/-! DEFINITION. The journal's jobs and events (chapter 10): writing and committing, rewrites, reading, reclaim,
relocation and refresh, power-down of the flash, the wear loop and the mount's scan. -/

namespace Sys2Proof.Machine

/-! ### Writing and committing -/

/-- A housekeeping job submitted by the Mason core to the first enabled H queue that names engine 10 (log 24, DESIGN
CHOICE). -/
def houseSubmit (op arg : Nat) (s : State) : State :=
  match (List.range 16).find? (fun i => queueEnabled s (48 + i) && (queueEngines s (48 + i)).testBit 10) with
  | some i => chipJob 0x08 (48 + i) { opcode := op, engine := 10, args := [BitVec.ofNat 32 arg, 0, 0, 0] } [] s
  | none => s

/-- One that already waits is not doubled (log 24, DESIGN CHOICE). -/
def houseJob (op arg : Nat) (s : State) : State :=
  if s.fabric.jobs.any fun j => j.desc.engine == 10 && j.desc.opcode == op && j.desc.arg 0 == arg && j.phase != .running
  then s else houseSubmit op arg s

/-- RECLAIM asked for while the erased sectors number ERASED_MIN + 2 or fewer (R358). -/
def askReclaim (s : State) : State :=
  if s.boot.running && s.journal.mounted && decide ((erasedSectors s).length ≤ (items s).journal.erasedMin + 2)
      && (oldestSector s).isSome then houseJob 4 0 s else s

/-- The stream of a WRITE job. -/
def writeStream (j : Job) : Nat := j.desc.arg 0 % 8

/-- The offset of the clock-quality code in a record of a stream (Tables 9.2, 9.5, 10.6 to 10.9, 14.6). -/
def qualityAt (stream : Nat) : Nat := at0 [0x3A, 0x02, 0x03, 0x1D, 0x01, 0x01, 0x18, 0x03] stream

/-- A record submitted while a reseat held its lock carries the code current now (R62). -/
def requality (s : State) (j : Job) (r : List Byte) : List Byte :=
  let q := qualityAt (writeStream j)
  if s.boot.reseatSince ≤ j.at_ ∧ j.at_ < s.boot.unlockAt then
    r.take q ++ bytesLE 1 (quality s (writeStream j)) ++ r.drop (q + 1)
  else r

/-- The records of a WRITE job: the one the chip attached, the load-profile record of a stream-5 job without an input, or those
of its input granule (R345, R364, log 24, DESIGN CHOICE). -/
def writeRecords (s : State) (j : Job) : List (List Byte) :=
  let n := bits 5 3 (j.desc.arg 0)
  let st := writeStream j
  if !j.payload.isEmpty then [requality s j j.payload]
  else if st = 5 && 192 ≤ at0 j.desc.inHeads 0 && j.preds.isEmpty then [loadProfile s]
  else
    let b := inputBytes s j 0
    (List.range n).map fun i => slice b (i * recSize st) (recSize st)

/-- A WRITE job's record count is one of 1 to the per-page number (R345). -/
def writeOk (j : Job) : Bool := within 1 (perPage (writeStream j)) (bits 5 3 (j.desc.arg 0))

/-- The other ready WRITE jobs that share the page, oldest first, as long as their records fit: the first that does not
fit ends the page, which keeps admission order (R345; log 24, DEDUCED). -/
def joinWrites (s : State) (j : Job) : List Job :=
  ((s.fabric.jobs.filter fun x => x.id != j.id && x.phase == .ready && x.queue == j.queue && x.desc.engine == 10
    && x.desc.opcode == 1 && writeStream x == writeStream j && writeOk x).foldl (fun (acc : List Job × Bool) x =>
      let used := (j :: acc.1).foldl (fun n y => n + bits 5 3 (y.desc.arg 0)) 0
      if acc.2 && decide (used + bits 5 3 (x.desc.arg 0) ≤ perPage (writeStream j)) then (acc.1 ++ [x], true)
      else (acc.1, false)) ([], true)).1

/-- The journal may begin a page or a housekeeping job: it is mounted, the pending slot is empty (R346), no step of its own is
left and no reseat runs (R62). -/
def journalFree (s : State) : Bool :=
  s.journal.mounted && s.journal.pend.isNone && !trigHeld s && (flashIdle s || (stagingNow s && stageOp s))

/-- The page of a WRITE, and of the WRITEs that share it, put into the pending slot; its program follows (R345, R346,
Table 10.10 step 1). -/
def fillPending (j : Job) (s : State) : State :=
  let st := writeStream j
  let more := joinWrites s j
  let recs := (j :: more).flatMap (writeRecords s)
  let s1 := more.foldl (fun t x => modJob x.id (fun y => { y with phase := .running, startedAt := t.time.ticks }) t) s
  let s2 := if st = 5 && j.payload.isEmpty then clearStepSum 5 (modInteg (fun i => { i with lpFlags := 0 }) s1) else s1
  pushWork [.place] (holdPage (newPage s st (nth s.journal.heads st + 1) recs) ((j :: more).map (·.id)) s2)

/-- A journal job takes the flash interface, with VBAT as measured before its operations (Table 2.6). -/
def beginJob (mv : Nat) (j : Job) (s : State) : State :=
  modJournal (fun x => { x with job := some j.id, copied := 0 }) (takeVbat mv s)

/-- WRITE (R345 to R347, R358): an inline reclaim where fewer than ERASED_MIN sectors are erased, then the page. A record
count that the stream's page does not allow ends ABORTED (log 38, DESIGN CHOICE). -/
def writeJob (mv : Nat) (j : Job) (s : State) : State :=
  if !jobActorOk j.desc j.actor then engineEnds j.id { status := .refusedRole } s
  else if !writeOk j then engineEnds j.id { status := .aborted } s
  else if !journalFree s then s
  else
    let t := beginJob mv j s
    match (if (erasedSectors t).length < (items t).journal.erasedMin then oldestSector t else none) with
    | some v => beginReclaim v [.write] t
    | none => fillPending j t

/-- WRITE: the running job of the tag has its effect. -/
def execWrite (tag : Nat) (mv : Nat) (s : State) : Host.Outcome State Fault Refusal :=
  done (onJob tag 10 1 (writeJob mv) s)

/-- What the commit of a page makes true: its billing slot is journaled (R313), its counter reservations stand
(R396). -/
def commitEffects (img : List Byte) (s : State) : State :=
  let st := leAt img 1 1 % 16
  (pageRecords img).foldl (fun t r =>
    if st = 1 then billJournaled r t else if st = 7 then counterCommitted r t else t) s

/-- The pending page is committed (Table 10.10 steps 8 and 9): a record page with its effects and its jobs, a copy counted
for its job. A sector that a page has failed in is retired next (R348, R359). -/
def commitPage (p : PendingPage) (s : State) : State :=
  let st := leAt p.image 1 1 % 16
  let seq := leAt p.image 4 4
  let s1 := journalUnlock (modJournal (fun j =>
    { j with
      pend := none, op := .none, rewrites := if p.counted then satInc j.rewrites else j.rewrites
      failing := [], work := j.failing.map FlashTask.retire ++ j.work }) s)
  if st = 13 then s1
  else
    let s2 := indexPage st seq p.addr s1
    if p.own then
      askReclaim (p.jobs.foldl (fun t id => engineEnds id { status := .done, result := seq % 2 ^ 20 } t)
        (commitEffects p.image s2))
    else modJournal (fun j => { j with copied := j.copied + 1 }) s2

/-- Ticks of a number of microseconds, rounded up. -/
def upTicks (us : Nat) : Nat := ceilDiv (us * 512) 15625

/-- The end of the settle: COMMIT is read twice, both exact (Table 10.10 steps 6 to 9, R348). -/
def settleEnd (mv : Nat) (s : State) : State :=
  match s.journal.op, s.journal.pend with
  | .settle, some p =>
    let s1 := takeVbat mv (touchFlash (drew 1 s))
    if !counted s s.journal.opAt (upTicks (items s).journal.commitSettleUs) then s
    else if flashRead s (p.addr + 0xFA) 4 == commitWord && flashRead s1 (p.addr + 0xFA) 4 == commitWord then commitPage p s1
    else pageFailed p (journalUnlock (modJournal (fun j => { j with op := .none }) s1))
  | _, _ => s

/-- The jobs of the pending page end BROWNOUT, and the page waits in its slot to be rewritten (R82, R350). -/
def pendBrownout (s : State) : State :=
  ((s.journal.pend.map (·.jobs)).getD []).foldl (fun t id => engineEnds id { status := .brownout } t)
    (modJournal (fun j => { j with pend := j.pend.map fun p => { p with jobs := [], waitVbat := true } }) s)

/-- The brownout of the mount's operation: its job has no such ending (R365), so the operation is done again above
FLASH_MIN + 100 mV; a page is voided and rewritten (R350, log 38, DEDUCED). -/
def mountBrownout (op : FlashOpSt) (s : State) : State :=
  let s1 := journalUnlock (freePeak (modJournal (fun j => { j with op := .none }) s))
  match s.journal.pend with
  | some p =>
    if s.journal.work.head? == some .verify || s.journal.work.head? == some .settle then
      modJournal (fun j =>
        { j with waitVbat := true, work := [.void p.addr false, .rewrite false] ++ j.work.drop 1 }) s1
    else modJournal (fun j => { j with waitVbat := true, op := op }) s1
  | none => modJournal (fun j => { j with waitVbat := true, op := op }) s1

/-- A mount's steps wait in the work. -/
def mountWorks (s : State) : Bool :=
  s.journal.work.any fun t => match t with
    | .mounted .. => true
    | .summary _ => true
    | _ => false

/-- The brownout of a flash operation (R82, R350). A WRITE cut in its inline reclaim leaves its page in the pending slot,
with no address as yet (log 37, DEDUCED). -/
def flashBrownout (s : State) : State :=
  let s1 := cutOp s
  if stageOp s then giveUp .brownout s1
  else if mountWorks s then mountBrownout s.journal.op s1
  else if (s.journal.pend.map (·.own)).getD false then pendBrownout (dropWork s1)
  else match workJob s with
    | some j => if j.desc.opcode = 1 then pendBrownout (modJournal (fun x => { x with work := x.work.drop 1 })
        (fillPending j (dropWork s1))) else giveUp .brownout s1
    | none => dropWork s1

/-- BROWNOUT_REWRITE (R350): VBAT has stayed above FLASH_MIN + 100 mV for 10 ms, and is measured as `mv`. The page's bytes at
its old address are voided, and it is programmed anew. -/
def execBrownoutRewrite (mv : Nat) (s : State) : Host.Outcome State Fault Refusal :=
  done (match s.journal.pend with
    | some p =>
      let t := takeVbat mv s
      if p.waitVbat && flashIdle s && s.journal.mounted && !(winOf s .journal).fenced && !s.faults.grave
          && decide ((items s).power.flashMin + 100 < mv) && counted s s.journal.vbatLowAt (msTicks 10) then
        pushWork (.rewrite true :: [] |> fun l => if p.addr < s.journal.size then .void p.addr false :: l else l) t
      else s
    | none => s)

/-- The time in which the operation in progress must end: twice what the SFDP table declares as its longest, or 1 s for an
erase without a declared maximum (R338). -/
def busyLimit (s : State) : Nat :=
  match s.lintel.peak, s.journal.eraseMs with
  | .erase, some ms => msTicks (2 * ms)
  | .erase, none => secTicks 1
  | _, _ => upTicks (2 * s.journal.progUs)

/-- FLASH_BUSY_TIMEOUT (R338): an operation in progress has not ended in time. -/
def execFlashBusyTimeout (s : State) : Host.Outcome State Fault Refusal :=
  done (if (s.lintel.peak = .program || s.lintel.peak = .erase) && counted s (max s.journal.opAt s.journal.readyAt) (busyLimit s)
    then raise Src.flashBusyTimeout s else s)

/-- FLASH_IDLE_POWER_DOWN (R337): deep power-down in power mode 0, NV_PWR off in power mode 1. -/
def execFlashIdlePowerDown (s : State) : Host.Outcome State Fault Refusal :=
  done (let c := (items s).journal
    let idle := s.journal.op == .none && (onEngine s 10).isEmpty && s.journal.pwr && !s.journal.dpd
      && counted s s.journal.accessAt (upTicks c.dpdIdleUs)
    if !idle then s
    else if c.pwrMode = 0 then modJournal (fun j => { j with dpd := true }) s
    else modJournal (fun j => { j with pwr := false }) s)

/-! ### Reading -/

/-- Every copy of a page fails the first check of Table 10.11: the page is treated as absent (R353). -/
def pageAbsent (s : State) (stream seq : Nat) : Bool :=
  (copiesOf s stream seq).all fun r => readPage s r == .absent

/-- The SEQ that a READ asks for: by SEQ, newest, oldest kept, next after SEQ (Table 10.13). -/
def readTarget (s : State) (stream mode seq : Nat) : Option Nat :=
  let l := (keptSeqs s stream).filter (!pageAbsent s stream ·)
  let best := fun (p : Nat → Nat → Bool) (l : List Nat) => l.foldl (fun (m : Option Nat) x => match m with
    | none => some x
    | some y => if p x y then some x else some y) none
  match mode with
  | 0 => if l.contains seq then some seq else none
  | 1 => best (fun x y => decide (y < x)) l
  | 2 => best (fun x y => decide (x < y)) l
  | _ => best (fun x y => decide (x < y)) (l.filter (seq < ·))

/-- The first copy that passes: its page, bits corrected, place in the order, and the data of the copies before it that
failed (R354). -/
def firstGood (s : State) : List PageRef → (n : Nat) → (bad : List (List Byte)) →
    Option (PageRef × List Byte × Nat × Nat × List (List Byte))
  | [], _, _ => none
  | r :: rest, n, bad =>
    match readPage s r with
    | .ok page c => some (r, page, c, n, bad)
    | .failed d => firstGood s rest (n + 1) (bad ++ [d])
    | _ => firstGood s rest (n + 1) bad

/-- A page read for a job or a restoration (R7, R8, R353, R354, R362): the copy that passes with its bits corrected and
its place in the order. A copy before it that failed with the same data is a divergence; a page of which no copy passes
is discarded from every reader and counted. -/
def fetchPage (st seq : Nat) (s : State) : Option (List Byte × Nat × Nat) × State :=
  match firstGood s (copiesOf s st seq) 0 [] with
  | none => if pageAbsent s st seq then (none, s) else
    (none, raise Src.readCheckFailed (modJournal (fun x => { x with checkFail := satInc x.checkFail })
      (unindex (fun r => r.stream == st && r.seq == seq) (drew 1 s))))
  | some (r, page, c, n, bad) =>
    let diverge := bad.any fun d => slice d 1 239 == slice page 1 239
    let s1 := raiseIf diverge Src.dupDiverge (modJournal (fun x =>
      { x with
        corrected := satAdd x.corrected c
        dupDiverge := if diverge then satInc x.dupDiverge else x.dupDiverge }) (drew 1 s))
    (some (page, c, n), if 2 ≤ c then houseJob 6 r.addr s1 else s1)

/-- READ (R353, R354, R362): the corrected page, or CHECK_FAILED where no copy passes. -/
def readJob (j : Job) (s : State) : State :=
  let st := j.desc.arg 0 % 8
  if !(jobActorOk j.desc j.actor && hasRight s (.readJournal st) j.actor.role) then
    engineEnds j.id { status := .refusedRole } s
  else if !s.journal.mounted then s
  else onFlash (fun s1 =>
    match readTarget s st (bits 9 8 (j.desc.arg 0)) (j.desc.arg 1) with
    | none => engineEnds j.id { status := .doneFlagged, qflags := 1, result := j.desc.arg 1 % 2 ^ 20 } s1
    | some seq =>
      match fetchPage st seq s1 with
      | (none, s2) => engineEnds j.id { status := .checkFailed, result := seq % 2 ^ 20 } s2
      | (some (page, c, n), s2) =>
        let q := 2 * b2n (decide (0 < c)) + 4 * b2n (decide (0 < n))
        engineEnds j.id { status := if q = 0 then .done else .doneFlagged, qflags := q,
                          result := seq % 2 ^ 20, out := page } s2) s

/-- READ: the running job of the tag has its effect. -/
def execRead (tag : Nat) (s : State) : Host.Outcome State Fault Refusal :=
  done (onJob tag 10 2 readJob s)

/-- RESULT of a RAW_READ (R355). -/
def rawResult (raw : List Byte) : Nat :=
  let c := bchCorrect (slice raw 1 243) (slice raw 0xF4 6)
  let msg := (c.map (·.1)).getD (slice raw 1 243)
  (c.map (·.2)).getD 7 + 8 * b2n (crc32 (msg.take 239) == BitVec.ofNat 32 (leAt msg 239 4))
    + 16 * b2n (slice raw 0xFA 4 == commitWord) + 32 * b2n (crc8 (msg.take 13) == at0 msg 13)

/-- RAW_READ (R355). -/
def rawReadJob (j : Job) (s : State) : State :=
  let a := bits 23 8 (j.desc.arg 0) * 256
  if !jobActorOk j.desc j.actor then engineEnds j.id { status := .refusedRole } s
  else if !(decide (0x020000 ≤ a) && decide (a < s.journal.size)) then
    engineEnds j.id { status := .refusedPolicy } s
  else
    onFlash (fun t =>
      let raw := flashRead s a 256
      engineEnds j.id { status := .done, result := rawResult raw, out := raw } (drew 1 t)) s

/-- RAW_READ: the running job of the tag has its effect. -/
def execRawRead (tag : Nat) (s : State) : Host.Outcome State Fault Refusal :=
  done (onJob tag 10 3 rawReadJob s)

/-! ### Reclaim, relocation and refresh -/

/-- A housekeeping job begins where it may: the Mason's own (R365), and a free interface. Sectors that are still to be retired
come first (R359). -/
def houseStart (tag op mv : Nat) (f : Job → State → State) (s : State) : State :=
  onJob tag 10 op (fun j t =>
    if !jobActorOk j.desc j.actor then engineEnds j.id { status := .refusedRole } t
    else if !journalFree t then t
    else let u := f j (beginJob mv j t); pushWork (u.journal.failing.map FlashTask.retire) u) s

/-- A reclaim or relocation of a sector (R359, R361). -/
def reclaimJob (victim : State → Option Sector) (_ : Job) (s : State) : State :=
  match victim s with
  | none => pushWork [.house .reclaim] s
  | some v => beginReclaim v [.house .reclaim] s

/-- RECLAIM (R359). -/
def execReclaim (tag mv : Nat) (s : State) : Host.Outcome State Fault Refusal :=
  done (houseStart tag 4 mv (reclaimJob oldestSector) s)

/-- RELOCATE (R361). -/
def execRelocate (tag mv : Nat) (s : State) : Host.Outcome State Fault Refusal :=
  done (houseStart tag 5 mv (reclaimJob coldestSector) s)

/-- A page has reached REFRESH_DAYS at a day (R362). -/
def pageAged (s : State) (day : Nat) (r : PageRef) : Bool :=
  decide ((items s).journal.refreshDays ≤ (day + 65536 - leAt (flashRead s (r.addr + 8) 2) 0 2) % 65536)

/-- The sectors that hold an aged kept page without a newer copy. -/
def agedSectors (s : State) (day : Nat) : List Nat :=
  (s.journal.sectors.filter fun x => x.sseq != 0 && (keptIn s x.idx).any (pageAged s day)).map (·.idx)

/-- The pages of a REFRESH (R362): the page at an address, or for 0 the kept pages of every sector that holds an aged
page. -/
def refreshPages (s : State) (a : Nat) : List PageRef :=
  if a = 0 then (agedSectors s (today s)).flatMap (keptIn s)
  else s.journal.index.filter fun r => r.addr == a && isKept s r.stream r.seq

/-- JOURNAL_REFRESH (R362). -/
def execJournalRefresh (tag mv : Nat) (s : State) : Host.Outcome State Fault Refusal :=
  done (houseStart tag 6 mv (fun j t =>
    let a := j.desc.arg 0 % 2 ^ 24
    pushWork ((refreshPages t a).map FlashTask.copy ++ [.house (.refresh (a == 0))]) t) s)

/-- The end of a housekeeping job (R359, R361, R362). -/
def houseEnd (k : HouseKind) (s : State) : State :=
  let n := s.journal.copied
  let s1 := askReclaim (modJournal (fun j =>
    { j with
      job := none
      refreshBits := if k = .refresh false then satAdd j.refreshBits n else j.refreshBits
      refreshAge := if k = .refresh true then satAdd j.refreshAge n else j.refreshAge }) s)
  match runningId s s.journal.job with
  | some j => engineEnds j.id { status := .done, result := n % 2 ^ 16 } s1
  | none => s1

/-- The wear loop at the roll to a governor day (R361) and that day's age refresh (R362). -/
def wearDay (day : Nat) (s : State) : State :=
  let c := (items s).journal
  let l := eraseCounts s
  let hi := l.foldl max 0
  let lo := l.foldl min hi
  let spread := hi - lo
  let want : Int := if c.spreadHigh < spread then s.journal.reloc + 1
    else if spread < c.spreadLow then (s.journal.reloc : Int) - 1 else s.journal.reloc
  let reloc := (clamp want c.relocMin c.relocMax).toNat
  let onBound := decide (want ≠ (reloc : Int))
  let run := boundRun s.journal.clampRun onBound
  let s1 := modJournal (fun j =>
    { j with
      reloc := reloc, clampRun := run, clamped := decide (8 ≤ run), clampCount := boundCount j.clampCount run
      atMin := decide (want < c.relocMin), atMax := decide ((c.relocMax : Int) < want) }) s
  let s2 := setLevel Src.wearSpread (decide (2000 ≤ spread)) s1
  let s3 := (List.range reloc).foldl (fun t _ => houseSubmit 5 0 t) s2
  if (agedSectors s3 day).isEmpty then s3 else houseJob 6 0 s3

/-! ### Mount -/

/-- The generations of the defect table that pass in a copy: generation and sectors (R363). SEQ is the page's own, after
correction. -/
def defectGens (s : State) (copy : Nat) : List (Nat × List Nat) :=
  (List.range 16).filterMap fun p =>
    let raw := flashRead s (defectBase s copy + p * 256) 256
    let msg := ((bchCorrect (slice raw 1 243) (slice raw 0xF4 6)).map (·.1)).getD []
    match checkPage raw 0x1D (leAt msg 3 4) with
    | .ok page _ => some (defectOf page)
    | _ => none

/-- The highest generation of a list of defect tables. -/
def topDefect (l : List (Nat × List Nat)) : Option (Nat × List Nat) :=
  l.foldl (fun m y => match m with
    | some x => if x.1 < y.1 then some y else some x
    | none => some y) none

/-- The mount's choice of the defect table; the other copy is brought up to it once the pending slot is empty (R346,
R363). -/
def mountDefects (s : State) : State :=
  let gens := [defectGens s 0, defectGens s 1]
  match topDefect gens.flatten with
  | none => raise Src.defectTableLost (modJournal (fun j => { j with defects := [], defectGen := 0 }) s)
  | some top =>
    let lacks := (List.range 2).filter fun c => !(((gens[c]?).getD []).any (·.1 == top.1))
    let put := fun (l : List FlashTask) => l.takeWhile (· != .pending) ++ [.pending] ++ lacks.map FlashTask.defect
      ++ (l.dropWhile (· != .pending)).drop 1
    raiseIf (!lacks.isEmpty) Src.defectDiverge (modJournal (fun j =>
      { j with
        defects := top.2, defectGen := top.1, diverge := j.diverge || !lacks.isEmpty
        work := if lacks.isEmpty then j.work else put j.work }) s)

/-- One page of the mount's scan (R356): void, torn, header failure, or indexed. A torn page and one whose HCRC fails are
voided; a page of another format, or of no stream, is neither voided nor indexed (log 38, DEDUCED). -/
def mountPage (a : Nat) (s : State) : State :=
  let h := flashRead s a 16
  let c := flashRead s (a + 0xFA) 4
  if h.all (· == 0xFF) && c.all (· == 0xFF) then s
  else
    let s1 := modJournal (fun j => { j with wpage := a / 256 % 16 + 1 }) s
    if at0 h 0 != 0xFF then s1
    else if c != commitWord then modJournal (fun j =>
      { j with mountTorn := j.mountTorn + 1, work := j.work ++ [.void a true] }) s1
    else if crc8 (slice h 1 13) != at0 h 14 then modJournal (fun j =>
      { j with mountHdr := j.mountHdr + 1, checkFail := satInc j.checkFail, work := j.work ++ [.void a false] }) s1
    else if leAt h 1 1 / 16 = 1 ∧ leAt h 1 1 % 16 < 8 then indexPage (leAt h 1 1 % 16) (leAt h 4 4) a s1 else s1

/-- The sectors in use, in ascending SSEQ. -/
def inUseSectors (s : State) : List Sector :=
  (s.journal.sectors.filter (·.sseq != 0)).mergeSort fun a b => decide (a.sseq ≤ b.sseq)

/-- The mount's scan (R356): sectors, index and write position, and the voids to be programmed before what follows. -/
def mountScan (s : State) : State :=
  let l := ((List.range (sectorCount s)).map (firstSector + ·)).filter fun i => !s.journal.defects.contains i
  let s1 := modJournal (fun j =>
    { j with
      sectors := l.map (sectorOf s), index := [], heads := Vector.replicate 8 0, wsector := none, wpage := 0
      mountTorn := 0, mountHdr := 0, mountRewrote := false, work := [] }) s
  let s2 := (inUseSectors s1).foldl (fun t sec =>
    (List.range 15).foldl (fun u p => mountPage (sec.idx * 0x1000 + p * 256) u)
      (modJournal (fun j => { j with wsector := some sec.idx, wpage := 0 }) t)) s1
  modJournal (fun j => { j with work := j.work ++ s.journal.work }) s2

/-- The pending slot at the mount (R356): a page already committed clears it with every effect of its commit, another is
rewritten; a slot whose check fails is discarded. A defect table goes to both copies where it is newer (log 38, DEDUCED). -/
def mountPending (s : State) : State :=
  match s.journal.pend with
  | none => s
  | some p =>
    let s1 := modJournal (fun j => { j with pend := none }) s
    let cur := flashRead s p.addr 256
    if !p.crcOk then raise Src.pendingLost s1
    else if leAt p.image 1 1 % 16 = 13 then
      let x := defectOf p.image
      if x.1 ≤ s.journal.defectGen then s1
      else pushWork [.defect 0, .defect 1] (modJournal (fun j => { j with defects := x.2, defectGen := x.1 }) s1)
    else if slice cur 0 1 == [0xFF] && slice cur 0xFA 4 == commitWord && slice cur 1 0xF9 == slice p.image 1 0xF9 then
      if p.own then commitEffects p.image s1 else s1
    else pushWork [.rewrite true] (modJournal (fun j =>
      { j with mountRewrote := true, pend := some { p with jobs := [], waitVbat := false, waitResume := false } }) s)

/-- Milliseconds of a mount: those of its reads, and those of its programs so far. -/
def mountTime (ms : Nat) (s : State) : Nat := ms + (s.time.ticks - s.journal.mountAt) * 1000 / 32768

/-- The mount-summary event put into the pending slot (Table 10.7 type 5). A slot that still holds its page keeps it, and no
summary is written (R346). -/
def mountSummary (ms : Nat) (s : State) : State :=
  if s.journal.pend.isSome then pushWork [.mounted ms none] s
  else
    let j := s.journal
    let rec_ := eventRecord s 5 (bytesLE 2 j.mountTorn ++ bytesLE 2 j.mountHdr ++ bytesLE 1 (b2n j.mountRewrote)
      ++ bytesLE 3 0 ++ bytesLE 4 (mountTime ms s))
    let seq := nth j.heads 4 + 1
    pushWork [.place, .mounted ms (some seq)] (holdPage (newPage s 4 seq [rec_]) [] (clearStepSum 4 s))

/-- The newest record of a stream that satisfies a test, in a page that passes its checks (R357). -/
def newestRecord (s : State) (stream : Nat) (p : List Byte → Bool) : Option (List Byte) :=
  ((streamSeqs s stream).mergeSort fun a b => decide (b ≤ a)).findSome? fun q =>
    match firstGood s (copiesOf s stream q) 0 [] with
    | some (_, page, _) => (pageRecords page).reverse.find? p
    | none => none

/-- The original or rewritten copy of a page: the one whose place is that of its commit. -/
def originalOf (s : State) (r : PageRef) : Option PageRef :=
  (copiesOf s r.stream r.seq).find? fun x => (at0 (flashRead s x.addr 16) 2).getLsbD 0

/-- The place of a page in the order in which pages are programmed. -/
def placeOf (s : State) (r : PageRef) : Nat :=
  ((s.journal.sectors.find? fun x => r.inSector x.idx).map (·.sseq)).getD 0 * 16 + r.addr / 256 % 16

/-- Commit order of pages of two streams (R357): by the places of their originals, or where one is left only as a copy, by
the DT32 of their commits (log 24, DESIGN CHOICE). -/
def committedBy (s : State) (a b : PageRef) : Bool :=
  match originalOf s a, originalOf s b with
  | some x, some y => decide (placeOf s x ≤ placeOf s y)
  | _, _ => decide (leAt (flashRead s a.addr 16) 0x0A 4 ≤ leAt (flashRead s b.addr 16) 0x0A 4)

/-- The newest copy of the newest page of a stream that satisfies a test. -/
def newestOf (s : State) (stream : Nat) (p : PageRef → Bool) : Option PageRef :=
  (s.journal.index.filter fun r => r.stream == stream && p r).foldl (fun (m : Option PageRef) r => match m with
    | none => some r
    | some x => if x.seq ≤ r.seq then some r else some x) none

/-- The newest page of the index that satisfies a test, in commit order (R357). -/
def newestPage (s : State) (p : PageRef → Bool) : Option PageRef :=
  (List.range 8).foldl (fun (m : Option PageRef) st => match m, newestOf s st p with
    | some a, some b => if committedBy s a b then some b else some a
    | m, none => m
    | none, b => b) none

/-! ### Registers -/

/-- A word of the JOURNAL registers (Table 10.14). -/
def readJournal (s : State) (off : Nat) : Nat :=
  let j := s.journal
  let l := eraseCounts s
  let top := l.foldl max 0
  if 0x080 ≤ off && off < 0x100 then
    let st := (off - 0x080) / 16
    let kept := keptSeqs s st
    let newest := kept.foldl max 0
    match off % 16 with
    | 0 => newest
    | 4 => kept.foldl min newest
    | 8 => satNat 16 kept.length
    | _ => ((copiesOf s st newest).head?.map (·.addr)).getD 0
  else match off with
    | 0x000 => b2n j.mounted + 2 * b2n (!flashIdle s || !(onEngine s 10).isEmpty) + 4 * b2n j.pwr + 8 * b2n j.dpd
        + 16 * b2n j.pend.isSome + 32 * b2n (j.waitVbat || (j.pend.map (·.waitVbat)).getD false) + 64 * j.io
    | 0x004 => j.flashId
    | 0x008 => sectorCount s + j.defects.length * 2 ^ 16
    | 0x00C => (erasedSectors s).length + (j.wsector.getD 0) * 2 ^ 16
    | 0x010 => (j.wsector.map fun w => w * 0x1000 + j.wpage * 256).getD 0
    | 0x014 => satNat 16 j.mountMs + satNat 16 j.mountTorn * 2 ^ 16
    | 0x018 => topSseq s
    | 0x020 => l.foldl min top
    | 0x024 => top
    | 0x028 => j.reloc + 2 ^ 8 * b2n j.clamped + 2 ^ 9 * b2n j.atMin + 2 ^ 10 * b2n j.atMax
    | 0x02C => j.clampCount.toNat
    | 0x030 => j.torn.toNat
    | 0x034 => j.checkFail.toNat
    | 0x038 => j.corrected.toNat
    | 0x03C => j.refreshBits.toNat + j.refreshAge.toNat * 2 ^ 16
    | 0x040 => j.reclaims.toNat
    | 0x044 => j.rewrites.toNat
    | 0x048 => j.keepShort.toNat
    | 0x04C => j.dupDiverge.toNat
    | 0x100 => j.defectGen % 2 ^ 16 + j.defects.length * 2 ^ 16 + b2n j.diverge * 2 ^ 24
    | _ => 0

end Sys2Proof.Machine
end

