-- ==== Sys2Proof/Machine/TempEval.lean ====
section
/-! DEFINITION. The computations of the temperature and pressure channels (chapter 7): codes, resistance to
temperature, the result code of Table 7.3, and the bridge pressure. -/

namespace Sys2Proof.Machine

/-- A decimated output: round(2^23 × V_in / V_ref), saturated to ±(2^23 − 1) (R246). -/
def convCode (vin vref : Int) : Int :=
  let c := quot (8388608 * vin) vref
  if c < -8388607 then -8388607 else if 8388607 < c then 8388607 else c

/-- D = (A − B) / 2, rounded half away from zero (R247). -/
def convDiff (a b : Int) : Int := roundDiv (a - b) 2

/-- A code at an end of its range (Table 7.3, order 3). -/
def convSat (c : Int) : Bool := c == 8388607 || c == -8388607

/-- round(r_ref_mohm × d / 8388608) − lead_mohm, lead 0 for 4-wire (R249). -/
def resistance (t : TempItems) (n : Nat) (d : Int) : Int :=
  roundDiv (t.rRef * d) 8388608 - (if at0 t.wires n = 2 then ((at0 t.lead n : Nat) : Int) else 0)

/-- R_poly of R249 at T m°C, in mΩ × 10^30. CVD_B counts 10⁻¹² /°C², as IEC 60751 and the worked case need (log 8, DEDUCED). -/
def rPoly (t : TempItems) (r0 : Nat) (T : Int) : Int :=
  let base := 10 ^ 30 + t.cvdA * T * 10 ^ 15 + t.cvdB * T ^ 2 * 10 ^ 12
  r0 * (if T < 0 then base + t.cvdC * (T - 100000) * T ^ 3 else base)

/-- Bisection: of `[lo, lo + 2^n)`, the highest T with R_poly(T) at or below `r`, or `lo`. R_poly rises strictly over
−50 000 to 250 000 m°C for every coefficient of Table 7.5. -/
def bisect (t : TempItems) (r0 : Nat) (r : Int) : (n : Nat) → (lo : Int) → Int
  | 0, lo => lo
  | n + 1, lo =>
    let mid := lo + 2 ^ n
    if mid ≤ 250000 ∧ rPoly t r0 mid ≤ r * 10 ^ 30 then bisect t r0 r n mid else bisect t r0 r n lo

/-- The integer T from −50 000 to 250 000 that minimises |R_poly(T) − r_mohm|; on a tie the higher (R249). -/
def nearestT (t : TempItems) (r0 : Nat) (r : Int) : Int :=
  let lo := bisect t r0 r 19 (-50000)
  let dist : Int → Nat := fun T => (rPoly t r0 T - r * 10 ^ 30).natAbs
  if lo < 250000 ∧ dist (lo + 1) ≤ dist lo then lo + 1 else lo

/-- A channel's temperature: T plus CH_OFS_MC, saturated (R249). -/
def chanTemp (t : TempItems) (n : Nat) (r : Int) : Int := satInt 32 (nearestT t (at0 t.r0 n) r + at0 t.ofs n)

/-- The result code of a channel (Table 7.3, in the table's order). An abandoned conversion delivered no code, so orders 4
to 6 have nothing to judge. -/
def chanCode (t : TempItems) (n : Nat) (refFailed : Bool) (x : InputRes) : Nat :=
  let r := resistance t n (convDiff x.a x.b)
  if refFailed then 4
  else if x.limit || convSat x.a || convSat x.b then 1
  else if x.abandoned then 3
  else if ((at0 t.rOpen n : Nat) : Int) < r then 1
  else if r < ((at0 t.rShort n : Nat) : Int) then 2
  else if t.ofsMax < (x.a + x.b).natAbs then 3
  else 0

/-- The result code of the bridge (R255 and the orders of Table 7.3 that concern its conversions; log 7, DEDUCED). The
current is judged in each of its conversions. -/
def bridgeCode (t : TempItems) (x : InputRes) : Nat :=
  if x.ua.any (fun u => decide (u < t.pbIMin)) || convSat x.a || convSat x.b then 1
  else if x.ua.any (fun u => decide (t.pbIMax < u)) then 2
  else if x.abandoned || decide (t.ofsMax < (x.a + x.b).natAbs) then 3
  else 0

/-- The nominal and the measured reference voltage, nV × 2^23, from D against VREF 1.200 V (R254). -/
def refVolts (t : TempItems) (x : InputRes) : Int × Int :=
  ((t.excUa * t.rRef : Int) * 8388608, convDiff x.a x.b * 1200000000)

/-- The reference check fails: the two differ by more than REF_TOL_PM per mille (R254). A check abandoned by R264
did not pass, so it fails (log 37, DEDUCED). -/
def refFails (t : TempItems) (x : InputRes) : Bool :=
  let v := refVolts t x
  x.abandoned || decide ((t.refTol : Int) * v.1 < 1000 * (v.2 - v.1).natAbs)

/-- The deviation of a reference check, per mille (REF_DEV), rounded half away from zero. -/
def refDeviation (t : TempItems) (x : InputRes) : Int :=
  let v := refVolts t x
  satInt 16 (quot (1000 * (v.2 - v.1)) v.1)

/-- The pressure of R256: exact, rounded once, clamped to 32 bits. -/
def bridgePressure (t : TempItems) (tGas d : Int) : Nat :=
  let u := tGas - 20000
  let num := (t.p0 * 1000 + t.p0t * u) * 2 ^ 46 + (t.p1 * 1000 + t.p1t * u) * d * 2 ^ 23 + t.p2 * d ^ 2 * 1000
  (clamp (roundDiv num (1000 * 2 ^ 46)) 0 (2 ^ 32 - 1)).toNat

end Sys2Proof.Machine
end

