-- ==== Sys2Proof/Machine/Temperature.lean ====
section
/-! DEFINITION. The temperature and pressure channels (chapter 7): TEMP_TRIGGER, TEMP_SET, EXC_SETTLE_END,
CONVERSION_END and CH_PROBE. -/

namespace Sys2Proof.Machine

/-- A channel changed. -/
def modChan (n : Nat) (f : Chan → Chan) (s : State) : State := modTemp (fun t => { t with ch := upd t.ch n f }) s

/-- The set or probe in progress: its job is still on the engine. -/
def tempRun (s : State) : Option TempRun :=
  s.temp.run.filter fun r => (onEngine s 6).any fun j => j.id == r.job && j.phase == .running

/-- The run changed. -/
def modRun (f : TempRun → TempRun) (s : State) : State := modTemp (fun t => { t with run := t.run.map f }) s

/-- The inputs of a set: the used channels in ascending order, the reference where its check is due, the bridge
(R257). The reference is checked through a used channel's chain, so it needs one (R254). -/
def setPlan (t : TempItems) (refDue : Bool) : List Nat :=
  t.used ++ (if refDue && !t.used.isEmpty then [4] else []) ++ (if t.pbFitted = 1 then [5] else [])

/-- The ticks of D04 that a conversion lasts at least: 3 × OSR + 8 clocks of D17 (R245), OSR 64 in a probe (R259). -/
def convTicks (r : TempRun) : Nat := (3 * (if r.probe then 64 else r.cfg.osr) + 8) * 2 / 125

/-- The settle of an input in ticks of D04 (R248, R255, R259). -/
def settleTicks (r : TempRun) (input : Nat) : Nat :=
  if r.probe then 16 else if input = 5 then r.cfg.pbSettle else r.cfg.excSettle

/-- The run on its next input: channels, the bridge and a probe's input settle, the reference of a set converts at
once. -/
def beginInput (r : TempRun) (plan : List Nat) (s : State) : TempRun :=
  let n := plan.headD 0
  if n = 4 && !r.probe then
    { r with plan := plan, stage := .convA, dueAt := s.time.d04 + convTicks r, groups := 0, lastGroup := none,
             setDt := r.setDt <|> some s.time.dt }
  else { r with plan := plan, stage := .settle, dueAt := s.time.d04 + settleTicks r n, groups := 0, lastGroup := none }

/-- The flow record in force has none of BRIDGED, EMPTY, NO_VALID, CUTOFF and REVERSE (R253). -/
def flowPlain (s : State) : Bool := leAt s.shot.record 0 1 == 1 && leAt s.shot.record 2 2 % 32 == 0

/-- The run of a set as its dispatch leaves it: its configuration (R265) and the flow record before it (R253). -/
def setRun (j : Job) (s : State) : TempRun := { job := j.id, cfg := (items s).temp, flowOk := flowPlain s }

/-! ### The end of a set -/

/-- One used channel's delivery by R251. -/
def deliverChan (n code : Nat) (x : InputRes) (cfg : TempItems) (s : State) : State :=
  let c := nth s.temp.ch n
  if code = 0 then
    let r := resistance cfg n (convDiff x.a x.b)
    let t := chanTemp cfg n r
    setLevel (Src.sensorFault n) false (modChan n (fun c =>
      { c with stat := 0, failRun := 0, noisyRun := 0, lastOk := some (t, r.toNat), res := r.toNat, temp := t }) s)
  else
    let run := min 255 (c.failRun + 1)
    let noisy := if code = 3 then c.noisyRun + 1 else 0
    let fault := decide (cfg.confirm ≤ run)
    let held := if fault then (0, 0) else c.lastOk.getD (0, 0)
    let s1 := modChan n (fun c =>
      { c with
        stat := code + 8 + 16 * b2n fault, failRun := run, noisyRun := noisy
        res := held.2, temp := held.1 }) s
    let s2 := if fault then setLevel (Src.sensorFault n) true s1 else s1
    raiseIf (noisy == 16) Src.noisePersistT s2

/-- The result of a reference check (R254). -/
def deliverRef (cfg : TempItems) (x : InputRes) (s : State) : State :=
  let bad := refFails cfg x
  setLevel Src.refFault bad (modTemp (fun t =>
    { t with
      refFail := bad
      refDev := if x.abandoned then (Config.freeIndex (s.draws + 1) % 2 ^ 16 : Nat) - 32768 else refDeviation cfg x
      refLeft := if bad then 0 else cfg.refN - 1 }) s)

/-- The bridge's delivery (R255, R256): its FLAGS bits P_HELD and P_RANGE and its code. -/
def deliverBridge (cfg : TempItems) (x : InputRes) (s : State) : State × Nat × Nat :=
  let code := bridgeCode cfg x
  if code = 0 then
    let gas := (cfg.ofRole 3).map fun n => nth s.temp.ch n
    let tGas := match gas with
      | some c => if c.stat % 8 = 0 || c.stat.testBit 3 then c.temp else cfg.pbTDef
      | none => cfg.pbTDef
    let p := bridgePressure cfg tGas (convDiff x.a x.b)
    let out := decide (p < cfg.pMin) || decide (cfg.pMax < p)
    let s1 := setLevel Src.pressFault false (modTemp (fun t =>
      { t with pressure := p, lastP := some p, pFail := 0 }) s)
    (raiseIf out Src.pressRange s1, 0x20 * b2n out, code)
  else
    let run := min 255 (s.temp.pFail + 1)
    let fault := decide (cfg.confirm ≤ run)
    let s1 := modTemp (fun t => { t with pFail := run, pressure := if fault then 0 else t.lastP.getD 0 }) s
    (if fault then setLevel Src.pressFault true s1 else s1, 0x10, code)

/-- The supply and return channels are both OK: ΔT (R252). -/
def deltaT (cfg : TempItems) (s : State) : Option Int :=
  match cfg.ofRole 1, cfg.ofRole 2 with
  | some a, some b =>
    let x := nth s.temp.ch a
    let y := nth s.temp.ch b
    if x.stat = 0 && y.stat = 0 then some (x.temp - y.temp) else none
  | _, _ => none

/-- The swapped-sensor test of a heat meter (R253). -/
def swapTest (cfg : TempItems) (flowOk : Bool) (s : State) : State :=
  match deltaT cfg s with
  | none => s
  | some d =>
    if meterKind s != 1 || !flowOk then s
    else if d < -(cfg.swapDt : Int) then
      let n := satInc s.temp.neg
      let s1 := modTemp (fun t => { t with neg := n, pos := 0 }) s
      if cfg.swapN ≤ n.toNat then setLevel Src.sensorsSwapped true (modTemp (fun t => { t with swapped := true }) s1)
      else s1
    else if 0 ≤ d then
      let n := satInc s.temp.pos
      let s1 := modTemp (fun t => { t with neg := 0, pos := n }) s
      if cfg.swapN ≤ n.toNat then
        setLevel Src.sensorsSwapped false (modTemp (fun t => { t with swapped := false }) s1)
      else s1
    else s

/-- D of an input's pair of conversions; of a pair that was abandoned none is stated, so it is free (log 37, DESIGN
CHOICE). -/
def diffOf (s : State) (x : InputRes) : Int :=
  if x.abandoned then (Config.freeIndex s.draws % 2 ^ 24 : Nat) - 8388608 else convDiff x.a x.b

/-- The temperature record (Table 7.4). -/
def tempRecord (s : State) (r : TempRun) (flags pStat : Nat) : List Byte :=
  let chans := (List.range 4).map fun n => nth s.temp.ch n
  let dp := if r.cfg.pbFitted = 1 then diffOf s (nth r.res 5) else 0
  padTo 64 0 (bytesLE 1 1 ++ bytesLE 1 flags ++ bytesLE 2 s.temp.setSeq.toNat
    ++ bytesLE 8 (r.setDt.getD 0).toNat ++ (chans.flatMap fun c => bytesLE 1 c.stat)
    ++ (chans.flatMap fun c => bytesInt 4 c.temp) ++ (chans.flatMap fun c => bytesLE 4 c.res)
    ++ bytesInt 4 ((deltaT r.cfg s).getD 0) ++ bytesLE 4 s.temp.pressure ++ bytesInt 4 dp ++ bytesLE 1 pStat)

/-- The current record becomes the job's output granule, PUBLISHED, and the previous one's mark goes (R257). -/
def publishTemp (j : Job) (s : State) : State :=
  let old := s.temp.current
  let s1 := modTemp (fun t => { t with current := j.outs.head? }) s
  let s2 := match j.outs.head? with
    | some g => modGran g (fun x => { x with published := true }) s1
    | none => s1
  match old with
  | some g => if j.outs.head? == some g then s2
              else releaseGran g (modGran g (fun x => { x with published := false }) s2)
  | none => s2

/-- A channel that the set does not use shows code 7 (Table 7.4) and delivers nothing. -/
def unusedChan (cfg : TempItems) (n : Nat) (s : State) : State :=
  if cfg.used.contains n then s else modChan n (fun c => { c with stat := 7, failRun := 0, noisyRun := 0, res := 0, temp := 0 }) s

/-- A set with every input measured: channels, bridge, swap test and record, and the job ended (R249 to R259). -/
def finishSet (r : TempRun) (s : State) : State :=
  let cfg := r.cfg
  let s1 := if r.refChecked then deliverRef cfg (nth r.res 4) s
    else modTemp (fun t => { t with refLeft := t.refLeft - 1 }) s
  let refBad := r.refChecked && refFails cfg (nth r.res 4)
  let s2 := cfg.used.foldl (fun t n => deliverChan n (chanCode cfg n refBad (nth r.res n)) (nth r.res n) cfg t)
    ((List.range 4).foldl (fun t n => unusedChan cfg n t) s1)
  let (s3, pFlags, pStat) := if cfg.pbFitted = 1 then deliverBridge cfg (nth r.res 5) s2 else (s2, 0, 0)
  let s4 := swapTest cfg r.flowOk s3
  let flags := 1 + 2 * b2n s4.temp.swapped + 4 * b2n (deltaT cfg s4).isSome + 8 * b2n r.refChecked + pFlags
    + 0x40 * b2n (cfg.pbFitted == 1)
  let s5 := modTemp (fun t => { t with sets := satInc t.sets, setSeq := t.setSeq + 1, run := none }) s4
  let rec_ := tempRecord s5 r flags pStat
  let s6 := modTemp (fun t => { t with record := rec_ }) s5
  let codes := (List.range 4).map fun n => (nth s6.temp.ch n).stat % 8
  let res := flags % 16 + (codes.zipIdx.foldl (fun acc c => acc + c.1 * 8 ^ c.2) 0) * 16
  let ok := cfg.used.all fun n => at0 codes n == 0
  engineEnds r.job { status := if ok then .done else .doneFlagged, result := res, out := rec_ } (drew 2 s6)

/-- A probe with its input measured (Table 7.6). -/
def finishProbe (r : TempRun) (input : Nat) (s : State) : State :=
  let x := nth r.res input
  let code := if input < 4 then chanCode r.cfg input false x
    else if input = 4 then (if refFails r.cfg x then 4 else 0) else bridgeCode r.cfg x
  let top := ((diffOf s x).emod (2 ^ 24)).toNat / 16
  engineEnds r.job { status := if code = 0 then .done else .doneFlagged, result := top }
    (drew 1 <| modTemp (fun t => { t with run := none }) s)

/-- The next input of the run, or its end. -/
def nextInput (r : TempRun) (s : State) : State :=
  match r.plan with
  | _ :: n :: rest =>
    modTemp (fun t => { t with run := some (beginInput r (n :: rest) s) }) s
  | [n] => if r.probe then finishProbe r n s else finishSet { r with plan := [] } s
  | [] => if r.probe then s else finishSet r s

/-! ### Sync pulses -/

/-- A burst starts: a conversion in progress is restarted, and abandoned at its fourth counted restart (R264). `key`
is the trigger-0 group the burst belongs to; a probe's burst has none. -/
def syncPulse (key : Option Nat) (s : State) : State :=
  match tempRun s with
  | none => s
  | some r =>
    if r.cfg.syncOnBurst = 0 || r.stage == .settle || r.plan.isEmpty then s
    else
      let counted := key.isNone || r.lastGroup != key
      let n := if counted then r.groups + 1 else r.groups
      let s1 := modTemp (fun t => { t with restarts := satInc t.restarts }) s
      let input := r.plan.headD 0
      if 4 ≤ n then nextInput { r with res := upd r.res input fun x => { x with abandoned := true } } s1
      else modRun (fun r =>
        { r with
          groups := n, lastGroup := if key.isSome then key else r.lastGroup, dueAt := s.time.d04 + convTicks r }) s1

/-! ### Commands -/

/-- TEMP_TRIGGER (R257): trigger 1 fires every TEMP_PERIOD_S while the chip runs; an instant that falls while a
reseat holds its lock fires at unlock (R140). -/
def execTempTrigger (s : State) : Host.Outcome State Fault Refusal :=
  let p := secTicks (items s).temp.periodS
  done (if s.boot.running && !s.boot.bare && !s.faults.grave && !trigHeld s && !trigStalled s 1
      && counted s (nth s.fabric.trigLast 1) p then fireTrigger 1 p s else s)

/-- TEMP_SET (R257): the dispatched job begins its set under the configuration and the flow record of its dispatch, or
ends at once where the image measures nothing. -/
def tempSetJob (j : Job) (s : State) : State :=
  let r := (tempRun s).getD (setRun j s)
  if !r.plan.isEmpty || r.job != j.id then s
  else
    let plan := setPlan r.cfg (s.temp.refLeft == 0)
    let r1 := { r with refChecked := plan.contains 4 }
    if plan.isEmpty then finishSet { r1 with setDt := some s.time.dt } s
    else modTemp (fun t => { t with run := some (beginInput r1 plan s) }) s

/-- TEMP_SET: the running job of the tag has its effect. -/
def execTempSet (tag : Nat) (s : State) : Host.Outcome State Fault Refusal :=
  done (onJob tag 6 1 tempSetJob s)

/-- EXC_SETTLE_END (R248, R255): the settle of a channel or of the bridge has lasted its ticks and conversion A
starts. -/
def execExcSettleEnd (s : State) : Host.Outcome State Fault Refusal :=
  done (match tempRun s with
    | none => s
    | some r =>
      if r.stage == .settle && !r.plan.isEmpty && decide (r.dueAt ≤ s.time.d04) then
        modRun (fun r =>
          { r with stage := .convA, dueAt := s.time.d04 + convTicks r, setDt := r.setDt <|> some s.time.dt }) s
      else s)

/-- The conversion register of an input takes a settled code; the reference has none (Table 7.7). -/
def noteConv (input : Nat) (isA : Bool) (code : Int) (s : State) : State :=
  let c : ConvReg := { code := code, settled := true }
  if input < 4 then modChan input (fun x => if isA then { x with convA := c } else { x with convB := c }) s
  else if input = 5 then modTemp (fun t => if isA then { t with pbA := c } else { t with pbB := c }) s
  else s

/-- CONVERSION_END (R245 to R247): the third decimated output of a conversion of `vin` against `vref`, with whether
the excitation met its compliance limit and the bridge current in µA. Conversion A is followed by B, B by the next
input. PB_I holds the current in its 12 bits. -/
def execConversionEnd (vin vref : Int) (limit : Bool) (ua : Nat) (s : State) : Host.Outcome State Fault Refusal :=
  done (match tempRun s with
    | none => s
    | some r =>
      let input := r.plan.headD 0
      let code := convCode vin vref
      if s.time.d04 < r.dueAt then s else
      let pb := fun (t : State) => if input = 5 then modTemp (fun x => { x with pbUa := satNat 12 ua }) t else t
      match r.stage with
      | .settle => s
      | .convA =>
        modRun (fun r =>
          { r with
            stage := .convB, dueAt := s.time.d04 + convTicks r, groups := 0, lastGroup := none
            setDt := r.setDt <|> some s.time.dt
            res := upd r.res input fun x => { x with a := code, limit := x.limit || limit, ua := x.ua ++ [ua] } })
          (noteConv input true code (pb s))
      | .convB =>
        nextInput { r with res := upd r.res input fun x =>
          { x with b := code, limit := x.limit || limit, ua := x.ua ++ [ua] } } (noteConv input false code (pb s)))

/-- CH_PROBE (R259): one input converted at OSR 64 after a 16-tick settle. Inputs 6 and 7 are none: the result is not OK
and its value is free (log 37, DESIGN CHOICE). -/
def chProbeJob (j : Job) (s : State) : State :=
  if (tempRun s).isSome then s
  else if !jobActorOk j.desc j.actor then engineEnds j.id { status := .refusedRole } s
  else
    let input := j.desc.arg 0 % 8
    if 6 ≤ input then
      engineEnds j.id { status := .doneFlagged, result := Config.freeIndex s.draws % 2 ^ 20 } (drew 1 s)
    else modTemp (fun t =>
      { t with run := some (beginInput { job := j.id, probe := true, cfg := (items s).temp } [input] s) }) s

/-- CH_PROBE: the running job of the tag has its effect. -/
def execChProbe (tag : Nat) (s : State) : Host.Outcome State Fault Refusal :=
  done (onJob tag 6 2 chProbeJob s)

/-- TEMP's registers (Table 7.7). -/
def readTemp (s : State) (off : Nat) : Nat :=
  let t := s.temp
  let conv := fun (c : ConvReg) => (c.code.emod (2 ^ 24)).toNat + 2 ^ 31 * b2n c.settled
  let r := tempRun s
  if off = 0x000 then
    let phase := match r with
      | none => 0
      | some r => match r.plan.headD 0, r.stage with
        | 4, _ => 4 | 5, _ => 5 | _, .settle => 1 | _, .convA => 2 | _, .convB => 3
    b2n r.isSome + 2 * phase + 16 * ((r.map fun r => r.plan.headD 0).getD 0) + 256 * b2n t.swapped
      + 512 * b2n t.refFail
  else if off = 0x004 then t.sets.toNat
  else if off = 0x008 then t.restarts.toNat
  else if off = 0x00C then t.neg.toNat + 256 * t.pos.toNat
  else if off = 0x010 then (List.range 4).foldl (fun acc n => acc + (nth t.ch n).stat * 256 ^ n) 0
  else if off = 0x014 then (List.range 4).foldl (fun acc n => acc + (nth t.ch n).failRun * 256 ^ n) 0
  else if off = 0x018 then (t.refDev.emod (2 ^ 16)).toNat
  else if 0x020 ≤ off && off < 0x060 then
    let c := nth t.ch ((off - 0x020) / 16)
    match off % 16 with
    | 0 => conv c.convA | 4 => conv c.convB | 8 => c.res | _ => (c.temp.emod (2 ^ 32)).toNat
  else if off = 0x060 then conv t.pbA
  else if off = 0x064 then conv t.pbB
  else if off = 0x068 then t.pbUa
  else if off = 0x06C then t.pressure
  else if 0x100 ≤ off && off < 0x140 then leAt t.record (off - 0x100) 4
  else 0

end Sys2Proof.Machine
end

