-- ==== Sys2Proof/Machine/Shot.lean ====
section
/-! DEFINITION. The transducer front end, the capture units, the shot sequencer and the flow computation (chapters 4 to
6): SHOT_TRIGGER to SCALE_STALE. -/

namespace Sys2Proof.Machine

/-- The pair in progress changed. -/
def modPair (f : PairRun → PairRun) (s : State) : State := modShot (fun x => { x with run := x.run.map f }) s

/-! ### Trigger 0 and SHOT_PAIR -/

/-- A pair that fell due `late` ticks ago, while a reseat held its lock, is delayed from then on (R54, R120). -/
def heldSince (late id : Nat) (s : State) : State :=
  if s.time.ticks - late ≤ s.boot.unlockAt then modJob id (fun j => { j with readyAt := s.time.ticks - late }) s else s

/-- Trigger 0's next instant: PER after the last one, moved by its jitter (R210). -/
def shotInstant (s : State) : Nat := nth s.fabric.trigLast 0 + msTicks s.shot.per + s.shot.jitter

/-- The instants of trigger 0 move on past the one that has come. -/
def shotMoves (s : State) : State :=
  let (n, s1) := drawUpTo (items s).shot.jitterMs s
  modFabric (fun f => { f with trigLast := put f.trigLast 0 (nth s.fabric.trigLast 0 + msTicks s.shot.per) })
    (modShot (fun x => { x with per := x.perNext, jitter := msTicks n }) s1)

/-- The SHOT_PAIR job of an instant of trigger 0: path 1's; where path 1 is fenced, path 2's; where every path is, none
(R525). -/
def shotSubmit (instant : Nat) (s : State) : State :=
  let t := at0 (items s).fabric.trig 0
  let held := heldSince (s.time.d04 - instant) s.fabric.nextId
  match livePaths s with
  | [] => s
  | 0 :: _ => held (submitTrigger 0 s)
  | _ => held (chipJob 0x14 t.queue (templateOf s (items s).shot.shot2Tpl) [] s)

/-- SHOT_TRIGGER: trigger 0's instant (R210). One that falls while a reseat holds its lock fires at unlock (R54). -/
def execShotTrigger (s : State) : Host.Outcome State Fault Refusal :=
  done (if !s.boot.running || trigHeld s || trigStalled s 0 || s.time.d04 < shotInstant s then s
  else shotSubmit (shotInstant s) (shotMoves s))

/-- A plumb check is due on a path (R222). -/
def plumbDueNow (s : State) (p : Nat) : Bool :=
  let x := nth s.shot.paths p
  let m := (pathItems s p).plumbPeriodMin
  x.plumbDue || (m != 0 && passed s x.plumbAt (secTicks (60 * m)))

/-- SHOT_PAIR: a dispatched job begins its pair, in the order its number gives (R209); path 2's first direction lies
PATH_GAP_US after path 1's last one (R207). A fenced path or capture unit
ends it FENCED (R197, R238); a path that the meter does not use, REFUSED_POLICY (log 20, DESIGN CHOICE). -/
def shotPairJob (j : Job) (s : State) : State :=
  let p := j.desc.arg 0 % 2
  if (shotRun s).isSome then s
  else if pathCount s ≤ p then engineEnds j.id { status := .refusedPolicy } s
  else if pathFenced s p || captureFenced s then engineEnds j.id { status := .fenced } s
  else
    let x := nth s.shot.paths p
    let due := if p = 1 then max s.time.ticks (s.shot.dirEndAt + wholeTicks (items s).shot.pathGapUs) else s.time.ticks
    modShotPath p (fun y => { y with pairNo := y.pairNo + 1 })
      (modShot (fun y => { y with
        pairCount := y.pairCount + 1
        run := some { job := j.id, path := p, upFirst := x.pairNo % 2 == 0, plumbDue := plumbDueNow s p, dueAt := due,
                      zeroUsed := x.zeroOfs, startDt := s.time.dt, startTick := bootTicks s } }) s)

/-- SHOT_PAIR: the running job of the tag has its effect. -/
def execShotPair (tag : Nat) (s : State) : Host.Outcome State Fault Refusal :=
  done (onJob tag 4 1 shotPairJob s)

/-! ### Line checks -/

/-- A line of a path changed. -/
def modLine (p : Nat) (isUp : Bool) (f : LineSt → LineSt) (s : State) : State :=
  modPath p (fun x => if isUp then { x with up := f x.up } else { x with down := f x.down }) s

/-- One line check taken into the registers and the confirmation count; `extra` is an overcurrent of the direction,
which counts as one failed check of the line (R149, R153, R155, R165). Its code. The capacitance of a check that timed
out is a free value (log 20, DESIGN CHOICE). -/
def checkLine (p : Nat) (isUp extra : Bool) (o : LineObs) (s : State) : State × Nat :=
  let it := pathItems s p
  let code := lineCode it isUp o
  let pf := match o.counts with
    | some c => satNat 16 (linePf it c)
    | none => Config.freeIndex s.draws % 2 ^ 16
  let s0 := if o.counts.isNone then drew 1 s else s
  let bad := code != 0 || extra
  let old := if isUp then (nth s.front.paths p).up else (nth s.front.paths p).down
  let fails := if bad then min 15 (old.fails + 1) else 0
  let now := bad && decide (it.lineConfirm ≤ fails) && !old.told
  let s1 := modLine p isUp (fun _ => { pf := pf, result := code, fails := fails, told := bad && (old.told || now) }) s0
  let s2 := if now then
      raise (Src.lineFault p) (modPath p (fun x => { x with confirmed := true }) s1)
    else s1
  (s2, code)

/-- The line that transmits in a direction is the upstream one (R204): the downstream line transmits upwards, and
PATH_SWAP exchanges the two. -/
def txIsUp (s : State) (p : Nat) (isUp : Bool) : Bool := isUp == ((at0 (items s).flow.paths p).pathSwap == 1)

/-- The two line checks before a burst (R153 to R155): a failing one, or an overcurrent, and the direction is not
fired. -/
def checkLines (p : Nat) (isUp excess : Bool) (tx rx : LineObs) (s : State) : State × Bool :=
  let t := txIsUp s p isUp
  let (s1, c1) := checkLine p t excess tx s
  let (s2, c2) := checkLine p (!t) false rx s1
  let bad := c1 != 0 || c2 != 0
  let s3 := if bad then modPath p (fun x => { x with lineFails := satInc x.lineFails }) s2 else s2
  let s4 := if excess then
      raise (Src.overcurrent p) (modPath p (fun x => { x with overcurrents := satInc x.overcurrents }) s3)
    else s3
  (s4, bad || excess)

/-! ### The end of a pair -/

/-- The receive-threshold loop, evaluated for an accepted normal pair (R158). -/
def thrEvaluate (p : Nat) (up dn : DirRec) (s : State) : State :=
  let it := pathItems s p
  if it.trackEn = 0 then s
  else
    let x := nth s.front.paths p
    let target := min up.peak dn.peak * 4 * it.thrRatio / 256
    let moved := if x.thr < target then min (x.thr + it.thrStep) target else max (x.thr - it.thrStep) target
    let thr := clampN moved it.thrMin it.thrMax
    let low := thr = it.thrMin && target < it.thrMin
    let high := thr = it.thrMax && it.thrMax < target
    let run := boundRun x.clampRun (low || high)
    modPath p (fun y => { y with
      thr := thr, target := satNat 8 target, clampRun := run, clamped := decide (8 ≤ run), atMin := low, atMax := high
      clampCount := boundCount y.clampCount run }) s

/-- Polarity and clipping of a normal pair (R152, R157). -/
def pairChecks (p : Nat) (up dn : DirRec) (s : State) : State :=
  let it := pathItems s p
  let fired := up.kind == .record && dn.kind == .record
  let wrong := fired && up.wrongSide && dn.wrongSide
  let miss := if wrong then (nth s.front.paths p).polMiss + 1 else 0
  let now := wrong && decide (it.polConfirm ≤ miss) && !(nth s.front.paths p).polTold
  let s1 := modPath p (fun x => { x with polMiss := miss, polTold := wrong && (x.polTold || now) }) s
  let s2 := if now then
      setLevel (Src.polarity p) true (modPath p (fun x =>
        { x with reversed := true, polFails := satInc x.polFails }) s1)
    else s1
  let clip := (up.kind == .record && decide (250 ≤ up.peak)) || (dn.kind == .record && decide (250 ≤ dn.peak))
  let run := if clip then (nth s.front.paths p).clipRun + 1 else 0
  raiseIf (run == 8) Src.peakClipped (modPath p (fun x => { x with clipped := clip, clipRun := run }) s2)

/-- Counters of a pair's final outcome (Tables 6.8 and 6.9). -/
def countOutcome (p : Nat) (t : PairTest) (s : State) : State :=
  let s1 := modShotPath p (fun x => { x with
    noise := if t.outcome = 5 then satInc x.noise else x.noise
    other := if t.outcome = 2 || t.outcome = 3 || t.outcome = 6 then satInc x.other else x.other
    cycleSuspect := if t.outcome = 7 then satInc x.cycleSuspect else x.cycleSuspect
    cycleRepaired := if t.outcome = 1 then satInc x.cycleRepaired else x.cycleRepaired
    noEcho := if t.outcome = 4 then satInc x.noEcho else x.noEcho
    pwrWarns := if t.pwrWarn then satInc x.pwrWarns else x.pwrWarns
    cycleRun := if t.outcome = 7 then x.cycleRun + 1 else 0
    noiseRun := if t.outcome = 5 then x.noiseRun + 1 else 0
    pwrUp := (t.pwrUp.map (satNat 8)).getD x.pwrUp
    pwrDn := (t.pwrDn.map (satNat 8)).getD x.pwrDn
    dtRaw := if t.timed then t.dtRaw else x.dtRaw }) s
  let x := nth s1.shot.paths p
  raiseIf (x.noiseRun == 16) Src.noisePersist (raiseIf (x.cycleRun == 16) Src.cyclePersist s1)

/-- A plumb result recorded (R223, Table 10.7 type 2): outcome 0 applied, 1 not accepted, 2 range. -/
def plumbRecord (p outcome : Nat) (e : Int) (s : State) : State :=
  let s1 := modShotPath p (fun x => { x with
    plumbApplied := if outcome = 0 then satInc x.plumbApplied else x.plumbApplied
    plumbSkipped := if outcome = 0 then x.plumbSkipped else satInc x.plumbSkipped }) s
  writeEvent 0x14 2 (bytesLE 1 p ++ bytesLE 1 outcome ++ [0, 0] ++ bytesInt 4 (satInt 32 e)
    ++ bytesInt 4 (nth s1.shot.paths p).zeroOfs) s1

/-- A plumb result that is not accepted: skipped, and the check stays due (R222). -/
def plumbSkip (p : Nat) (s : State) : State :=
  plumbRecord p 1 0 (modShotPath p (fun x => { x with plumbDue := true }) s)

/-- An accepted plumb pair (R223). Whether ZERO_OFS was changed. -/
def plumbApply (p : Nat) (normal plumb : Int) (s : State) : State × Bool :=
  let it := pathItems s p
  let e := roundDiv (normal - plumb) 2
  let z := (nth s.shot.paths p).zeroOfs
  let s1 := modShotPath p (fun x => { x with plumbE := satInt 32 e, plumbDue := false, plumbAt := s.time.ticks }) s
  if psUnits it.plumbMaxPs < e.natAbs then (plumbRecord p 2 e (raise Src.plumbRange s1), false)
  else
    let s2 := raiseIf (decide (psUnits it.plumbStepPs < (e - z).natAbs)) Src.plumbStep s1
    let z' := satInt 32 (z + roundDiv (e - z) (2 ^ it.plumbShift))
    (plumbRecord p 0 e (modShotPath p (fun x => { x with zeroOfs := z' }) s2), true)

/-- The SHOT_PAIR job ends (Table 6.6): RESULT, QFLAGS, the direction records in its granules, and what the FLOW job
takes (R208). -/
def endPair (r : PairRun) (t : PairTest) (records : List DirRec) (plumbed applied : Bool) (s : State) : State :=
  let it := pathItems s r.path
  let fired := records.filter (·.kind == .record)
  let order := if plumbed then !r.upFirst else r.upFirst
  let small := decide (t.k.natAbs ≤ 1)
  let kCode := if small then (t.k.emod 4).toNat else Config.freeIndex s.draws % 4
  let res := t.outcome + b2n r.retried * 16 + b2n plumbed * 32 + b2n applied * 64 + b2n (!order) * 128
    + b2n t.repDown * 256 + kCode * 512
  let qf := b2n t.pwrWarn + 2 * b2n (fired.any fun d => decide (250 ≤ d.peak)) + 4 * b2n (fired.any (·.flag 2))
    + 8 * b2n (fired.any (·.flag 0))
  let first := fired.head?
  let ev : PairEval := {
    outcome := t.outcome, dtRaw := t.dtRaw, meanUp := t.meanUp, meanDn := t.meanDn, zeroUsed := r.zeroUsed,
    pwrWarn := t.pwrWarn, repaired := t.outcome == 1, retried := r.retried
    noArm := fired.all (·.flag 1), fired := !fired.isEmpty
    pairDt := (first.map (·.originDt)).getD r.startDt, pairTick := (first.map (·.originTick)).getD r.startTick }
  let s0 := if small then s else drew 1 s
  let s1 := setEval r.job ev (modShotPath r.path (fun x => { x with lastPair := res })
    (modShot (fun x => { x with run := none }) s0))
  engineEnds r.job {
    status := if t.outcome = 0 && qf = 0 then .done else .doneFlagged, qflags := qf, result := res
    out := fired.flatMap (DirRec.bytes r.path it) } s1

/-- Both directions of a pair have ended: Table 6.1, the retry (R215), the plumb pair (R221, R236) or the job's end. A plumb pair
counts neither for PEAK.CLIPPED nor for the run of clipped pairs (R152; log 39, DESIGN CHOICE). -/
def pairEnds (r : PairRun) (s : State) : State :=
  let it := pathItems s r.path
  let up := (r.dirs.find? (·.isUp)).getD {}
  let dn := (r.dirs.find? (!·.isUp)).getD {}
  let t := pairTest it up dn
  if r.plumb then
    let normal := r.normal.getD {}
    if t.accepted then
      let (s1, applied) := plumbApply r.path normal.dtRaw t.dtRaw s
      endPair r normal r.records true applied s1
    else endPair r normal r.records true false (plumbSkip r.path s)
  else
    let s1 := pairChecks r.path up dn s
    if t.outcome = 5 && !r.retried then
      let (n, s2) := drawUpTo 60 s1
      modShot (fun x => { x with run := some { r with
        retried := true, dirs := []
        waitRetry := some (s.time.ticks + ceilDiv ((2000 + 100 * n) * 32768) 1000000) } })
        (modShotPath r.path (fun x => { x with retries := satInc x.retries }) s2)
    else
      let s2 := countOutcome r.path t s1
      let s3 := if t.accepted then thrEvaluate r.path up dn s2 else s2
      if r.plumbDue then
        if t.accepted then
          modShot (fun x => { x with pairCount := x.pairCount + 1, run := some { r with
            plumb := true, dirs := [], upFirst := !r.upFirst, normal := some t, records := r.dirs
            dueAt := s.time.ticks + wholeTicks it.dirGapUs } }) s3
        else endPair r t r.dirs false false (plumbSkip r.path s3)
      else endPair r t r.dirs false false s3

/-- A direction has ended: the second one falls due DIR_GAP_US after the first one's start (R209), or the pair is
evaluated. -/
def dirEnds (d : DirRec) (r : PairRun) (s : State) : State :=
  let r1 := { r with
    openDir := none, dirs := r.dirs ++ [d], dueAt := r.startedAt + wholeTicks (pathItems s r.path).dirGapUs }
  let s1 := modShot (fun x => { x with run := some r1, dirEndAt := s.time.ticks }) s
  if r1.dirs.length < 2 then s1 else pairEnds r1 s1

/-! ### Directions -/

/-- The direction that falls due in a pair: the first or the second in the pair's order (R209). -/
def nextIsUp (r : PairRun) : Bool := (r.dirs.length == 0) == r.upFirst

/-- The pair in progress whose next direction is due, no probe and no job of the capture units running (R163, R199). -/
def dueRun (s : State) : Option PairRun :=
  (shotRun s).filter fun r => r.openDir.isNone && r.waitRetry.isNone && decide (r.dueAt ≤ s.time.ticks)
    && [1, 2, 3].all fun e => (onEngine s e).isEmpty

/-- WIN_OPEN and WIN_LEN lie in the ranges of R171. -/
def windowOk (p : PathItems) : Bool := within 2500 500000 p.winOpen && within 250 100000 p.winLen

/-- Lock of the capture PLL was detected (R170). -/
def pllLocked (lock : Nat) (s : State) : State :=
  setLevel Src.pllDead false (modScribe (fun x => { x with lockTime := satNat 8 lock, lockFailRun := 0 }) s)

/-- No lock came within 20 µs; the eighth time in a row raises PLL_DEAD (R170). -/
def lockFailed (s : State) : State :=
  let n := s.scribe.lockFailRun + 1
  let s1 := raise Src.pllLockFail (modScribe (fun x => { x with lockFails := satInc x.lockFails, lockFailRun := n }) s)
  if 8 ≤ n then setLevel Src.pllDead true s1 else s1

/-- The PLL's lock, in 0.1 µs from its start: 20 µs is the latest (R170). -/
def lockTaken (lock : Nat) (s : State) : State := if lock ≤ 200 then pllLocked lock s else lockFailed s

/-- The reservoir stands within 25 mV of VPUMP (R147). -/
def pumpReady (s : State) (mv : Nat) : Bool :=
  within ((items s).shot.vpumpMv - 25) ((items s).shot.vpumpMv + 25) mv

/-- A burst leaves: it is counted, and sends its sync pulse (R264). -/
def burst (path : Nat) (key : Option Nat) (s : State) : State :=
  syncPulse key (modFront (fun x => { x with bursts := x.bursts + 1, activePath := path }) s)

/-- What is settled before the first burst edge of a direction: the line checks, the lock and the reservoir. Its kind:
`record` where the burst leaves (R147, R149, R154, R170, R171). -/
def dirStarts (p : Nat) (isUp : Bool) (o : DirObs) (s : State) : State × DirKind :=
  let (s1, bad) := checkLines p isUp o.overcurrent o.tx o.rx (modFront (fun x =>
    { x with activePath := p, pumpMv := satNat 12 o.pumpMv }) s)
  let s2 := lockTaken o.lock s1
  if bad then (s2, .line)
  else if 200 < o.lock || !windowOk (pathItems s p) then (s2, .capture)
  else if pumpReady s o.pumpMv then (s2, .record)
  else (raise Src.pumpSlow s2, .capture)

/-- The start of the due direction, `waitUs` after it fell due (R163, R168, R199). -/
def dirBegins (waitUs : Nat) (r : PairRun) (s : State) : State :=
  countDelay 0 (boundUs (s.time.ticks - r.dueAt) waitUs)
    (modFront (fun x => { x with activePath := r.path }) (modPair (fun y => { y with startedAt := s.time.ticks }) s))

/-- SHOT_DIRECTION: a direction starts (Table 4.3). One that a line, an overcurrent, the PLL, its window or the reservoir
keeps from firing ends at once; of another, the burst leaves and the window opens. A burst that overcurrent stops is not counted
in BURST_COUNT (R149; log 39, DESIGN CHOICE). -/
def execShotDirection (o : DirObs) (s : State) : Host.Outcome State Fault Refusal :=
  done (match dueRun s with
  | none => s
  | some r =>
    let isUp := nextIsUp r
    let d : DirRec := { isUp := isUp, originDt := s.time.dt, originTick := bootTicks s }
    let (s1, kind) := dirStarts r.path isUp o (dirBegins o.waitUs r s)
    if kind = .record then
      burst r.path ((evalOf s r.job).map (·.flow))
        (modPair (fun y => { y with openDir := some d, obs := o, scale := s.ftu.scalePpb }) s1)
    else dirEnds { d with kind := kind } { r with startedAt := s.time.ticks } s1)

/-- A direction that is not fired for a reason of capture: its line checks still count, and its wait does (R147, R168, R170).
-/
def captureFails (l : LinePair) (mv : Nat) (f : State → State) (s : State) : State :=
  match dueRun s with
  | none => s
  | some r =>
    let isUp := nextIsUp r
    let (s1, bad) := checkLines r.path isUp false l.tx l.rx (modFront (fun x => { x with pumpMv := satNat 12 mv })
      (dirBegins l.waitUs r s))
    dirEnds { kind := if bad then .line else .capture, isUp := isUp } { r with startedAt := s.time.ticks } (f s1)

/-- PUMP_SLOW: the reservoir stands at `mv`, not within 25 mV of VPUMP, 50 µs after the scheduled burst (R147). -/
def execPumpSlow (lines : LinePair) (mv : Nat) (s : State) : Host.Outcome State Fault Refusal :=
  done (if pumpReady s mv then s
    else captureFails lines mv (raise Src.pumpSlow) s)

/-- PLL_LOCK_TIMEOUT: no lock within 20 µs, with the reservoir at `mv`; the eighth in a row raises PLL_DEAD (R170). -/
def execPllLockTimeout (lines : LinePair) (mv : Nat) (s : State) : Host.Outcome State Fault Refusal :=
  done (captureFails lines mv lockFailed s)

/-- For how many directions in a row each lane has disagreed on every zero-crossing edge; a direction without one leaves
the runs (Table 5.8). -/
def laneRuns (stored : List EdgeRec) (runs : Vector Nat 4) : Vector Nat 4 :=
  let zc := stored.filter (!·.threshold)
  if zc.isEmpty then runs
  else Vector.ofFn fun i => if zc.all (·.off.contains i.val) then nth runs i.val + 1 else 0

/-- The capture registers after a direction (Tables 5.6 and 5.7), with the sources of Table 5.8. The first direction after a
bring-up writes buffer 0 (R181; log 39, DESIGN CHOICE). -/
def captureRegs (p : PathItems) (c : CloseObs) (x : DirEnd) (s : State) : State :=
  let d := x.dir
  let bad := laneRuns x.enc.stored s.scribe.badRuns
  let buf := s.scribe.directions.toNat % 2
  let s1 := modScribe (fun y => { y with
    ram := put y.ram buf (x.enc.stored.map (·.word)), ramOverflow := put y.ramOverflow buf (d.flag 0), buf := buf
    lastStored := d.stored, lastDropped := d.dropped, lastFlags := d.flags, lastWin := d.winRun
    agreeLow := satAdd y.agreeLow (x.enc.stored.filter fun e => !e.threshold && decide (e.agree < p.agreeMin)).length
    overflows := if d.flag 0 then satInc y.overflows else y.overflows
    glitches := satAdd y.glitches (x.enc.stored.filter (·.glitch)).length
    directions := y.directions + 1
    badRuns := bad }) s
  let align := if d.flag 3 then s.ftu.alignRun + 1 else 0
  let s2 := modFtu (fun y => { y with
    calOk := x.calOk, calA := d.calA, calB := if d.flag 5 then y.calB else d.calB, devMax := x.devMax
    stopRaw := x.taken.map fun e => (e.coarse, e.fine)
    calDrifts := if d.flag 2 then satInc y.calDrifts else y.calDrifts
    alignFails := if d.flag 3 then satInc y.alignFails else y.alignFails
    stopShorts := if d.flag 7 then satInc y.stopShorts else y.stopShorts
    alignRun := align }) s1
  let s3 := raiseIf (align == 16) Src.alignPersist (raiseIf (!x.calOk) Src.ftuCalRange s2)
  raiseIf c.parity Src.captureRamParity (raiseIf x.enc.fifo Src.fifoOverrun
    (setLevel Src.laneStuck (bad.toList.any fun n => decide (16 ≤ n)) s3))

/-- The peak of a direction latched (R152). -/
def latchPeak (p : Nat) (isUp : Bool) (peak : Nat) (s : State) : State :=
  modPath p (fun x => { x with
    peakUp := if isUp then satNat 8 peak else x.peakUp
    peakDown := if isUp then x.peakDown else satNat 8 peak
    clips := if 250 ≤ peak then satInc x.clips else x.clips }) s

/-- The window of the open direction ends after at most `winRun` D15 cycles, which its ticks have to leave room for. With
lock lost the FTU has stopped, and the second calibration is a free value (R172; log 37, DEDUCED). -/
def closeEcho (winRun : Nat) (unlock : Bool) (c : CloseObs) (r : PairRun) (d : DirRec) (s : State) : State :=
  let p := pathItems s r.path
  let noCal := if unlock then some (Config.freeIndex s.draws % 2 ^ 16) else none
  let x := endDirection p (nth s.front.paths r.path).thr winRun noCal s.ftu.alignOfs r.scale r.obs c d
  if s.time.ticks < r.startedAt + wholeTicks ((p.winOpen + x.dir.winRun) / 250) then s
  else dirEnds x.dir r (captureRegs p c x (latchPeak r.path d.isUp x.dir.peak (if unlock then drew 1 s else s)))

/-- The run with an open direction. -/
def openRun (s : State) : Option (PairRun × DirRec) :=
  match shotRun s with
  | some r => r.openDir.map fun d => (r, d)
  | none => none

/-- ECHO_WINDOW_CLOSE: the window has run WIN_LEN cycles; calibration, stops and record follow (Table 5.1). -/
def execEchoWindowClose (c : CloseObs) (s : State) : Host.Outcome State Fault Refusal :=
  done (match openRun s with
  | none => s
  | some (r, d) => closeEcho (pathItems s r.path).winLen false c r d s)

/-- PLL_UNLOCK_IN_WINDOW: the window closes at once, with the edges it has kept (R172). -/
def execPllUnlockInWindow (c : CloseObs) (s : State) : Host.Outcome State Fault Refusal :=
  done (match openRun s with
  | none => s
  | some (r, d) => closeEcho (min c.winRun (pathItems s r.path).winLen) true c r d s)

/-- NOISE_RETRY: the retry of a rejected pair falls due (R215). -/
def execNoiseRetry (s : State) : Host.Outcome State Fault Refusal :=
  done (match shotRun s with
  | none => s
  | some r =>
    match r.waitRetry with
    | none => s
    | some t => if s.time.ticks < t then s
      else modShot (fun x => { x with pairCount := x.pairCount + 1 }) 
        (modPair (fun y => { y with waitRetry := none, dueAt := s.time.ticks }) s))

/-! ### FLOW -/

/-- The saturation of R228 and its flags: CUTOFF [3], REVERSE [4], OVERRANGE [5]. -/
def flowRules (f : FlowItems) (q : Int) : Int × Nat :=
  let cut := decide (q.natAbs < f.cutoff)
  let q1 := if cut then 0 else q
  (satInt 32 q1, b2n cut * 8 + b2n (!cut && decide (q1 ≤ -(f.cutoff : Int))) * 16
    + b2n (decide (f.qMax < q1.natAbs)) * 32)

/-- The combined flow of the accepted paths (R227) and its flags SINGLE_PATH [6] and PATH_DISAGREE [8]. -/
def combine (f : FlowItems) (paths : Nat) (a b : Option PathFlow) : Int × Nat :=
  match a, b with
  | some x, some y =>
    let big := max x.q.natAbs y.q.natAbs
    let bad := decide (f.cutoff ≤ big) && decide (f.pathDiffPm * big < (x.q - y.q).natAbs * 1000)
    (roundDiv (x.q * f.w1 + y.q * f.w2) 65536, b2n bad * 256)
  | some x, none => if paths = 1 then (x.q, 0) else (roundDiv (x.q * f.soloK1) 65536, 64)
  | none, some y => (roundDiv (y.q * f.soloK2) 65536, 64)
  | none, none => (0, 0)

/-- The shot-rate loop (R211, R240): PER from the next trigger on. -/
def rateLoop (throttle empty : Bool) (q qLast : Int) (s : State) : State :=
  let c := (items s).shot
  let per := s.shot.perNext
  let want :=
    if throttle || empty then per * 2
    else if c.qFast ≤ q.natAbs || c.dqFast < (q - qLast).natAbs then roundDivNat per 2
    else if q.natAbs < c.qSlow then per * 2
    else per
  let new := clampN want c.perMinMs c.perMaxMs
  let run := boundRun s.shot.clampRun (want != new)
  modShot (fun x => { x with
    perNext := new, clampRun := run, clamped := decide (8 ≤ run), clampCount := boundCount x.clampCount run
    atMin := decide (want < new), atMax := decide (new < want) }) s

/-- What the SHOT_PAIR job of a path left for a FLOW job; nothing accepted where no such job released it (R208). -/
def flowEval (s : State) (flow p : Nat) : PairEval :=
  ((s.shot.evals.filter fun e => e.flow == flow && e.path == p).getLast?.map (·.eval)).getD {}

/-- The path's outcome and flow in a FLOW job: none for a path that was not fired; an accepted pair whose sound speed is
out of range becomes TOF_RANGE (R213, R225). -/
def flowOf (s : State) (e : PairEval) (p : Nat) : Nat × Option PathFlow :=
  if e.outcome ≤ 1 then
    match pathFlow (at0 (items s).flow.paths p) e with
    | some f => (e.outcome, some f)
    | none => (8, none)
  else (e.outcome, none)

/-- The empty state (R219) after one FLOW job: whether its pair was empty and whether a path was accepted. -/
def emptyState (emptyPair accepted : Bool) (s : State) : State :=
  let c := (items s).shot
  let run := if emptyPair then s.shot.emptyRun + 1 else 0
  let s1 := modShot (fun x => { x with emptyRun := run }) s
  if s.shot.empty then
    let n := if accepted then s.shot.clearRun + 1 else 0
    if c.emptyClear ≤ n then
      setLevel Src.emptyPipe false (modShot (fun x => { x with empty := false, clearRun := 0 }) s1)
    else modShot (fun x => { x with clearRun := n }) s1
  else if emptyPair && c.emptyN ≤ run then
    setLevel Src.emptyPipe true (modShot (fun x => { x with empty := true, clearRun := 0, bridgeRun := 0 }) s1)
  else s1

/-- What a flow record says of flow, velocity, Δt and time of flight, and the flags that go with it. -/
structure FlowOut where
  q : Int := 0
  vel : Int := 0
  dt : Int := 0
  tof : Int := 0
  sound : Int := 0
  flags : Nat := 0
  deriving DecidableEq, Repr, Inhabited

/-- Bridging (R220) and the values of the record: `main` is the path the record takes them from. -/
def flowValues (main : Option PathFlow) (q : Int) (flags : Nat) (s : State) : State × FlowOut :=
  let c := (items s).shot
  let s1 := if main.isSome then
      setLevel Src.noValidFlow false (modShot (fun x => { x with bridgeRun := 0, noValid := false }) s)
    else s
  let base : FlowOut := match main with
    | some m => { vel := satInt 32 m.vel, dt := satInt 48 m.dt, tof := satInt 48 m.tof, sound := m.sound }
    | none => {}
  if s1.shot.empty then
    let fl := if main.isSome then (flowRules (items s).flow q).2 else 0
    (raiseIf (fl.testBit 5) Src.flowOverrange s1, { base with flags := flags + fl + 2 + 4 * b2n s1.shot.noValid })
  else match main with
    | some _ =>
      let (qs, fl) := flowRules (items s).flow q
      let s2 := raiseIf (fl.testBit 5) Src.flowOverrange s1
      (modShot (fun x => { x with lastQ := qs, lastVel := base.vel, lastDt := base.dt, lastTof := base.tof }) s2,
       { base with q := qs, flags := flags + fl })
    | none =>
      let n := satNat 16 (s1.shot.bridgeRun + 1)
      let s2 := modShot (fun x => { x with bridgeRun := n }) s1
      let x := s1.shot
      (if c.bridgeLimit ≤ n && !x.noValid then
         setLevel Src.noValidFlow true (modShot (fun x => { x with noValid := true }) s2)
       else s2,
       { q := if x.noValid then 0 else x.lastQ, vel := x.lastVel, dt := x.lastDt, tof := x.lastTof
         flags := 1 + 4 * b2n x.noValid })

/-- The flow record (Table 6.3). -/
def flowRecord (o1 o2 flags : Nat) (dt : DWord) (v : FlowOut) (q1 q2 zero : Int) (per bridge : Nat) : List Byte :=
  padTo 64 0 (bytesLE 1 1 ++ bytesLE 1 (o1 + 16 * o2) ++ bytesLE 2 flags ++ bytesLE 8 dt.toNat ++ bytesInt 4 v.q
    ++ bytesInt 4 q1 ++ bytesInt 4 q2 ++ bytesInt 4 v.vel ++ bytesInt 6 v.dt ++ bytesLE 2 per ++ bytesInt 6 v.tof
    ++ bytesLE 2 bridge ++ bytesInt 4 v.sound ++ bytesInt 4 zero)

/-- FLOW: the job computes Δt, time of flight, sound speed, velocity and flow of the accepted paths, combines them and
writes the flow record with ORIGIN_TICK (R207, R208, R211, R219 to R229, R270). A record with no pair behind it has no
origin: its PAIR_DT and tick are free values (log 20, DESIGN CHOICE). -/
def flowJob (j : Job) (s : State) : State :=
  let c := (items s).flow
  let e1 := flowEval s j.id 0
  let e2 := flowEval s j.id 1
  let (o1, f1) := flowOf s e1 0
  let (o2, f2) := flowOf s e2 1
  let ran := [e1, e2].filter (·.outcome != 0xF)
  let emptyPair := ran.any (·.fired) && ran.all fun e => !e.fired || e.noArm
  let s1 := (List.range 2).foldl (fun t p =>
    if (if p = 0 then o1 else o2) = 8 then modShotPath p (fun x => { x with other := satInc x.other }) t else t) s
  let (q, fl) := combine c (pathCount s) f1 f2
  let s2 := raiseIf (fl.testBit 8) Src.pathDisagree s1
  let main := if f1.isSome then f1 else f2
  let s3 := emptyState emptyPair main.isSome s2
  let (s4, v) := flowValues main q fl s3
  let s5 := if main.isSome || s4.shot.empty then rateLoop j.mark s4.shot.empty q s.shot.qLast s4 else s4
  let s6 := modShot (fun x => { x with
    throttled := j.mark
    qLast := if main.isSome then q else x.qLast
    history := if main.isSome then keepNewest 16 (x.history ++ [q]) else x.history }) s5
  let accepted := (if f1.isSome then [e1] else []) ++ (if f2.isSome then [e2] else [])
  let flags := v.flags + b2n (accepted.any (·.repaired)) * 128 + b2n (accepted.any (·.pwrWarn)) * 512
    + b2n (ran.any (·.retried)) * 1024 + b2n j.mark * 2048
  let s7 := if ran.isEmpty then drew 2 s6 else s6
  let dt := match ran.head? with
    | some e => e.pairDt
    | none => BitVec.ofNat 64 (Config.freeIndex s.draws)
  let tick := match ran.head? with
    | some e => e.pairTick
    | none => Config.freeIndex (s.draws + 1) % 2 ^ 32
  let zero := match main with
    | some m => m.zero
    | none => (ran.head?.map (·.zeroUsed)).getD (nth s.shot.paths 0).zeroOfs
  let rec_ := flowRecord o1 o2 flags dt v ((f1.map (·.q)).getD 0) ((f2.map (·.q)).getD 0) zero s.shot.per
    s7.shot.bridgeRun
  engineEnds j.id {
    status := if flags = 0 then .done else .doneFlagged, result := o1 + 16 * o2 + flags % 4096 * 256
    out := rec_ ++ bytesLE 4 tick } (modShot (fun x =>
      { x with record := rec_, evals := x.evals.filter (·.flow != j.id) }) s7)

/-- FLOW: the running job of the tag has its effect. -/
def execFlow (tag : Nat) (s : State) : Host.Outcome State Fault Refusal :=
  done (onJob tag 5 1 flowJob s)

/-! ### The H jobs -/

/-- PLUMB_REQUEST: a plumb check becomes due on every path the meter uses (R222, R239). -/
def plumbRequestJob (j : Job) (s : State) : State :=
  engineEnds j.id {} ((List.range (pathCount s)).foldl (fun t p =>
  modShotPath p (fun x => { x with plumbDue := true }) t) s)

/-- PLUMB_REQUEST: the running job of the tag has its effect. -/
def execPlumbRequest (tag : Nat) (s : State) : Host.Outcome State Fault Refusal :=
  done (onJob tag 4 2 plumbRequestJob s)

/-- ORIENT_CHECK: the sign of the last sixteen accepted flows (R230). -/
def orientCheckJob (j : Job) (s : State) : State :=
  let cut := ((items s).flow.cutoff : Int)
  let h := s.shot.history
  let fwd := (h.filter fun q => decide (cut ≤ q)).length
  let rev := (h.filter fun q => decide (q ≤ -cut)).length
  let sign := if h.length < 16 then 0 else if 12 ≤ fwd then 1 else if 12 ≤ rev then 2 else 0
  let s1 := raiseIf (sign == 2) Src.orientReversed (modShot (fun x =>
    { x with orientSign := sign, orientFwd := fwd, orientRev := rev, orientDt := s.time.dt }) s)
  let s2 := writeEvent 0x15 4 (bytesLE 1 sign ++ bytesLE 1 fwd ++ bytesLE 1 rev ++ [0]) s1
  engineEnds j.id {
    status := if sign = 1 then .done else .doneFlagged, result := sign + fwd * 4 + rev * 128 } s2

/-- ORIENT_CHECK: the running job of the tag has its effect. -/
def execOrientCheck (tag : Nat) (s : State) : Host.Outcome State Fault Refusal :=
  done (onJob tag 5 2 orientCheckJob s)

/-- LINE_CHECK: the named lines checked in the order path 1 up, down, path 2 up, down (Table 4.5). A job that names path 2 of a
one-path meter runs on path 2's items (R161; log 39, DESIGN CHOICE). -/
def lineCheckJob (o : List LineObs) (j : Job) (s : State) : State :=
  let a := j.desc.arg 0
  let named := [(0, true), (0, false), (1, true), (1, false)].filter fun l =>
    a.testBit l.1 && a.testBit (if l.2 then 2 else 3)
  if [0, 1].any (fun p => a.testBit p && pathFenced s p) then engineEnds j.id { status := .fenced } s
  else
    let (s1, res) := named.foldl (fun (acc : State × Nat) l =>
      let i := 2 * l.1 + b2n (!l.2)
      let (t, code) := checkLine l.1 l.2 false (at0 o i) acc.1
      (t, acc.2 + code * 4 ^ i)) (s, 0)
    engineEnds j.id { status := if res = 0 then .done else .doneFlagged, result := res } s1

/-- LINE_CHECK: the running job of the tag has its effect. -/
def execLineCheck (tag : Nat) (o : List LineObs) (s : State) : Host.Outcome State Fault Refusal :=
  done (onJob tag 1 1 (lineCheckJob o) s)

/-- PEAK_PROBE: one direction fired, its peak code returned (R161). A direction that does not fire has no peak: its code
is a free value, flagged (log 20, DESIGN CHOICE). -/
def peakProbeJob (o : DirObs) (j : Job) (s : State) : State :=
  let p := j.desc.arg 0 % 2
  let isUp := !(j.desc.arg 0).testBit 1
  if pathFenced s p then engineEnds j.id { status := .fenced } s
  else
    let (s1, kind) := dirStarts p isUp o s
    if kind = .record then
      let peak := peakCode ((pathItems s p).winLen * 160) o
      let clip := decide (250 ≤ peak)
      engineEnds j.id { status := if clip then .doneFlagged else .done, result := peak + 256 * b2n clip }
        (latchPeak p isUp peak (burst p none s1))
    else engineEnds j.id { status := .doneFlagged, result := Config.freeIndex s1.draws % 256 } (drew 1 s1)

/-- PEAK_PROBE: the running job of the tag has its effect. -/
def execPeakProbe (tag : Nat) (o : DirObs) (s : State) : Host.Outcome State Fault Refusal :=
  done (onJob tag 1 2 (peakProbeJob o) s)

/-- RAW_CAPTURE: the records of a capture buffer copied to the output granules (Table 5.5). -/
def rawCaptureJob (j : Job) (s : State) : State :=
  if (winOf s .scribe).fenced || s.faults.grave then engineEnds j.id { status := .fenced } s
  else
    let b := (s.scribe.buf + j.desc.arg 0 % 2) % 2
    let ws := (nth s.scribe.ram b).take (128 * min 8 j.outs.length)
    engineEnds j.id {
      status := if nth s.scribe.ramOverflow b then .doneFlagged else .done, result := ws.length
      out := ws.flatMap fun w => bytesLE 4 w.toNat } s

/-- RAW_CAPTURE: the running job of the tag has its effect. -/
def execRawCapture (tag : Nat) (s : State) : Host.Outcome State Fault Refusal :=
  done (onJob tag 2 1 rawCaptureJob s)

/-- CALIBRATE: one FTU calibration (Table 5.5, R186); `escaped` says that a pulse left the end of the line. -/
def execCalibrate (tag : Nat) (taps : List Nat) (escaped : Bool) (s : State) : Host.Outcome State Fault Refusal :=
  done (match runningJob s tag 3 1 with
  | none => s
  | some j =>
    let ok := calInRange taps && !escaped
    let v := calSum taps
    engineEnds j.id { status := if ok then .done else .doneFlagged, result := v }
      (raiseIf (!ok) Src.ftuCalRange (modFtu (fun x => { x with calOk := ok, calA := v, calB := v }) s)))

/-- The widest tap in 1/16 of the mean tap, from the taps that the 8192 hits fell on (R188). -/
def dnlOf (counts : List Nat) : Nat := 16 * counts.foldl max 0 * counts.length / 8192

/-- A density measurement taken into DNL (R188). -/
def takeDnl (counts : List Nat) (s : State) : State × Nat :=
  let d := dnlOf counts
  (raiseIf (decide (24 < d)) Src.ftuDnl (modFtu (fun x => { x with dnl := satNat 8 d }) s), satNat 8 d)

/-- DENSITY: the delay line's DNL by 8192 asynchronous hits (Table 5.5); a list that does not add up to them is none. -/
def densityJob (counts : List Nat) (j : Job) (s : State) : State :=
  let (s1, d) := takeDnl counts s
  if counts.sum != 8192 then s else engineEnds j.id { status := if 24 < d then .doneFlagged else .done, result := d } s1

/-- DENSITY: the running job of the tag has its effect. -/
def execDensity (tag : Nat) (counts : List Nat) (s : State) : Host.Outcome State Fault Refusal :=
  done (onJob tag 3 2 (densityJob counts) s)

/-- SCALE_MEASURE: D07 cycles counted over 4096 D04 cycles (R191); a direction uses what stands at its window's opening
(R201). -/
def execScaleMeasure (count : Nat) (s : State) : Host.Outcome State Fault Refusal :=
  done (if !s.boot.running then s
  else
    let ppb := satInt 32 (((count : Int) - 4000000) * 250)
    let s1 := if windowOpen s then s else modPair (fun y => { y with scale := ppb }) s
    setLevel Src.scaleRange (decide (15000000 < ppb.natAbs)) (setLevel Src.scaleStale false
      (modFtu (fun x => { x with scalePpb := ppb, scaleAt := s.time.ticks }) s1)))

/-- SCALE_STALE: no measurement has completed within 4 × SCALE_S (R191). -/
def execScaleStale (s : State) : Host.Outcome State Fault Refusal :=
  done (if s.boot.running && passed s s.ftu.scaleAt (secTicks (4 * (items s).shot.scaleS)) then
    setLevel Src.scaleStale true s else s)

/-! ### Registers -/

/-- Signed fields as they stand in a register. -/
def asBits (w : Nat) (n : Int) : Nat := (n.emod (2 ^ w)).toNat

/-- A word of FRONT (Tables 4.6 and 4.7); a fenced path's registers read 0 (R156). -/
def readFront (s : State) (off : Nat) : Nat :=
  let f := s.front
  let busy := (openRun s).isSome || !(onEngine s 1).isEmpty
  match off with
  | 0x000 => b2n busy + 2 * b2n (pumpReady s f.pumpMv) + 4 * f.activePath
      + 16 * b2n (pathFenced s 0) + 32 * b2n (pathFenced s 1)
  | 0x004 => f.pumpMv
  | 0x008 => f.bursts.toNat
  | _ =>
    if 0x040 ≤ off && off < 0x0C0 then
      let p := (off - 0x040) / 0x40
      let x := nth f.paths p
      let it := pathItems s p
      let line := fun (l : LineSt) => l.pf + l.result * 2 ^ 16 + l.fails * 2 ^ 24
      if pathFenced s p then 0
      else match (off - 0x040) % 0x40 with
        | 0x00 => it.burstHalf + it.pulses * 2 ^ 8 + it.dampN * 2 ^ 14 + it.zMatch * 2 ^ 17 + it.gain * 2 ^ 19
            + it.clampQ * 2 ^ 24
        | 0x04 => x.thr + it.thrMin * 2 ^ 8 + it.thrMax * 2 ^ 16 + x.target * 2 ^ 24
        | 0x08 => x.peakUp + x.peakDown * 2 ^ 8 + b2n x.clipped * 2 ^ 16
        | 0x0C => line x.up
        | 0x10 => line x.down
        | 0x14 => b2n x.confirmed + 2 * b2n x.reversed + 4 * satNat 6 x.polMiss
        | 0x18 => b2n x.clamped + 2 * b2n x.atMin + 4 * b2n x.atMax
        | 0x1C => x.clampCount.toNat
        | 0x20 => x.lineFails.toNat
        | 0x24 => x.overcurrents.toNat
        | 0x28 => x.clips.toNat
        | 0x2C => x.polFails.toNat
        | _ => 0
    else 0

/-- A word of SCRIBE (Table 5.6). -/
def readScribe (s : State) (off : Nat) : Nat :=
  let x := s.scribe
  let dir := (openRun s).isSome
  match off with
  | 0x000 => b2n (dir || !(onEngine s 2).isEmpty) + 2 * b2n dir + 4 * b2n (windowOpen s) + 8 * x.buf + 16 * (x.laneOk % 16)
  | 0x004 => x.lastStored + x.lastDropped * 2 ^ 16
  | 0x008 => x.lastFlags
  | 0x00C => x.lastWin
  | 0x010 => x.lockTime
  | 0x014 => (List.range 4).foldl (fun acc i => acc + nth x.trims i % 64 * 2 ^ (8 * i)) 0
  | 0x018 => x.agreeLow.toNat
  | 0x01C => x.overflows.toNat
  | 0x020 => x.glitches.toNat
  | 0x024 => x.lockFails.toNat
  | 0x028 => x.directions.toNat
  | _ => 0

/-- A word of FTU (Table 5.7). -/
def readFtu (s : State) (off : Nat) : Nat :=
  let x := s.ftu
  match off with
  | 0x000 => b2n ((openRun s).isSome || !(onEngine s 3).isEmpty) + 2 * b2n x.calOk
  | 0x004 => x.calA + x.calB * 2 ^ 16
  | 0x008 => if x.calA + x.calB = 0 then 0 else satNat 16 (128000000 / (x.calA + x.calB))
  | 0x00C => asBits 32 x.scalePpb
  | 0x010 => satNat 16 ((s.time.ticks - x.scaleAt) / 32768)
  | 0x014 => asBits 16 x.alignOfs + x.devMax * 2 ^ 16
  | 0x018 => x.dnl
  | 0x040 => x.calDrifts.toNat
  | 0x044 => x.alignFails.toNat
  | 0x048 => x.stopShorts.toNat
  | _ =>
    if 0x020 ≤ off && off < 0x040 then
      match x.stopRaw[(off - 0x020) / 4]? with
      | some r => r.2 % 512 + r.1 % 2 ^ 22 * 2 ^ 9 + 2 ^ 31
      | none => 0
    else 0

/-- A word of SHOT (Tables 6.7 and 6.8). -/
def readShot (s : State) (off : Nat) : Nat :=
  let x := s.shot
  match off with
  | 0x000 => b2n (shotRun s).isSome + 2 * b2n x.empty + 4 * b2n x.noValid + 8 * b2n x.throttled
  | 0x004 => x.per
  | 0x008 => b2n x.clamped + 2 * b2n x.atMin + 4 * b2n x.atMax
  | 0x00C => x.clampCount.toNat
  | 0x010 => x.pairCount.toNat
  | 0x014 => satNat 16 x.bridgeRun
  | 0x018 => x.orientSign + x.orientFwd * 2 ^ 8 + x.orientRev * 2 ^ 16
  | 0x01C => x.orientDt.toNat % 2 ^ 32
  | 0x020 => x.orientDt.toNat / 2 ^ 32
  | _ =>
    if 0x200 ≤ off && off < 0x240 then leAt x.record (off - 0x200) 4
    else if 0x100 ≤ off && off < 0x180 then
      let p := nth x.paths ((off - 0x100) / 0x40)
      match (off - 0x100) % 0x40 with
      | 0x00 => p.lastPair % 2 ^ 11 + p.pwrUp * 2 ^ 16 + p.pwrDn * 2 ^ 24
      | 0x04 => asBits 48 p.dtRaw % 2 ^ 32
      | 0x08 => asBits 48 p.dtRaw / 2 ^ 32
      | 0x0C => asBits 32 p.zeroOfs
      | 0x10 => asBits 32 p.plumbE
      | 0x14 => p.plumbApplied.toNat + p.plumbSkipped.toNat * 2 ^ 16
      | 0x18 => p.retries.toNat
      | 0x1C => p.noise.toNat + p.other.toNat * 2 ^ 16
      | 0x20 => p.cycleSuspect.toNat + p.cycleRepaired.toNat * 2 ^ 16
      | 0x24 => p.noEcho.toNat
      | 0x28 => p.pwrWarns.toNat
      | _ => 0
    else 0

end Sys2Proof.Machine
end

