-- ==== Sys2Proof/Machine/Reads.lean ====
section
/-! DEFINITION. The register words of IDENT, BOOT, LINTEL, CLOCK, TIME, FABRIC, QUEUE, LCD, PORTS and DEBUG by their
offsets (Tables 1.10, 1.11, 2.10, 2.11, 2.16, 3.9, 3.11, 16.3, 17.9 and 17.10). -/

namespace Sys2Proof.Machine

/-- Word `k` of a 64-bit value, low word first (R12). -/
def half (v k : Nat) : Nat := v / 2 ^ (32 * k) % 2 ^ 32

/-- A signed value in `w` bits. -/
def twos (w : Nat) (v : Int) : Nat := (v.emod (2 ^ w)).toNat

/-! ### IDENT and BOOT -/

/-- The OTP array has been read in this start (stage 0x2). -/
def otpRead (s : State) : Bool := s.lintel.mainOn && decide (2 ≤ s.boot.stage)

/-- A word of IDENT (Table 1.10). -/
def readIdent (s : State) (off : Nat) : Nat :=
  let o := fun (a k : Nat) => if otpRead s then ofLE (otpBytes s a k) else 0
  let sealed_ := otpRead s && isSealed s
  match off with
  | 0x000 => 0x9640 + 0x01 * 2 ^ 16 + o 0x008 1 * 2 ^ 24
  | 0x004 => o 0x009 1
  | 0x008 => o 0x000 4
  | 0x00C => o 0x004 4
  | 0x010 => s.boot.img.seq
  | 0x014 => s.boot.img.metro.toNat
  | 0x018 => s.boot.img.meterType.toNat
  | 0x01C => b2n sealed_ + 2 * b2n s.boot.sealDtBad + o 0x140 1 * 2 ^ 8
  | 0x020 => if sealed_ then o 0x144 4 else 0
  | 0x024 => if sealed_ && !s.boot.sealDtBad then o 0x148 4 else 0
  | 0x028 => if sealed_ && !s.boot.sealDtBad then o 0x14C 4 else 0
  | _ =>
    if 0x400 ≤ off && off < 0x800 then
      leAt (((s.boot.img.bodies.find? fun b => b.1 == 0x01).map (·.2)).getD []) (off - 0x400) 4
    else 0

/-- The standby copy's status: B where A runs, A where B runs. -/
def standby (s : State) : CopyStatus := if s.boot.runB then s.boot.copyA else s.boot.copyB

/-- The standby copy is valid and pending (SELECT.PENDING). -/
def standbyPending (s : State) : Bool := s.boot.running && (standby s).valid && !(standby s).active

/-- COPY_x_STATUS. -/
def copyWord (c : CopyStatus) : Nat := b2n c.valid + 2 * b2n c.active + c.reject * 2 ^ 4

/-- A word of BOOT (Table 1.11); RESET_CAUSE without its side effect. -/
def readBoot (s : State) (off : Nat) : Nat :=
  let b := s.boot
  match off with
  | 0x000 => b.stage + b2n b.bare * 2 ^ 8 + b2n b.running * 2 ^ 9
  | 0x004 => b.reason + b.stageAt * 2 ^ 8
  | 0x008 => copyWord b.copyA
  | 0x00C => b.copyA.seq
  | 0x010 => copyWord b.copyB
  | 0x014 => b.copyB.seq
  | 0x018 => b2n b.runB + 2 * b2n b.diverge + 4 * b2n b.seqTie + 8 * b2n (standbyPending s)
  | 0x01C => b.bootMs
  | 0x020 => b2n b.causePor + 2 * b2n b.causePin + 4 * b2n b.causeWdog + 8 * b2n b.causeCold
  | 0x030 => b.stgState + b.stgLast * 2 ^ 8 + b.stgReject * 2 ^ 16
  | 0x034 => b.stagedSeq
  | 0x038 => if standbyPending s then half b.activateDt.toNat 0 else 0
  | 0x03C => if standbyPending s then half b.activateDt.toNat 1 else 0
  | 0x044 => b2n b.reseatActive + b.reseatResult * 2 ^ 8 + b.reseatDur * 2 ^ 16
  | 0x048 => b.reseatCount.toNat
  | 0x050 => b2n b.loadCopyB * 2 ^ 4 + b.loadResult * 2 ^ 24
  | 0x054 => b.loadPage * 2 ^ 8
  | _ => if 0x080 ≤ off && off < 0x0B4 && b.bare then readAuth s (off - 0x080) else 0

/-! ### LINTEL, CLOCK and TIME -/

/-- The display runs (R547). -/
def displayRuns (s : State) : Bool :=
  s.lintel.mainOn && s.lintel.vbatOk && s.boot.running && (items s).display.dispEn == 1

/-- The journal only waits for a busy flash: a program, a verify settle or an erase is in progress (Table 2.4). -/
def flashWaits (s : State) : Bool := match s.journal.op with
  | .none => false
  | .lock => false
  | _ => true

/-- The temperature channels hold an input on its excitation, in Rest until 30 µs before the settle ends (R248). -/
def tempSettles (s : State) : Bool := match s.temp.run with
  | some r => r.stage == .settle && decide (s.time.d04 + 1 < r.dueAt)
  | none => false

/-- The power state demanded by the work in progress (R75, R123): 0 Rest, 1 Watch, 2 Work, 3 Shot, 4 Air. The 39 MHz
crystal runs in Air alone, its 2 ms run-on included (Table 2.7, D09); a radio job that waits in its context for its instant
asks for nothing yet (R375 and the worked case of chapter 3, steps 3 to 20; log 36, DEDUCED). -/
def powerState (s : State) : Nat :=
  let busy := fun n => !(onEngine s n).isEmpty
  if s.radio.act.kind != .none || s.lintel.xoOn then 4
  else if [1, 2, 3, 4].any busy then 3
  else if [0, 5, 7, 8, 9, 12, 13, 14, 15].any busy || (busy 10 && !flashWaits s) || s.journal.op == .lock
      || s.mason.ctxs.toList.any (fun c => c.busy && c.job.isNone && !c.waiting) then 2
  else if (busy 6 && !tempSettles s) || flashWaits s then 1 else 0

/-- The work-SRAM banks that are powered: in Rest those that hold an owned granule (R76). -/
def banksPowered (s : State) : Nat :=
  if powerState s ≠ 0 then 12
  else ((List.range 12).filter fun b =>
    (List.range 16).any fun i => (nth s.fabric.grans (16 * b + i)).owner != 0xFF).length

/-- Today's spend, µC. -/
def spentToday (s : State) : Nat := s.lintel.gov.today.toList.foldl (· + ·) 0

/-- A word of LINTEL (Table 2.10). -/
def readLintel (s : State) (off : Nat) : Nat :=
  let l := s.lintel
  let g := l.gov
  match off with
  | 0x000 => b2n l.vbatOk + 2 * b2n l.vbakLow + 4 * b2n l.srcVbak + 8 * b2n l.vbatRev
  | 0x004 => b2n l.coldStatus
  | 0x008 => satNat 16 l.vbatMv + satNat 16 l.minLoaded * 2 ^ 16
  | 0x00C => satNat 16 l.vbakMv
  | 0x010 => l.handover.toNat
  | 0x014 => l.switches.toNat
  | 0x018 => l.coldCount.toNat
  | 0x01C => l.brownouts.toNat
  | 0x020 => half l.lossDt.toNat 0
  | 0x024 => half l.lossDt.toNat 1
  | 0x030 => powerState s + b2n (displayRuns s) * 2 ^ 8 + banksPowered s * 2 ^ 16
  | 0x040 => g.allow
  | 0x044 => satNat 32 (spentToday s)
  | 0x048 => g.dayIndex
  | 0x04C => satNat 32 (g.usedUc / 1000)
  | 0x050 => satNat 32 (g.bakUc / 1000)
  | 0x0A0 => b2n g.clamped + 2 * b2n g.cExhausted + 4 * b2n g.hExhausted + 8 * b2n g.throttle
  | 0x0A4 => g.clampCount.toNat
  | 0x0A8 => g.refused.toNat
  | _ =>
    if 0x060 ≤ off && off < 0x080 then satNat 32 (nth g.today ((off - 0x060) / 4))
    else if 0x080 ≤ off && off < 0x0A0 then satNat 32 (nth g.yesterday ((off - 0x080) / 4))
    else 0

/-- The domain Dn runs now, under the condition of its row of Table 2.7, as a master reads it (R90). -/
def domainRuns (s : State) (master n : Nat) : Bool :=
  let air := s.radio.act.kind != .none
  let shot := (shotRun s).isSome || [1, 2, 3].any fun e => !(onEngine s e).isEmpty
  let window := windowOpen s
  let bursts := match openRun s with
    | some (r, _) =>
      let p := pathItems s r.path
      decide (s.time.ticks ≤ r.startedAt + wholeTicks ((p.pulses + p.dampN) * 8 * p.burstHalf / p.f16Q))
    | none => false
  let conv := match s.temp.run with
    | some r => r.stage != .settle
    | none => false
  match n with
  | 1 => s.ports.spActive || master == 1
  | 2 => s.probe.packet.isSome || master == 2
  | 3 => s.ports.opt != .sleep
  | 4 => s.clock.xlOk
  | 6 => !s.faults.grave
  | 8 => s.mason.running && decide (2 ≤ powerState s)
  | 9 => s.lintel.xoOn
  | 10 => s.radio.locked
  | 11 => air
  | 12 => air || s.link.conns.toList.any fun c => c.kind != 0 && c.sleepy
  | 13 => window
  | 14 => window
  | 15 => shot
  | 16 => bursts
  | 17 => conv
  | 18 => conv
  | 19 => (onEngine s 13).any fun j => decide (j.desc.opcode ≤ 7)
  | 20 => s.entropy.running
  | 21 => displayRuns s
  | 22 => !flashIdle s || !(onEngine s 10).isEmpty
  | 25 => s.clock.d25
  | _ => true

/-- A word of CLOCK (Table 2.11). -/
def readClock (s : State) (master off : Nat) : Nat :=
  let c := s.clock
  match off with
  | 0x000 => (List.range 25).foldl (fun acc i => acc + b2n (domainRuns s master (i + 1)) * 2 ^ i) 0
  | 0x004 => b2n c.xlOk + 2 * b2n c.onRc + satNat 8 c.retries * 2 ^ 8
  | 0x008 => twos 16 c.rcPpm
  | 0x00C => b2n c.xoOk + satNat 16 c.xoStartUs * 2 ^ 16
  | 0x010 => twos 16 c.linkPpm
  | 0x014 => satNat 16 ((s.time.ticks - c.kickAt) * 1000 / 32768) + b2n c.wdogPaused * 2 ^ 16
  | 0x018 => c.monFail.toNat
  | _ => 0

/-- A word of TIME (Table 2.16). -/
def readTime (s : State) (off : Nat) : Nat :=
  let t := s.time
  match off with
  | 0x000 => half t.dt.toNat 0
  | 0x004 => half t.dt.toNat 1
  | 0x008 => (if t.invalid then 3 else b2n (unsynced s)) + 4 * b2n (unsynced s) + 8 * b2n t.invalid
      + 16 * b2n (t.stepSums.toList.any fun x => decide (60 * 32768 < x))
  | 0x00C => satNat 16 (t.sinceSet / (86400 * 32768))
  | 0x010 => half t.lastSetDt.toNat 0
  | 0x014 => half t.lastSetDt.toNat 1
  | 0x018 => twos 32 t.lastStep
  | 0x01C => t.setCount.toNat
  | 0x020 => half t.setValue.toNat 0
  | 0x024 => half t.setValue.toNat 1
  | 0x02C => b2n t.pend.isSome + t.last * 2 ^ 8
  | _ => 0

/-! ### FABRIC and QUEUE -/

/-- Tags held of each class (TAG_USE) and the other counts of Table 3.9. -/
def readFabric (s : State) (off : Nat) : Nat :=
  let f := s.fabric
  let four := fun (g : Nat → Nat) => g 0 + g 1 * 2 ^ 8 + g 2 * 2 ^ 16 + g 3 * 2 ^ 24
  let grans := f.grans.toList
  match off with
  | 0x000 => four (tagHeld s)
  | 0x004 => tagUse s .shared + tagUse s .lent * 2 ^ 8
  | 0x008 => four fun c => (grans.filter fun g => g.owner != 0xFF && g.owner / 64 == c).length
  | 0x00C => (freeGrans s).length + (grans.filter (·.scrubbing)).length * 2 ^ 8
      + (grans.filter (·.retired)).length * 2 ^ 16
  | 0x010 => f.mDelay.toNat
  | 0x014 => f.mDelayMax
  | 0x018 => f.bDelay.toNat
  | 0x01C => f.evicts.toNat
  | 0x020 => f.refuseC.toNat + f.refuseH.toNat * 2 ^ 16
  | 0x024 => f.deferC.toNat + f.deferH.toNat * 2 ^ 16
  | 0x028 => f.conflicts.toNat
  | 0x02C => four fun c => (nth f.timeouts c).toNat
  | 0x030 => b2n s.mason.running + 2 * b2n s.mason.lock.isSome + 4 * b2n s.mason.halted
      + ((s.mason.lock.map fun l => l.1.code).getD 0) * 2 ^ 4
      + (List.range 8).foldl (fun acc i => acc + b2n (nth s.mason.ctxs i).busy * 2 ^ (8 + i)) 0
      + s.mason.fifo.length * 2 ^ 16
  | 0x034 => satNat 24 s.mason.lockUs
  | 0x038 => s.mason.drops.toNat
  | 0x03C => f.overruns.toNat
  | 0x040 => (List.range 32).foldl (fun acc q => acc + b2n (notifyBit s q) * 2 ^ q) 0
  | 0x044 => (List.range 32).foldl (fun acc q => acc + b2n (notifyBit s (32 + q)) * 2 ^ q) 0
  | _ =>
    if 0x200 ≤ off && off < 0x500 then
      let g := nth f.grans ((off - 0x200) / 4)
      g.next + g.owner * 2 ^ 8 + b2n (g.lent != 0) * 2 ^ 16 + b2n g.scrubbing * 2 ^ 17 + b2n g.secret * 2 ^ 18
        + b2n g.retired * 2 ^ 19 + b2n g.published * 2 ^ 20
    else 0

/-- The oldest unread record of a queue's ring. -/
def ringHead (s : State) (q : Nat) : Option Cpl := (nth s.fabric.queues q).ring.head?

/-- A word of the QUEUE block for a master (Table 3.11), without side effect. -/
def readQueue (s : State) (master off : Nat) : Nat :=
  let q := off / 0x40
  let x := nth s.fabric.queues q
  let cpl := fun i => ((ringHead s q).map (·.word i)).getD 0
  match off % 0x40 with
  | 0x20 => cpl 0
  | 0x24 => cpl 1
  | 0x28 => cpl 2
  | 0x2C => cpl 3
  | 0x30 => fifoLen s q + x.ring.length * 2 ^ 4 + b2n x.overrun * 2 ^ 11 + b2n (queueFenced s q) * 2 ^ 12
      + b2n (queueEnabled s q) * 2 ^ 13 + b2n (notifyBit s q) * 2 ^ 14
  | 0x34 => (s.fabric.jobs.filter fun j => j.queue == q && j.tag.isSome).length
  | 0x38 => b2n x.notifyEn
  | 0x3C => let y := nth x.submit master
    if master < 6 then y.1 + b2n y.2 * 2 ^ 16 else 0
  | _ => 0

/-! ### LCD, PORTS and DEBUG -/

/-- A word of the two-word line memory at an offset. -/
def lineWord (m : Vector Nat 8) (off : Nat) : Nat := half (nth m (off / 8)) (off % 8 / 4)

/-- A word of LCD (Table 16.3). -/
def readLcd (s : State) (off : Nat) : Nat :=
  let l := s.lcd
  match off with
  | 0x000 => b2n (displayRuns s) + 2 * (l.frame.toNat % 2) + 4 * b2n l.pend.isSome + 8 * b2n l.faultShown + l.page * 2 ^ 8
  | 0x004 => l.pageSel + b2n l.hold * 2 ^ 9
  | 0x008 => l.frame.toNat
  | 0x00C => satNat 13 l.target + satNat 13 l.measured * 2 ^ 16
  | 0x010 => twos 32 l.tDie
  | 0x014 => l.lines.toNat + l.superseded.toNat * 2 ^ 16
  | 0x018 => match l.short with
    | some p => p.1 + p.2 * 2 ^ 8 + 2 ^ 16
    | none => 0
  | _ =>
    if 0x040 ≤ off && off < 0x080 then lineWord l.drive (off - 0x040)
    else if 0x080 ≤ off && off < 0x0C0 then lineWord l.shadow (off - 0x080)
    else 0

/-- A word of PORTS for a master (Table 17.9). -/
def readPorts (s : State) (master off : Nat) : Nat :=
  let p := s.ports
  match off with
  | 0x000 => b2n p.spActive + p.spLast * 2 ^ 8
  | 0x004 => p.spFrames.toNat
  | 0x008 => p.spCrc.toNat + p.spFrame.toNat * 2 ^ 16
  | 0x00C => p.lwResult + p.lwApplied * 2 ^ 8 + p.lwWinner * 2 ^ 16
  | 0x010 => at0 p.lastPop 0
  | 0x014 => at0 p.lastPop 1
  | 0x018 => at0 p.lastPop 2
  | 0x01C => at0 p.lastPop 3
  | 0x020 => match p.lastPopQ with
    | some q => q + 2 ^ 31
    | none => 0
  | 0x030 =>
    let c := nth p.granCtl master
    if master < 6 then c.1 + c.2.1 * 2 ^ 8 + (portGrans s master).length * 2 ^ 16 + c.2.2 * 2 ^ 24 else 0xFF00
  | 0x040 => (match p.opt with
      | .sleep => 0 | .wake => 1 | .opened => 2) + p.rate * 2 ^ 2 + b2n (nth s.roles.sess 1).isOpen * 2 ^ 5
  | 0x044 => p.optRx.toNat + p.optTx.toNat * 2 ^ 16
  | 0x048 => p.optFrame.toNat + p.optTag.toNat * 2 ^ 16
  | 0x04C => p.optWakes.toNat
  | _ => 0

/-- Milliseconds left of a freeze (R588). -/
def freezeLeft (s : State) : Nat :=
  match s.fabric.frozen with
  | some t => (t + secTicks (items s).ports.freezeMaxS - s.time.ticks) * 1000 / 32768
  | none => 0

/-- A word of DEBUG (Table 17.10). -/
def readDebug (s : State) (off : Nat) : Nat :=
  let d := s.probe
  match off with
  | 0x000 => debugLevel s + b2n (nth s.roles.sess 2).isOpen * 2 ^ 2 + b2n s.mason.halted * 2 ^ 3
      + b2n d.haltPending * 2 ^ 4 + b2n s.fabric.frozen.isSome * 2 ^ 5
      + ((s.mason.lock.map fun l => l.1.code).getD 0) * 2 ^ 6 + satNat 16 (freezeLeft s) * 2 ^ 16
  | 0x004 => d.result + d.winner * 2 ^ 8 + d.op * 2 ^ 16
  | 0x008 => d.halts.toNat + d.forced.toNat * 2 ^ 16
  | 0x00C => d.protocol.toNat
  | _ =>
    if 0x020 ≤ off && off < 0x040 then
      let c := nth s.mason.ctxs ((off - 0x020) / 4)
      c.pc % 2 ^ 11 + c.recipe * 2 ^ 11 + b2n c.busy * 2 ^ 24 + b2n c.waiting * 2 ^ 25
    else 0

end Sys2Proof.Machine
end

