-- ==== Sys2Proof/Machine/Image.lean ====
section
/-! DEFINITION. The foundation image as bytes: header, directory, sections and trailer (R24 to R28), the copies in flash
and the selection between them (R36, Table 1.6). -/

namespace Sys2Proof.Machine

/-! ### Layout -/

/-- A directory entry (R25). -/
structure DirEntry where
  id : Nat := 0
  attr : Nat := 0
  version : Nat := 0
  off : Nat := 0
  len : Nat := 0
  deriving DecidableEq, Repr, Inhabited

/-- The attribute byte of a section (Table 1.3). -/
def sectionAttr (id : Nat) : Nat :=
  if 5 ≤ id ∧ id ≤ 8 then 1 else if id = 0x0E ∨ id = 0x0F ∨ id = 0x10 ∨ id = 0x12 then 2 else 0

/-- The directory of an image. -/
def directory (bs : List Byte) : List DirEntry :=
  (List.range (leAt bs 0x14 2)).map fun i =>
    let o := 0x40 + 8 * i
    ⟨leAt bs o 1, leAt bs (o + 1) 1, leAt bs (o + 2) 2, leAt bs (o + 4) 2, leAt bs (o + 6) 2⟩

/-- The sections that every image holds (Table 1.3). -/
def requiredSections : List Nat := [1, 2, 3, 4, 5, 6, 8, 9, 0x0A, 0x0B, 0x0E, 0x0F, 0x10, 0x12]

/-- Section 0x01 is well formed (Table 1.13): its strings with their bounds, and zeros after the last. -/
def textEntries : (n : Nat) → (last : Nat) → List Byte → Bool
  | 0, _, l => l.all (· == 0)
  | n + 1, last, l =>
    let id := leAt l 0 1
    let len := leAt l 1 1
    decide (last < id) && within 1 64 len && decide (2 + len ≤ l.length)
      && ((l.drop 2).take len).all (fun b => within 0x20 0x7E b.toNat) && textEntries n id (l.drop (2 + len))

/-- Section 0x01 passes test 9 (R614, Table 1.13). -/
def textOk (b : List Byte) : Bool :=
  decide (16 ≤ b.length) && decide (b.length ≤ 1024) && b.length % 4 == 0 && at0 b 0 == 1
  && decide (leAt b 1 1 ≤ 16) && leAt b 2 2 == 0
  && ((b.drop 4).take 8).all (fun x => decide (x.toNat % 16 ≤ 9) && decide (x.toNat / 16 ≤ 9))
  && leAt b 12 4 == 0 && textEntries (leAt b 1 1) 0 (b.drop 16)

/-- Section 0x04 (Table 3.6): four counts, then the event table, the recipe index, the steps and the templates. -/
def decodeMason (b : List Byte) : Option MasonItems :=
  let ne := leAt b 0 4
  let nr := leAt b 4 4
  let ns := leAt b 8 4
  let nt := leAt b 12 4
  let oe := 16
  let or_ := oe + 8 * ne
  let os := or_ + 4 * nr
  let ot := os + 8 * ns
  let stop := ot + 32 * nt
  if b.length < stop || 256 < ne || 128 < nr || 2048 < ns || 256 < nt || !(b.drop stop).all (· == 0) then none
  else do
    let steps ← (List.range ns).mapM fun i => Config.decodeStep (slice b (os + 8 * i) 8)
    some {
      events := (List.range ne).map fun i =>
        let o := oe + 8 * i
        ⟨leAt b o 1, leAt b (o + 1) 1, leAt b (o + 2) 2, leAt b (o + 4) 4⟩
      recipes := (List.range nr).map fun i => ⟨leAt b (or_ + 4 * i) 2, leAt b (or_ + 4 * i + 2) 2⟩
      steps := steps
      templates := (List.range nt).map fun i =>
        (List.range 8).map fun k => BitVec.ofNat 32 (leAt b (ot + 32 * i + 4 * k) 4) }

/-- A body is long enough, and holds 0x00 in its reserved bytes and after its last item (R28 test 9). -/
def bodyPadded (b : List Byte) (len : Nat) (reserved : List Nat) : Bool :=
  decide (len ≤ b.length) && (b.drop len).all (· == 0) && reserved.all fun i => at0 b i == 0

/-- One section body put into the items; none where it fails the first three parts of test 9. -/
def decodeBody (id : Nat) (b : List Byte) (its : Items) : Option Items :=
  if id = 0x01 then (if textOk b then some its else none)
  else if id = 0x04 then (decodeMason b).map fun m => { its with mason := m }
  else
    let r := Config.decodeSection id b its
    if bodyPadded b r.2.1 r.2.2 then some r.1 else none

/-- Every section body put into the items. -/
def decodeAll : List (Nat × List Byte) → Items → Option Items
  | [], its => some its
  | (id, b) :: rest, its => (decodeBody id b its).bind (decodeAll rest)

/-- Every item of the sections present lies in its range and obeys its relations (R28 test 9). -/
def Items.inRange (its : Items) (has : Nat → Bool) (kind paths flashSize watch : Nat) : Bool :=
  within 1 4 kind && within 1 2 paths
  && its.power.inRange && its.fabric.inRange && its.mason.inRange && its.mason.billingOk
  && its.shot.inRange its.mason (at0 its.fabric.trig 0).template paths && its.flow.inRange paths
  && (!has 0x07 || its.temp.inRange kind) && its.integ.inRange its.shot.perMaxMs its.temp kind
  && its.bill.inRange && its.tamper.inRange && its.journal.inRange its.fabric flashSize
  && (!has 0x0C || its.radio.inRange its.mason watch) && (!has 0x0D || its.link.inRange its.radio)
  && its.keys.inRange && its.roles.inRange
  && [1, 2, 3].all (fun r => its.keys.roleSlotOk (at0 its.roles.roleSlot (r - 1)) r)
  && its.fault.inRange && (!has 0x11 || its.display.inRange) && its.ports.inRange

/-! ### Judging a copy (R28) -/

/-- What the judgement of a copy gives: its reject reason (0: valid), header fields, computed check values and, where it
is valid, the configuration. -/
structure Judged where
  reject : Nat := 1
  active : Bool := false
  seq : Nat := 0
  crc : Word := 0
  cmac : List Byte := []
  activateDt : DWord := 0
  img : RunImage := {}
  deriving DecidableEq, Repr, Inhabited

/-- The bytes that both check values are computed over: STATE taken as 0xFF (R27). -/
def maskState (bs : List Byte) : List Byte := bs.set 0x13 0xFF

/-- CRC-32 over every byte before its own field (R26). -/
def imageCrc (bs : List Byte) : Word := crc32 ((maskState bs).take (bs.length - 4))

/-- CMAC under the maker image key over every byte up to the trailer (R26). -/
def imageCmac (key bs : List Byte) : List Byte := cmac key ((maskState bs).take (bs.length - 20))

/-- CRC-32 over the bodies of sections 0x05 to 0x08 (R28 test 8). -/
def metroCrc (bodies : List (Nat × List Byte)) : Word :=
  crc32 ((bodies.filter fun b => sectionAttr b.1 == 1).flatMap (·.2))

/-- Section bodies by directory order. -/
def imageBodies (bs : List Byte) : List (Nat × List Byte) := (directory bs).map fun d => (d.id, slice bs d.off d.len)

/-- The section 0x07 is required: heat, cooling, and gas with conversion (Table 1.3). -/
def needsTemp (kind : Nat) (bodies : List (Nat × List Byte)) : Bool :=
  kind == 1 || kind == 2 || (kind == 4 && (bodies.find? fun b => b.1 == 8).any fun b =>
    (decodeBody 8 b.2 {}).any fun i => i.integ.gasConv != 0)

/-- The directory passes R25 and test 8 of R28. -/
def directoryOk (bs : List Byte) : Bool :=
  let n := leAt bs 0x14 2
  let d := directory bs
  let kind := leAt bs 0x20 1 % 16
  within 1 32 n && decide (0x40 + 8 * n ≤ bs.length - 20)
  && rising (0 :: d.map (·.id))
  && d.all (fun e => decide (e.id ≤ 0x12) && e.attr == sectionAttr e.id && e.off % 4 == 0
      && decide (0x40 + 8 * n ≤ e.off) && decide (e.off + e.len ≤ bs.length - 20))
  && d.all (fun a => d.all fun b => a.id == b.id || decide (a.off + a.len ≤ b.off) || decide (b.off + b.len ≤ a.off))
  && requiredSections.all (fun i => d.any (·.id == i))
  && (!needsTemp kind (imageBodies bs) || d.any (·.id == 7))
  && BitVec.ofNat 32 (leAt bs 0x24 4) == metroCrc (imageBodies bs)

/-- The header fields of Table 1.2 that a valid copy gives, with its items. -/
def runImage (bs : List Byte) (its : Items) : RunImage :=
  { seq := leAt bs 0x0C 4, metro := BitVec.ofNat 32 (leAt bs 0x24 4), meterType := BitVec.ofNat 32 (leAt bs 0x20 4)
    buildDt := BitVec.ofNat 64 (leAt bs 0x18 8), bodies := imageBodies bs, items := its }

/-- The ten tests of R28 in order: the reason of the first that fails, or 0 with the items. -/
def imageTests (key : Option (List Byte)) (rev : Nat) (sealedCrc : Option Nat) (flashSize watch : Nat) (bs : List Byte) :
    Nat × Items :=
  let len := leAt bs 8 4
  if leAt bs 0 4 = 0xFFFFFFFF then (1, {})
  else if leAt bs 0 4 ≠ 0x49464C59 ∨ leAt bs 4 2 ≠ 1 ∨ leAt bs 0x16 2 ≠ 0 ∨ leAt bs 0x34 12 ≠ 0 then (2, {})
  else if leAt bs 6 2 ≠ 64 ∨ len % 4 ≠ 0 ∨ !within 256 61440 len then (3, {})
  else if leAt bs 0x10 2 ≠ 0x9640 ∨ rev < leAt bs 0x12 1 then (6, {})
  else if leAt bs 0x0C 4 = 0 then (10, {})
  else if (imageCrc bs).toNat ≠ leAt bs (len - 4) 4 then (4, {})
  else if (key.map fun k => imageCmac k bs) ≠ some (slice bs (len - 20) 16) then (5, {})
  else if !directoryOk bs then (7, {})
  else
    let bodies := imageBodies bs
    let mt := leAt bs 0x20 4
    match (if (directory bs).all (·.version == 1) then decodeAll bodies {} else none) with
    | none => (8, {})
    | some its =>
      if !its.inRange (fun i => bodies.any (·.1 == i)) (mt % 16) (bits 7 4 mt) flashSize watch then (8, {})
      else if sealedCrc.isSome && sealedCrc != some (leAt bs 0x24 4) then (9, {})
      else (0, its)

/-- The judgement of an image's bytes. -/
def judgeBytes (s : State) (bs : List Byte) : Judged :=
  let sl := nth s.keys.slots 0
  let key := if slotUsable s 0 then some sl.key else none
  let r := imageTests key (siliconRev s) (if isSealed s then some (ofLE (otpBytes s 0x144 4)) else none) s.journal.size
    s.radio.watch bs
  { reject := r.1, active := leAt bs 0x13 1 == 0x5A, seq := leAt bs 0x0C 4
    crc := imageCrc bs, cmac := (key.map fun k => imageCmac k bs).getD []
    activateDt := BitVec.ofNat 64 (leAt bs 0x2C 8)
    img := if r.1 = 0 then runImage bs r.2 else {} }

/-- The base address of a copy (Table 1.1). -/
def copyBase (b : Bool) : Nat := if b then 0x10000 else 0

/-- The bytes of a copy in flash: its header, and IMG_LEN bytes where that length is one an image may have. -/
def copyBytes (s : State) (b : Bool) : List Byte :=
  let len := ofLE (flashRead s (copyBase b + 8) 4)
  flashRead s (copyBase b) (if within 256 61440 len && len % 4 == 0 then len else 64)

/-- The judgement of a copy. -/
def judgeCopy (s : State) (b : Bool) : Judged := judgeBytes s (copyBytes s b)

/-- What BOOT shows of a judged copy. -/
def Judged.status (j : Judged) : CopyStatus :=
  { valid := j.reject == 0, active := j.active && j.reject != 1, reject := j.reject, seq := j.seq }

/-! ### Selection (R36, Table 1.6) -/

/-- What the selection gives: the copy that runs (true: B), CFG_COPY_DIVERGE and CFG_SEQ_TIE. -/
structure Selection where
  run : Option Bool := none
  diverge : Bool := false
  tie : Bool := false
  deriving DecidableEq, Repr, Inhabited

/-- Table 1.6. -/
def selectCopy (a b : Judged) : Selection :=
  let same := decide (a.crc = b.crc ∧ a.cmac = b.cmac)
  if a.reject = 0 ∧ b.reject = 0 then
    let one := a.active != b.active
    if a.seq ≠ b.seq then { run := some (if one then b.active else decide (a.seq < b.seq)) }
    else { run := some (one && b.active), tie := decide (a.cmac ≠ b.cmac) }
  else if a.reject = 0 then { run := some false, diverge := same }
  else if b.reject = 0 then { run := some true, diverge := same }
  else {}

end Sys2Proof.Machine
end

