-- ==== Sys2Proof/Machine/Startup.lean ====
section
/-! DEFINITION. The main domain going off, and bring-up: the boot stages of Table 1.5, the bare state, the checks of the
AON content and the self-tests (R29 to R44, R67 to R74, R286, R316, R322, R459, R465, R511, R515). -/

namespace Sys2Proof.Machine

/-! ### The main domain off (R67) -/

/-- The block whose window shows a unit's fence (Table 15.4). -/
def FaultUnit.block : FaultUnit → Block
  | .frontPath _ => .front | .scribe => .scribe | .ftu => .ftu | .shot => .shot | .temp => .temp | .integ => .integ
  | .bill => .bill | .tamper => .tamper | .journal => .journal | .radio => .radio | .link => .link
  | .cipher => .cipher | .entropy => .entropy | .keyslot => .keyslot | .lcd => .lcd

/-- A unit is fenced. -/
def unitFenced (s : State) : FaultUnit → Bool
  | .frontPath p => pathFenced s p
  | u => (winOf s u.block).fenced

/-- The source that UNIT_STATE.BY and BY_SOURCE name. -/
def fencedBy (s : State) (b : Block) : FaultSrc :=
  let w := winOf s b
  ⟨(Block.all.find? fun x => x.byte == w.by_).getD b, w.bySource⟩

/-- The units that are fenced now, with what fenced them. -/
def fencedUnits (s : State) : List (FaultUnit × FaultSrc) :=
  (allUnits.filter (unitFenced s)).map fun u => (u, fencedBy s u.block)

/-- What the main domain leaves when its supply or its reset takes it away: the AON domain, the flash and OTP (R67,
Table 2.3). A flash operation is cut off, session slots are erased, every job and the work SRAM are lost (log 26, DESIGN CHOICE). -/
def mainOff (s0 : State) : State :=
  let s := (List.range 4).foldl (fun t i => emptySlot (sessionSlot i) t) (cutFlash s0)
  { pending := s.pending, otp := s.otp, otpCrc := s.otpCrc, flash := s.flash, draws := s.draws
    boot := { img := s.boot.img, reseatCount := s.boot.reseatCount }
    lintel := { s.lintel with
      mainOn := false, wasOff := true, vbatMv := 0, vbakMv := 0, minLoaded := 0, txHeld := false
      peak := .none, eraseSuspended := false, xoOn := false
      gov := { s.lintel.gov with clampCount := 0 } }
    clock := { s.clock with
      xoOk := false, xoStartUs := 0, linkPpm := 0, monFail := 0, wdogPaused := false, kickAt := s.time.ticks }
    time := { s.time with
      setValue := 0, pend := none, last := 0, due := Vector.replicate 4 false, calDue := false, latches := [] }
    faults := {
      win := Vector.ofFn fun i => { histDropped := (nth s.faults.win i.val).histDropped }
      hist := s.faults.hist, aonLatched := s.faults.aonLatched, d05Halves := s.faults.d05Halves
      fencedBefore := fencedUnits s0 }
    shot := { paths := Vector.ofFn fun i => { zeroOfs := (nth s.shot.paths i.val).zeroOfs } }
    integ := {
      copies := s.integ.copies, newest := s.integ.newest, stepSum := s.integ.stepSum, lpFlags := s.integ.lpFlags
      errRun := s.integ.errRun }
    bill := {
      extIn := s.bill.extIn, extAt := s.bill.extAt, slots := s.bill.slots, newest := s.bill.newest, snapSeq := s.bill.snapSeq
      lastKey := s.bill.lastKey, reqToday := s.bill.reqToday, reqDay := s.bill.reqDay, lost := s.bill.lost }
    tamper := s.tamper
    ports := { optAt := s.time.ticks }
    journal := {
      pend := s.journal.pend.map fun p => { p with jobs := [], waitVbat := false, waitResume := false }
      unstable := s.journal.unstable }
    radio := {
      watch := s.radio.watch, bad := s.radio.bad, good := s.radio.good, watchChanges := s.radio.watchChanges
      txc := s.radio.txc, txcRes := s.radio.txcRes, peers := s.radio.peers }
    link := {
      fcnt := s.link.fcnt, fcntRes := s.link.fcntRes, ofcnt := s.link.ofcnt, ofcntRes := s.link.ofcntRes
      orig := s.link.orig }
    keys := { s.keys with eraseNs := 0, loads := 0, loadFails := 0 }
    roles := {
      sess := Vector.ofFn fun i =>
        { fails := (nth s.roles.sess i.val).fails, lockUntil := (nth s.roles.sess i.val).lockUntil }
      consents := s.roles.consents, nextRef := s.roles.nextRef, auditSeq := s.roles.auditSeq
      auditQueue := s.roles.auditQueue, auditDrop := s.roles.auditDrop } }

/-- What a loss of retention leaves of the AON domain (Table 2.3, cold column): nothing but the input levels, the time
base and the latches of R515. -/
def coldAon (s : State) : State :=
  { s with
    time := { s.time with
      dt := 0, sinceSet := 0, invalid := true, stepSums := Vector.replicate 8 0, lastSetDt := 0, lastStep := 0
      setCount := 0 }
    lintel := { s.lintel with
      handover := 0, switches := 0, brownouts := 0, coldCount := 0, lossDt := 0, gov := { dayStart := s.time.d04 } }
    clock := { s.clock with rcPpm := 0 }
    faults := { s.faults with
      hist := [], d05Halves := 0, fencedBefore := []
      win := s.faults.win.map fun w => { w with histDropped := 0 } }
    shot := {}
    integ := {}
    bill := { extIn := s.bill.extIn, extAt := s.bill.extAt }
    tamper := { mag := s.tamper.mag, case_ := s.tamper.case_, pls := s.tamper.pls, plsAt := s.tamper.plsAt }
    journal := { unstable := s.journal.unstable }
    radio := {}
    link := {}
    keys := {}
    roles := {} }

/-! ### The bare state (R43, R44, R493) -/

/-- What starts the chip: VBAT or VIO rising, RESET_N, or the watchdog. -/
inductive StartCause where
  | power | pin | wdog
  deriving DecidableEq, Repr, Inhabited

/-- The bare-state maker key (R44). -/
def bareKey (s : State) : List Byte := cmac (nth s.keys.slots 0).key (asciiTag "BARE" ++ serial s)

/-- The bare state entered with a boot reason in the present stage (R40, R43): the key of R493 stands in slot 3. -/
def enterBare (reason : Nat) (s : State) : State :=
  let s1 := modBoot (fun b =>
    { b with bare := true, running := false, reason := reason, stageAt := b.stage, img := {} }) (abortLoads s)
  let attr : SlotAttr := ⟨2, 0x48, 3, 1, false, 0xFF⟩
  let s2 := if (nth s1.keys.slots 0).full then fillSlot 3 (bareKey s1) attr s1
    else setAttr 3 attr s1
  setLevel Src.bare true s2

/-! ### Stage 0x2: OTP and key slots -/

/-- A field of OTP passes its CRC-8 companion (Table 1.4). -/
def otpFieldOk (s : State) (off k : Nat) : Bool := s.otpCrc.get 0 off == crc8 (otpBytes s off k)

/-- The fields that R29 judges. -/
def otpFields : List (Nat × Nat) := [(0x000, 8), (0x008, 4), (0x010, 240), (0x100, 16), (0x120, 24)]

/-- OTP_BAD (R29, R34). -/
def otpBad (s : State) : Bool :=
  !(otpFields.all fun f => otpFieldOk s f.1 f.2) || (isSealed s && !otpFieldOk s 0x144 4)

/-- The check of every slot at a warm start (R459): `bad` are those whose cells have changed. One that an alarm has erased
fails it by construction; one that holds no key has nothing to check (log 10, DEDUCED). -/
def checkSlots (bad : List Nat) (s : State) : State :=
  (List.range 24).foldl (fun t n =>
    let x := nth t.keys.slots n
    if x.erased then modSlot n (fun y => { y with checkFail := true }) t
    else if x.full && (bad.contains n || x.crc != x.check) then
      raise Src.slotCheckFail (modSlot n (fun y => { y with checkFail := true }) (emptySlot n t))
    else t) s

/-- Stage 0x2: a load that the last run did not end counted (R105, R462), the slots checked, the OTP fields judged, and slot 0
reloaded (R29, R34, R459, R460). -/
def stageOtp (o : BootObs) (s : State) : State :=
  let s1 := checkSlots o.slotsBad
    (modBoot (fun b => { b with sealDtBad := isSealed s && !otpFieldOk s 0x148 8 }) (abortLoads s))
  if otpBad s1 then enterBare 2 s1
  else if (nth s1.keys.slots 0).full then s1
  else loadSlot0 (o.loadFi.contains 0) s1

/-! ### Stages 0x3 to 0x7: flash, copies, selection, apply -/

/-- Stage 0x3: the flash probe (R334). -/
def stageProbe (o : BootObs) (s : State) : State :=
  let s1 := modJournal (fun j => { j with pwr := true, accessAt := s.time.d04 }) s
  match o.jedec with
  | none => enterBare 3 s1
  | some id =>
    if id = 0 ∨ id = 0xFFFFFF then enterBare 3 s1
    else modJournal (fun j =>
      { j with
        flashId := id % 2 ^ 24, size := o.flashSize, supported := o.sfdpOk && within (2 ^ 20) (2 ^ 24) o.flashSize
        dual := o.dual, quad := o.quad, sfdpMhz := o.sfdpMhz, progUs := o.progUs, eraseMs := o.eraseMs }) s1

/-- A copy's status shown. -/
def setCopy (isB : Bool) (c : CopyStatus) (s : State) : State :=
  modBoot (fun b => if isB then { b with copyB := c } else { b with copyA := c }) s

/-- A rejected copy that is not blank raises COPY_INVALID (Table 1.12). -/
def judged (isB : Bool) (j : Judged) (s : State) : State :=
  raiseIf (decide (j.reject ≠ 0 ∧ j.reject ≠ 1)) Src.copyInvalid (setCopy isB j.status s)

/-- The blocks of the CMAC over an image that its verification comes to (R28): none where an earlier test fails. -/
def verifyBlocks (s : State) (bs : List Byte) : Nat :=
  let r := (judgeBytes s bs).reject
  if [1, 2, 3, 4, 6, 10].contains r || !(nth s.keys.slots 0).full then 0 else cipherBlocks 6 (bs.length - 20) 0

/-- A copy verified, in mode M (R453), and judged. -/
def verified (isB : Bool) (s : State) : State :=
  judged isB (judgeCopy s isB) (maskedBlocks (verifyBlocks s (copyBytes s isB)) s)

/-- Selection among two judged copies (R36, Table 1.6): flags, the running copy, or the bare state. -/
def selectRun (a b : Judged) (s : State) : State :=
  let x := selectCopy a b
  let s1 := raiseIf x.tie Src.cfgSeqTie (raiseIf x.diverge Src.cfgCopyDiverge
    (modBoot (fun y => { y with diverge := y.diverge || x.diverge, seqTie := y.seqTie || x.tie }) s))
  match x.run with
  | some r => modBoot (fun y => { y with runB := r, activateDt := if r then a.activateDt else b.activateDt }) s1
  | none => enterBare 1 s1

/-- A copy taken as rejected with reason REREAD (R39). -/
def Judged.reread (j : Judged) : Judged := { j with reject := 11 }

/-- Every item of an image put in force: its windows' enables, and the AON values its items start (R23, R158, R211). -/
def applyImage (j : Judged) (s : State) : State :=
  let s1 := modBoot (fun b => { b with img := j.img }) s
  { s1 with
    faults := { s1.faults with
      win := Vector.ofFn fun i =>
        { nth s1.faults.win i.val with enable := BitVec.ofNat 16 (at0 (items s1).fault.enableInit i.val) } } }

/-- The slots given the attributes of the image in force (R458), and every slot that an entry of it loads and that holds no
checked key loaded (R459, R460); `fi` are those whose load meets a mismatch of the engine's own check. A slot that an alarm
has erased and that no entry loads is empty from here on (R467). -/
def loadSlots (fi : List Nat) (s : State) : State :=
  let k := (items s).keys
  (List.range 23).foldl (fun t i =>
    let n := i + 1
    let full := (nth t.keys.slots n).full
    match k.entry n with
    | some e =>
      if e.attr.source = 0 && !full then loadEntry (fi.contains n) e t
      else modSlot n (fun x => { x with erased := false }) (setAttr n e.attr t)
    | none => modSlot n (fun x => { x with erased := false }) (setAttr n {} t)) s

/-- Stage 0x7: the selected copy re-read and applied, the STATE byte of a pending copy programmed, keys unwrapped
(R37, R39). `cold` starts ZERO_OFS from the image's items. -/
def applyCopy (cold : Bool) (fi : List Nat) (isB : Bool) (j : Judged) (s : State) : State :=
  let s1 := if j.active then s
    else setCopy isB { j.status with active := true } (programByte {} (copyBase isB + 0x13) 0x5A s)
  let s2 := loadSlots fi (applyImage j s1)
  if cold then
    { s2 with shot := { s2.shot with
        paths := Vector.ofFn fun i =>
          { nth s2.shot.paths i.val with zeroOfs := psUnits (pathItems s2 i.val).zeroInitPs } } }
  else s2

/-- Stages 0x6 and 0x7 (R36 to R39): a copy whose re-read fails gives way to the other as the only candidate. -/
def stageApply (cold : Bool) (o : BootObs) (s : State) : State :=
  let a := judgeCopy s false
  let b := judgeCopy s true
  let bad := fun (x : Bool) => if x then o.rereadFailB else o.rereadFailA
  let r := s.boot.runB
  if !bad r then applyCopy cold o.loadFi r (if r then b else a) s
  else
    let a1 := if r then a else a.reread
    let b1 := if r then b.reread else b
    let s1 := selectRun a1 b1 (modBoot (fun x => { x with stage := 6 })
      (judged r (if r then b1 else a1) s))
    if s1.boot.bare then s1
    else if bad (!r) then
      selectRun a1.reread b1.reread (judged (!r) (if r then a1.reread else b1.reread) s1)
    else applyCopy cold o.loadFi (!r) (if r then a else b) (modBoot (fun x => { x with stage := 7 }) s1)

/-! ### Stage 0x8: self-tests (R42) -/

/-- A unit that was fenced before stays fenced where its own self-test fails (R156, R523). -/
def refence (failed : Bool) (u : FaultUnit) (s : State) : State :=
  match s.faults.fencedBefore.find? fun x => decide (x.1 = u) with
  | some x => if failed then andThen (.fence u x.2) s else s
  | none => s

/-- The granules zeroed; one that does not read back zero is retired and raises SCRUB_FAIL (R127). -/
def testGranules (bad : List Nat) (s : State) : State :=
  let s1 := { s with sram := [], fabric := { s.fabric with grans := Vector.replicate 192 {} } }
  bad.foldl (fun t g => raise Src.scrubFail (modGran g (fun x => { x with retired := true }) t)) s1

/-- The random source's start-up test (R469): its 1024 raw bits pass both health tests. -/
def testEntropy (bits : List Bool) (s : State) : State :=
  let s1 := modEntropy (fun e => { e with running := true }) s
  if bits.length != 1024 then s1
  else
    let r := takeRaw bits s1
    refence (!r.2) .entropy (if r.2 then modEntropy (fun e => { e with startupOk := true }) r.1 else r.1)

/-- The fine-time unit's calibration, density and alignment measurements (R186, R188, R190). -/
def testFtu (o : BootObs) (s : State) : State :=
  let s1 := modFtu (fun f => { f with alignOfs := o.alignOfs }) s
  let ok := calInRange o.calTaps
  let v := calSum o.calTaps
  let s2 := raiseIf (!ok) Src.ftuCalRange (modFtu (fun x => { x with calOk := ok, calA := v, calB := v }) s1)
  let (s3, d) := takeDnl o.dnlCounts s2
  refence (!ok || decide (24 < d)) .ftu s3

/-- The lane trims and their refinement (R173, R176). -/
def testLanes (o : BootObs) (s : State) : State :=
  let trims := otpBytes s 0x10 240
  let ok := (List.range 4).foldl (fun acc i => acc + b2n (!o.laneBad.contains i) * 2 ^ i) 0
  let s1 := modScribe (fun x =>
    { x with
      laneOk := ok
      trims := Vector.ofFn fun i => (o.laneTrims[i.val]?.getD (Config.laneTrim trims i.val)) % 64 }) s
  refence (!o.laneBad.isEmpty) .scribe (setLevel Src.laneSkew (!o.laneBad.isEmpty) s1)

/-- The line checks of every path the meter uses (R153, R156): a path that was fenced reopens only if both of its lines
were checked, and are OK. -/
def testLines (o : BootObs) (s : State) : State :=
  let l := o.lines.filter fun x => decide (x.1 < pathCount s)
  let r := l.foldl (fun (x : State × List (Nat × Bool × Bool)) c =>
    let y := checkLine c.1 c.2.1 false c.2.2 x.1
    (y.1, (c.1, c.2.1, y.2 == 0) :: x.2)) (s, [])
  let ok := fun p => r.2.contains (p, true, true) && r.2.contains (p, false, true)
    && !r.2.any fun x => x.1 == p && !x.2.2
  (List.range (pathCount s)).foldl (fun t p => refence (!ok p) (.frontPath p) t) r.1

/-- The segment check of stage 0x8 (R556). -/
def testSegments (o : BootObs) (s : State) : State :=
  if (items s).display.dispEn = 0 then s
  else match o.segShort with
    | none => s
    | some p => refence true .lcd (raise Src.segShort (modLcd (fun l => { l with short := some p }) s))

/-- The self-tests of stage 0x8. -/
def stageTest (o : BootObs) (s : State) : State :=
  testSegments o (testLines o (testLanes o (testFtu o (testEntropy o.entropyBits (testGranules o.scrubBad s)))))

/-! ### The AON content at a warm start -/

/-- The integrator's AON copies (R286): of those whose CRC-32 matches, the one with the higher step count is used; where
both fail, they are restored after the mount. `bad1` and `bad2` say that a copy's cells have changed. -/
def checkInteg (bad1 bad2 : Bool) (s : State) : State :=
  let c := fun i => nth s.integ.copies i
  let x := bad1 || (c 0).crc != crc32 (c 0).bytes
  let y := bad2 || (c 1).crc != crc32 (c 1).bytes
  let use := if x then 1 else if y then 0
    else if (c 0).count = (c 1).count then s.integ.newest else b2n (decide ((c 0).count < (c 1).count))
  if x && y then
    raise Src.shadowLost (modJournal (fun j => { j with restoreDue := true })
      (modInteg (fun _ => { lost := true }) s))
  else raiseIf (x || y) Src.shadowDiverge (modInteg (fun i => { i with newest := use, shadowCopy := use, diverge := x || y }) s)

/-- The billing slots (R316): one whose CRC-32 fails is empty, and the other is the newest then. -/
def checkBill (bad : List Nat) (s : State) : State :=
  (List.range 2).foldl (fun t n =>
    if bad.contains n || (nth t.bill.slots n).crc != crc32 (nth t.bill.slots n).bytes then
      raise Src.billShadowBad (modBill (fun b =>
        { b with slots := put b.slots n {}, newest := if (nth b.slots (1 - n)).bytes.isEmpty then b.newest else 1 - n }) t)
    else t) s

/-- The tamper live state (Table 9.11): one that fails is rebuilt as at a cold start. -/
def checkTamper (bad : Bool) (s : State) : State :=
  if bad then
    raise Src.tamperStateBad (modTamper (fun t =>
      { stateBad := true, mag := t.mag, case_ := t.case_, pls := t.pls, plsAt := t.plsAt }) s)
  else s

/-- The AON content's checks at a warm start; a cold start has nothing to check. -/
def checkAon (cold : Bool) (o : BootObs) (s : State) : State :=
  if cold then modJournal (fun j => { j with restoreDue := true }) (modTamper (fun t => { t with stateBad := true }) s)
  else
    modJournal (fun j => { j with pend := j.pend.map fun p => { p with crcOk := p.crcOk && !o.pendingBad } })
      (checkTamper o.tamperBad (checkBill o.billBad (checkInteg o.accBad1 o.accBad2 s)))

/-! ### Stage 0x9: run -/

/-- The sources latched in AON are raised with their DT of detection (R515). -/
def raiseLatched (s : State) : State :=
  s.faults.aonLatched.foldl (fun t l => raiseAt l.1 (Cause.internal l.1) l.2 t)
    (modFaults (fun f => { f with aonLatched := [] }) s)

/-- The level sources whose condition outlives a start are raised again where it holds (R511). -/
def raiseLevels (s : State) : State :=
  let l : List (FaultSrc × Bool) := [
    (Src.vbakLow, s.lintel.vbakLow && (items s).power.bakFitted == 1), (Src.xlFail, !s.clock.xlOk),
    (Src.d25ActiveSealed, isSealed s && s.clock.d25), (Src.timeUnsynced, unsynced s), (Src.timeInvalid, s.time.invalid),
    (Src.billUnjournaled, s.bill.slots.toList.any fun x => !x.journaled), (Src.authLockout, anyLockout s),
    (Src.antFallback, s.radio.watch == 2),
    (Src.errorRun, decide ((items s).integ.errAlarmS * 32768 ≤ s.integ.errRun)), (Src.flashUnsupported, !s.journal.supported)]
  l.foldl (fun t x => setLevel x.1 (x.2 || (winOf t x.1.block).holds.getLsbD x.1.num) t) s

/-- The interval of ALARM_CAUSE moves on (R465). -/
def moveAlarms (s : State) : State :=
  modKeys (fun k => { k with causeOld := k.causeNew, causeNew := 0, dtOld := k.dtNew, dtNew := none }) s

/-- The engines begin: every period, timer and loop starts from its initial value, and the first shot's jitter is drawn
(R95, R140, R158, R210, R211, R378). -/
def startEngines (s0 : State) : State :=
  let now := s0.time.ticks
  let it := items s0
  let (n, s) := drawUpTo it.shot.jitterMs s0
  { s with
    clock := { s.clock with kickAt := now }
    mason := { s.mason with running := !s.faults.grave, timerBase := s.time.d04 }
    fabric := { s.fabric with trigLast := Vector.replicate 8 s.time.d04 }
    front := { s.front with
      paths := Vector.ofFn fun i =>
        let p := pathItems s i.val
        { nth s.front.paths i.val with thr := p.thrInit } }
    shot := { s.shot with
      per := it.shot.perInitMs, perNext := it.shot.perInitMs, jitter := msTicks n
      paths := s.shot.paths.map fun p => { p with plumbAt := now } }
    ftu := { s.ftu with scaleAt := now }
    lcd := { s.lcd with cfg := it.display, dwellAt := now }
    radio := { s.radio with
      txp := Vector.ofFn fun i => at0 it.radio.txpMax i.val
      dueAt := s.time.d04, probeAt := now, sniffAt := now }
    roles := { s.roles with debugSince := s.time.d04 } }

/-- The MOUNT job, as the chip submits it at every start (R356). -/
def submitMount (s : State) : State :=
  chipJob 0 (at0 (items s).journal.jrnQ 0) { opcode := 7, engine := 10 } [] s

/-- A cold start begins the first bypass window and the runs of MAG_IN and CASE_IN; at a warm start the AON state goes on
with its own (Table 2.3, R318, R319). -/
def startTamper (s : State) : State :=
  let fresh := fun (d : DebInput) => { d with sinceTick := s.time.d04, sinceDt := s.time.dt.toNat }
  modTamper (fun t => { t with bypAt := s.time.d04, mag := fresh t.mag, case_ := fresh t.case_ }) s

/-- Stage 0x9 (Table 1.5). -/
def stageRun (cold : Bool) (cause : StartCause) (o : BootObs) (s : State) : State :=
  let s0 := react 4096 s
  let s1 := (if cold then startTamper else id) <| startEngines (modBoot (fun b =>
    { b with running := true, bootMs := o.bootMs % 2 ^ 20, startTick := s.time.d04 }) s0)
  let s2 := raiseIf cold Src.coldStart (raiseIf (cause == .wdog) Src.wdogReset (raiseLevels (raiseLatched s1)))
  submitMount (drainTamper (moveAlarms s2))

/-! ### The whole course -/

/-- A stage that does not end: the key-slot load in progress in it, where there is one (R461). -/
def stalled (o : BootObs) (stage : Nat) (s : State) : State :=
  match o.loading with
  | some n => if (stage = 2 ∧ n = 0) ∨ (stage = 7 ∧ n < 20) then beginLoad n s else s
  | none => s

/-- One stage: entered, and run unless the chip is bare or a stage has not ended (R40). -/
def runStage (o : BootObs) (s : State) (x : Nat × (State → State)) : State :=
  if s.boot.bare || (s.boot.stage != 0 && o.stallAt == some s.boot.stage) then s
  else
    let s1 := modBoot (fun b => { b with stage := x.1, stageSince := s.time.ticks }) s
    if o.stallAt == some x.1 then stalled o x.1 s1 else x.2 s1

/-- The stages from 0x3 on, shared with an image load's restart (R45). -/
def lateStages (cold : Bool) (cause : StartCause) (o : BootObs) : List (Nat × (State → State)) :=
  [ (3, stageProbe o),
    (4, verified false), (5, verified true),
    (6, fun s => selectRun (judgeCopy s false) (judgeCopy s true) s),
    (7, stageApply cold o),
    (8, fun s => checkAon cold o (stageTest o s)),
    (9, stageRun cold cause o) ]

/-- Stage 0x0: RETLOST decides for a warm or a cold start, VRET touched in the same instant among its causes (R70, R72),
the counters of R71 and the latch of R74 move, and the windows are reset (R511). -/
def stageReset (cause : StartCause) (o : BootObs) (s : State) : State :=
  let lost := s.lintel.retlost || !o.patternOk || o.vretTouch
  let s1 := if lost then coldAon s else s
  resetWindows { s1 with
    boot := {
      causePor := cause == .power, causePin := cause == .pin, causeWdog := cause == .wdog, causeCold := lost
      reseatCount := if cause == .power then 0 else s1.boot.reseatCount }
    lintel := { s1.lintel with
      mainOn := true, wasOff := false, retlost := lost, coldStatus := lost
      handover := if cause == .power && s1.lintel.wasOff && !lost then satInc s1.lintel.handover
        else s1.lintel.handover
      vbatRev := s1.lintel.revLatch, revLatch := s1.lintel.reversedNow
      vbatMv := o.vbatMv, vbakMv := o.vbakMv, measuredAt := s1.time.ticks }
    keys := { s1.keys with slots := s1.keys.slots.map fun x => { x with gen := 0 } } }

/-- Bring-up from stage 0x0 to run, the bare state, or a stage that does not end (R36 to R44, R68); the random source runs
from stage 0x1 (R468). -/
def bringUp (cause : StartCause) (o : BootObs) (s : State) : State :=
  let s1 := stageReset cause o s
  let cold := s1.lintel.retlost
  ((1, modEntropy fun e => { e with running := true }) :: (2, stageOtp o) :: lateStages cold cause o).foldl (runStage o) s1

end Sys2Proof.Machine
end

