-- ==== Sys2Proof/Machine/Governor.lean ====
section
/-! DEFINITION. The energy governor (R83 to R87, R104, R616): the charge taken in, the day roll, and its commands. -/

namespace Sys2Proof.Machine

/-- Whether a day's spend has reached the throttle point (R87); SHOT_THROTTLE 256 never throttles. -/
def throttled (p : PowerItems) (g : Governor) : Bool :=
  p.shotThrottle != 256 && decide (g.allow * p.shotThrottle / 256 ≤ g.today.toList.foldl (· + ·) 0)

/-- Charge counted since the last count: groups, class spends and lifetime totals grow. With the main domain off every
part of it goes to group 0 (R83). -/
def takeCharge (c : Charge) (s : State) : State :=
  let total := c.groups.foldl (· + ·) 0
  let p := (items s).power
  modGov (fun g =>
    let today : Vector Nat 8 := if s.lintel.mainOn then Vector.ofFn fun i => nth g.today i.val + at0 c.groups i.val
      else upd g.today 0 (· + total)
    let g1 := { g with
      today := today, cSpent := g.cSpent + c.cClass, hSpent := g.hSpent + c.hClass
      usedUc := g.usedUc + total, bakUc := g.bakUc + c.vbak }
    { g1 with
      throttle := g1.throttle || throttled p g1
      cExhausted := g1.cExhausted || (decide (0 < c.cClass) && decide (g1.allow * p.cShare / 256 ≤ g1.cSpent))
      hExhausted := g1.hExhausted || (decide (0 < c.hClass) && decide (g1.allow * p.hShare / 256 ≤ g1.hSpent)) }) s

/-- The governor-day record's body (Table 10.7 type 3). -/
def dayBody (g : Governor) (day : Nat) : List Byte :=
  bytesLE 2 day ++ [0, 0] ++ bytesLE 4 g.allow ++ bytesLE 4 (satNat 32 (g.usedUc / 1000))
    ++ bytesLE 4 (satNat 32 (g.bakUc / 1000)) ++ g.yesterday.toList.flatMap fun x => bytesLE 4 (satNat 32 x)

/-- The allowance for a day put in force (R84). -/
def evaluateAllow (day : Nat) (s : State) : State := modGov (allowFor (items s).power day) s

/-- One roll evaluated (R84): the allowance, the spend copied and cleared, and the governor-day record; the wear loop and the
age refresh follow it (R361, R362, R374). -/
def evaluateRoll (day : Nat) (s : State) : State :=
  let s1 := modGov (rolledFor (items s).power day) s
  let s2 := writeEvent 0x00 3 (dayBody s1.lintel.gov day) s1
  if (winOf s2 .journal).fenced then s2 else wearDay day s2

/-- GOVERNOR_DAY_ROLL (R84, R616): DAY_INDEX advances in every state; the roll is evaluated or held. A paused
relay and the segment check follow the day (R434, R556). -/
def execGovernorDayRoll (c : Charge) (s : State) : Host.Outcome State Fault Refusal :=
  done (if !counted s s.lintel.gov.dayStart (secTicks 86400) then s
  else
    let s1 := modGov (fun g =>
      { g with dayStart := g.dayStart + secTicks 86400, dayIndex := min (g.dayIndex + 1) 65535 }) (takeCharge c s)
    let day := today s1
    let s2 := if rollsRun s1 && s1.lintel.gov.held.isEmpty then evaluateRoll day s1
      else modGov (fun g => { g with held := if g.held.length < 255 then g.held ++ [day] else g.held }) s1
    if !s2.boot.running then s2
    else
      modLcd (fun l => { l with segDue := displayRuns s2 }) (linkDayRoll s2))

/-- GOVERNOR_CATCHUP (R616): after the mount every held roll is evaluated in day order. -/
def execGovernorCatchup (s : State) : Host.Outcome State Fault Refusal :=
  done (if rollsRun s then
      s.lintel.gov.held.foldl (fun t d => evaluateRoll d t) (modGov (fun g => { g with held := [] }) s)
    else s)

end Sys2Proof.Machine
end

