-- ==== Sys2Proof/Machine/Mount.lean ====
section
/-! DEFINITION. MOUNT and the restoration that follows a cold start (R73, R224, R316, R322, R356, R357, R395 to R397, R420,
R422, R533; log 26, DESIGN CHOICE). -/

namespace Sys2Proof.Machine

/-! ### What the journal holds -/

/-- A page of the index passes its checks. -/
def pageReads (s : State) (r : PageRef) : Bool :=
  match readPage s r with
  | .ok _ _ => true
  | _ => false

/-- Every record of a stream, oldest first, in pages that pass their checks. -/
def streamRecords (s : State) (stream : Nat) : List (List Byte) :=
  ((streamSeqs s stream).mergeSort fun a b => decide (a ≤ b)).flatMap fun q =>
    match firstGood s (copiesOf s stream q) 0 [] with
    | some (_, page, _) => pageRecords page
    | none => []

/-- DT of a page, from its DT32 with fraction 0 (R357). -/
def pageDt (s : State) (r : PageRef) : Nat := leAt (flashRead s r.addr 16) 0x0A 4 * 32768

/-! ### Accumulators (R286, R316, R357) -/

/-- The newest committed page of stream 1 or 5 with its last record. -/
def accPage (s : State) : Option (PageRef × List Byte) :=
  (newestPage s fun r => (r.stream == 1 || r.stream == 5) && pageReads s r).bind fun r =>
    match readPage s r with
    | .ok page _ => ((pageRecords page).getLast?).map fun x => (r, x)
    | _ => none

/-- An accumulator restored from its integer part. -/
def accAt (b : List Byte) (o : Nat) : Acc := ⟨leAt b o 8, 0⟩

/-- The integrator's state from a record: MAIN, the times and TQ at their offsets (Tables 9.2 and 10.8). -/
def copyFrom (b : List Byte) (main times tq : Nat) : IntegCopy :=
  { volFwd := accAt b main, volRev := accAt b (main + 8), heat := accAt b (main + 16), cool := accAt b (main + 24)
    gasBase := accAt b (main + 32), errVol := accAt b (main + 40)
    operTime := leAt b times 8, errTime := leAt b (times + 8) 8
    tq := Vector.ofFn fun i => accAt b (tq + 8 * i.val) }

/-- The maxima from the newest billing record; 0 where its commit restarted them, or where there is none (R316). -/
def maximaFrom (b : Option (List Byte)) (c : IntegCopy) : IntegCopy :=
  match b with
  | none => c
  | some x =>
    if leAt x 1 1 = 1 ∧ bit 0 (leAt x 0x15 1) then c
    else { c with
      flowMax := leAt x 0x58 4, powerMax := leAt x 0x5C 4, flowMaxDt := leAt x 0x60 8, powerMaxDt := leAt x 0x68 8
      coolMax := leAt x 0x70 4 }

/-- The accumulators restored, with the loss-window record (R73, R286, R357); what they hold is no growth of the bypass
window (R319): `src` is the state whose journal is
read. -/
def restoreAcc (src : State) (s : State) : State :=
  let bill := newestRecord src 1 fun _ => true
  let acc := accPage src
  let dt := (acc.map fun x => pageDt src x.1).getD 0
  let c0 : IntegCopy := match acc with
    | some (r, b) => if r.stream = 1 then copyFrom b 0x18 0x48 0x78 else copyFrom b 0x10 0x40 0x50
    | none => {}
  let c := maximaFrom bill c0
  let s1 := modLintel (fun l => { l with lossDt := BitVec.ofNat 64 dt })
    (modTamper (fun t => { t with bypOwn := c.volFwd.int + c.errVol.int })
      (modInteg (fun i => { i with copies := Vector.replicate 2 c.checked }) s))
  writeEvent 0x00 1 (bytesLE 8 dt ++ bytesLE 2 s1.lintel.coldCount.toNat ++ List.replicate 6 0
    ++ bytesLE 8 c.volFwd.int ++ bytesLE 8 c.volRev.int ++ bytesLE 8 c.heat.int ++ bytesLE 8 c.cool.int
    ++ bytesLE 8 c.gasBase.int ++ bytesLE 8 c.errVol.int ++ bytesLE 8 c.operTime ++ bytesLE 8 c.errTime) s1

/-! ### The other AON content of a cold start -/

/-- DT restored (R357). -/
def restoreDt (src : State) (s : State) : State :=
  let dt := match newestPage src fun _ => true with
    | some r => BitVec.ofNat 64 (pageDt src r)
    | none => s.boot.img.buildDt
  modTime (fun t => { t with dt := dt }) s

/-- The governor counters restored from the newest governor-day record; without one, the first day's allowance is
computed (R84, R357). -/
def restoreGov (src : State) (s : State) : State :=
  match newestRecord src 4 fun r => leAt r 0 1 == 3 with
  | none => evaluateAllow (today s) s
  | some r =>
    modGov (fun g =>
      { g with
        dayIndex := leAt r 16 2 + g.dayIndex, allow := leAt r 20 4
        usedUc := leAt r 24 4 * 1000 + g.usedUc, bakUc := leAt r 28 4 * 1000 + g.bakUc
        yesterday := Vector.ofFn fun i => leAt r (32 + 4 * i.val) 4, held := g.held.map (leAt r 16 2 + ·) }) s

/-- COLD_COUNT restored from the newest loss-window record and counted (Table 2.3). -/
def restoreColdCount (src : State) (s : State) : State :=
  let n := ((newestRecord src 4 fun r => leAt r 0 1 == 1).map fun r => leAt r 24 2).getD 0
  modLintel (fun l => { l with coldCount := satOf 16 (n + 1) }) s

/-- SNAP_SEQ and LAST_BILL_KEY restored from the newest billing record (R316). -/
def restoreBill (src : State) (s : State) : State :=
  match newestRecord src 1 fun _ => true with
  | none => s
  | some r => modBill (fun b => { b with snapSeq := leAt r 4 4, lastKey := leAt r 0x10 4 }) s

/-- ZERO_OFS of each path restored from the newest plumb record (R224). -/
def restoreZero (src : State) (s : State) : State :=
  (List.range 2).foldl (fun t p =>
    match newestRecord src 4 fun r => leAt r 0 1 == 2 && leAt r 16 1 == p with
    | none => t
    | some r => modShotPath p (fun x => { x with zeroOfs := signed 32 (leAt r 24 4) }) t) s

/-- An entry of a table of eight taken for an address under a slot: the one that holds them, or the first free one. -/
def entryFor (used : Nat → Bool) (key : Nat → List Byte × Nat) (k : List Byte × Nat) : Option Nat :=
  ((List.range 8).find? fun i => used i && key i == k) <|> (List.range 8).find? fun i => !used i

/-- One radio-counter record taken into the counters (R396, R397, R420, R422). -/
def restoreCounter (r : List Byte) (s : State) : State :=
  let slot := leAt r 2 1
  let cnt := leAt r 4 4
  let addr := slice r 8 8
  let l := (items s).link
  match leAt r 1 1 with
  | 1 =>
    if leAt r 8 8 = 0 then
      modRadio (fun x => { x with txc := put x.txc slot cnt, txcRes := put x.txcRes slot cnt }) s
    else
      match entryFor (fun i => (nth s.radio.peers i).used)
        (fun i => ((nth s.radio.peers i).addr, (nth s.radio.peers i).slot)) (addr, slot) with
      | some i => modRadio (fun x => { x with peers := put x.peers i ⟨true, addr, slot, cnt⟩ }) s
      | none => s
  | 2 =>
    if slot = l.linkSlot then modLink (fun x => { x with fcnt := cnt, fcntRes := cnt }) s
    else if slot = l.e2eSlot then modLink (fun x => { x with ofcnt := cnt, ofcntRes := cnt }) s
    else s
  | 3 =>
    match entryFor (fun i => (nth s.link.orig i).used) (fun i => ((nth s.link.orig i).addr, (nth s.link.orig i).slot))
      (addr, slot) with
    | some i => modLink (fun x => { x with orig := put x.orig i ⟨true, addr, slot, cnt⟩ }) s
    | none => s
  | _ => s

/-- AUDIT_SEQ and the next consent reference restored from the audit stream (log 26, DESIGN CHOICE). -/
def restoreRoles (src : State) (s : State) : State :=
  let l := streamRecords src 3
  let seq := l.foldl (fun m r => max m (leAt r 0x18 4)) 0
  let ref := l.foldl (fun m r => if within 7 9 (leAt r 1 1) then max m (leAt r 0x0C 4) else m) 0
  modRoles (fun r => { r with auditSeq := max r.auditSeq seq, nextRef := max r.nextRef (ref + 1) }) s

/-- One tamper record taken into the live state (Table 2.3, Table 9.5). -/
def restoreTamperRecord (r : List Byte) (t : Tamper) : Tamper :=
  let n := leAt r 1 1
  let dt := leAt r 8 8
  let dur := leAt r 0x10 4
  let t1 := { t with seq := BitVec.ofNat 32 (leAt r 0x18 4) }
  match leAt r 2 1 with
  | 1 => { t1 with src := upd t1.src n fun x =>
      { x with isOpen := true, count := BitVec.ofNat 16 (leAt r 4 2), firstDt := if x.count = 0 then dt else x.firstDt
               lastDt := dt } }
  | 2 => { t1 with src := upd t1.src n fun x =>
      { x with isOpen := false, lastDur := dur, totalDur := min (x.totalDur + dur) 0xFFFFFFFE, detail := leAt r 0x14 4 } }
  | 3 => { t1 with
      durUnknown := satInc t1.durUnknown
      src := upd t1.src n fun x => { x with isOpen := false, lastDur := 0xFFFFFFFF } }
  | _ => t1

/-- The tamper live state rebuilt from its stream: an open event closes with its duration unknown (R322). What the
recorder has taken since the start stands on top of it. -/
def restoreTamper (src : State) (s : State) : State :=
  let old := (streamRecords src 2).foldl (fun t r => restoreTamperRecord r t) {}
  let open_ := (List.range 6).filter fun n => (nth old.src n).isOpen
  let s1 := modTamper (fun t =>
    { t with
      stateBad := false
      seq := old.seq + t.seq, durUnknown := old.durUnknown
      src := Vector.ofFn fun i =>
        let a := nth old.src i.val
        let b := nth t.src i.val
        if b.count = 0 then { a with isOpen := false }
        else { b with
          count := satAdd a.count b.count.toNat, firstDt := if a.count = 0 then b.firstDt else a.firstDt
          totalDur := min (a.totalDur + b.totalDur) 0xFFFFFFFE } }) s
  open_.foldl (fun t n =>
    let u := modTamper (fun x =>
      { x with
        durUnknown := satInc x.durUnknown
        src := upd x.src n fun y => if y.isOpen then y else { y with lastDur := 0xFFFFFFFF } }) t
    noteTamper { source := n, kind := 3, count := (nth old.src n).count.toNat, dt := u.time.dt.toNat,
                 duration := 0xFFFFFFFF } u) s1

/-- Everything a cold start restores (Table 2.3); RETLOST clears when it is complete (R70). -/
def restoreCold (src : State) (s : State) : State :=
  let s1 := restoreColdCount src (restoreGov src (restoreDt src s))
  let s2 := restoreRoles src (restoreZero src (restoreBill src s1))
  let s3 := (streamRecords src 7).foldl (fun t r => restoreCounter r t) s2
  modLintel (fun l => { l with retlost := false }) (restoreAcc src s3)

/-- The restoration after a mount: of a cold start, or of the accumulators alone (R286). The calendar follows a
restoration of DT (R309). -/
def restoreAll (src : State) (s : State) : State :=
  if !s.journal.restoreDue then s
  else
    let s1 := modJournal (fun j => { j with restoreDue := false }) s
    if s.lintel.coldStatus then
      let s2 := restoreCold src s1
      if calendarRuns s2 && !(winOf s2 .bill).fenced then evaluateCalendar s2 else s2
    else restoreAcc src s1

/-! ### MOUNT -/

/-- The AON queues of history and audit records written (R500, R533). -/
def writeQueues (s : State) : State :=
  let s1 := s.faults.hist.foldl (fun t h => submitRecord (detector h.block (leAt h.bytes 2 1)) 6 h.bytes t)
    (modFaults (fun f => { f with hist := [] }) s)
  s1.roles.auditQueue.foldl (fun t r => submitRecord 0x1D 3 r t) (modRoles (fun r => { r with auditQueue := [] }) s1)

/-! ### Pages read by the restoration -/

/-- The pages of a stream that a search for its newest record with a property reads, newest first. -/
def searched (s : State) (stream : Nat) (p : List Byte → Bool) : List Nat → List Nat
  | [] => []
  | q :: rest =>
    let found := match firstGood s (copiesOf s stream q) 0 [] with
      | some (_, page, _) => (pageRecords page).any p
      | none => false
    q :: (if found then [] else searched s stream p rest)

/-- The pages that `newestRecord` reads. -/
def newestReads (s : State) (stream : Nat) (p : List Byte → Bool) : List (Nat × Nat) :=
  (searched s stream p ((streamSeqs s stream).mergeSort fun a b => decide (b ≤ a))).map fun q => (stream, q)

/-- The pages that `streamRecords` reads. -/
def streamReads (s : State) (stream : Nat) : List (Nat × Nat) := (streamSeqs s stream).map fun q => (stream, q)

/-- The pages that `accPage` reads: the page it takes and every newer one of its streams. -/
def accReads (s : State) : List (Nat × Nat) :=
  (s.journal.index.filter fun r => (r.stream == 1 || r.stream == 5)
      && ((accPage s).map fun x => committedBy s x.1 r).getD true).map fun r => (r.stream, r.seq)

/-- Every page that the restoration of this mount reads, each once (Table 2.3, R286, R357). -/
def restoreReads (s : State) : List (Nat × Nat) :=
  let tamper := if s.tamper.stateBad then streamReads s 2 else []
  let acc := newestReads s 1 (fun _ => true) ++ accReads s
  let cold := newestReads s 4 (leAt · 0 1 == 1) ++ newestReads s 4 (leAt · 0 1 == 3)
    ++ [0, 1].flatMap (fun p => newestReads s 4 fun r => leAt r 0 1 == 2 && leAt r 16 1 == p)
    ++ streamReads s 3 ++ streamReads s 7
  (tamper ++ (if !s.journal.restoreDue then [] else if s.lintel.coldStatus then acc ++ cold else acc)).eraseDups

/-- What those reads count, raise and discard (R7, R8, R354). -/
def noteReads (l : List (Nat × Nat)) (s : State) : State := l.foldl (fun t x => (fetchPage x.1 x.2 t).2) s

/-- The end of a mount (R356, R357): the journal is mounted, what it holds is restored from every page but the summary just
written, and what waited for it goes on; then the dirty sectors are erased. -/
def mountEnd (ms : Nat) (seq : Option Nat) (s : State) : State :=
  let src := unindex (fun r => r.stream == 4 && some r.seq == seq) s
  let took := mountTime ms s
  let s1 := restoreAll src (modJournal (fun y => { y with mounted := true, mountMs := took, job := none }) s)
  let s2 := noteReads (restoreReads src) (if s1.tamper.stateBad then restoreTamper src s1 else s1)
  let s3 := pushWork ((dirtySectors s2).map fun x => FlashTask.erase x.idx) (askReclaim (writeQueues (journalSlots s2)))
  match runningId s s.journal.job with
  | some j => engineEnds j.id { result := took % 2 ^ 16 } s3
  | none => s3

/-- MOUNT (R356), once the flash is awake (R337). `ms` is the time its reads take until now, `mv` the VBAT measured before its
programs. -/
def mountJob (mv ms : Nat) (j : Job) (s : State) : State :=
  if s.journal.mounted || !(flashIdle s || (stagingNow s && stageOp s)) then s
  else if !jobActorOk j.desc j.actor then engineEnds j.id { status := .refusedRole } s
  else onFlash (fun t => modJournal (fun y =>
    { y with mountAt := t.time.ticks, work := [.tables, .scan, .pending, .summary ms] ++ y.work }) (beginJob mv j (takeKeep t))) s

end Sys2Proof.Machine
end

