-- ==== Sys2Proof/Machine/Work.lean ====
section
/-! DEFINITION. The flash work with the steps in which other chapters take part (R356, R358, R359, R48): the commands at which
it goes on. -/

namespace Sys2Proof.Machine

/-- The standby copy. -/
def standbyB (s : State) : Bool := !s.boot.runB

/-- A section that Table 1.3 marks protection. -/
def isProtection (sec : Nat) : Bool := sectionAttr sec == 2

/-- The staged copy read back and judged (R48 steps 5 and 6); the consent that allowed it is used. -/
def stagedEnd (id : Nat) (s : State) : State :=
  match runningId s (some id) with
  | none => s
  | some j =>
    let a := readAmend s j
    let x := judgeCopy s (standbyB s)
    let s1 := judged (standbyB s) x s
    if x.reject ≠ 0 then stageFails j a .checkFailed 0 s1
    else
      let s2 := modBoot (fun b => { b with stagedSeq := a.newSeq, activateDt := x.activateDt }) s1
      let s3 := match (if a.touched.any isProtection then consentByRef s a.ref else none) with
        | some e => modConsent e (fun c => { c with state := .used }) s2
        | none => s2
      engineEnds id {} (stagingEnds j a .done 0 s3)

/-- One step of the work. -/
def workStep (t : FlashTask) (s : State) : State :=
  match t with
  | .house k => houseEnd k s
  | .write => match runningId s s.journal.job with
    | some j => fillPending j s
    | none => s
  | .tables => mountDefects s
  | .scan => mountScan s
  | .pending => mountPending s
  | .summary ms => mountSummary ms s
  | .mounted ms seq => mountEnd ms seq s
  | .staged id => stagedEnd id s
  | t => flashStep t s

/-- The work taken up to the next flash operation. `fuel` bounds its steps. -/
def runWork : (fuel : Nat) → State → State
  | 0, s => s
  | fuel + 1, s =>
    if !flashMay s then s
    else match s.journal.work with
      | [] => s
      | t :: rest => runWork fuel (workStep t (modJournal (fun j => { j with work := rest }) s))

/-- The flash operation in progress takes its effect, with what the flash answers, and frees the supply. -/
def endOp (o : FlashObs) (s : State) : State :=
  let s1 := match s.journal.op with
    | .program a bs => programFlash o a bs s
    | .erase n => eraseFlash o n s
    | _ => s
  freePeak (modJournal (fun j =>
    { j with
      op := .none
      opFail := o.protectedFail || (match s.journal.op with
        | .erase _ => o.eraseFail
        | _ => false) }) s1)

/-- FLASH_OP_READY (R338): the program or erase in progress has ended, and the work goes on. It has not begun before the flash
is awake (R337). -/
def execFlashOpReady (o : FlashObs) (s : State) : Host.Outcome State Fault Refusal :=
  done (runWork 64 (if s.lintel.peak = .none || s.journal.waitVbat || s.lintel.peak != s.journal.op.peak || !flashAwake s then s
    else endOp o s))

/-- COMMIT_SETTLE_END (Table 10.10 steps 7 to 9), with VBAT as measured before the operations that follow. -/
def execCommitSettleEnd (mv : Nat) (s : State) : Host.Outcome State Fault Refusal := done (runWork 64 (settleEnd mv s))

/-- MOUNT: the running job of the tag has its effect. -/
def execMount (tag : Nat) (mv : Nat) (ms : Nat) (s : State) : Host.Outcome State Fault Refusal :=
  done (runWork 64 (onJob tag 10 7 (mountJob mv ms) s))

end Sys2Proof.Machine
end

