-- ==== Sys2Proof/Machine/Boot.lean ====
section
/-! DEFINITION. The image-load path of the bare state (R43 to R45), the seal (R32 to R35), staging of amendments (R46 to
R49, R60, R615) and the reseat (R50 to R62). The commands that a register write gives stand in Regs.lean. -/

namespace Sys2Proof.Machine

/-! ### The image-load path (R45) -/

/-- The sixteen sectors of a copy erased. -/
def eraseCopy (isB : Bool) (o : FlashObs) (s : State) : State :=
  (List.range 16).foldl (fun t i => eraseFlash o (copyBase isB / 0x1000 + i) t) s

/-- A load command is open: the bare state with a reason other than OTP_BAD (R29, R43). -/
def loadOpen (s : State) : Bool := s.boot.bare && s.boot.reason != 2

/-- The copy that a load is of: the one its ERASE named, else the command's own (R45). -/
def loadCopy (isB : Bool) (s : State) : Bool := s.boot.loadTarget.getD isB

/-- LOAD_CTRL ERASE, which names the copy that is loaded. A command while the load path is closed ends REFUSED_POLICY
(log 36, DESIGN CHOICE). -/
def loadErase (isB : Bool) (o : FlashObs) (s : State) : State × Status :=
  if !loadOpen s then (s, .refusedPolicy)
  else if !flashVbatOk s then (s, .brownout)
  else
    let s1 := modBoot (fun b => { b with loadHead := none, loadTarget := some isB }) (eraseCopy isB o s)
    (s1, if flashBlank s1 (copyBase isB) 0x10000 then .done else .checkFailed)

/-- LOAD_CTRL PROGRAM: header bytes 0x00 to 0x0F are held back until FINISH. -/
def loadProgram (isB : Bool) (o : FlashObs) (s : State) : State × Status :=
  let p := s.boot.loadPage
  let buf := s.boot.loadBuf
  if !loadOpen s || 239 < p then (s, .refusedPolicy)
  else if !flashVbatOk s then (s, .brownout)
  else
    let a := copyBase (loadCopy isB s) + p * 256
    let skip := if p = 0 then 16 else 0
    let s1 := programFlash o (a + skip) (buf.drop skip)
      (if p = 0 then modBoot (fun b => { b with loadHead := some (buf.take 16) }) s else s)
    (s1, if flashRead s1 (a + skip) (256 - skip) == buf.drop skip then .done else .checkFailed)

/-- LOAD_CTRL FINISH: the copy judged by R28; a valid one gets STATE 0x5A and the chip restarts at stage 0x3, which ends
the bare state and its session. -/
def loadFinish (a : Actor) (named : Bool) (o : FlashObs) (boot : BootObs) (s : State) : State × Status :=
  let isB := loadCopy named s
  if !loadOpen s then (s, .refusedPolicy)
  else if !flashVbatOk s then (s, .brownout)
  else
    let s1 := modBoot (fun b => { b with loadHead := none }) (match s.boot.loadHead with
      | some h => programFlash o (copyBase isB) h s
      | none => s)
    let j := judgeCopy s1 isB
    let bytes := copyBytes s1 isB
    let mac := slice bytes (bytes.length - 20) 16
    let log := fun (st : Status) (t : State) => audit {
      kind := 5, role := a.role, master := a.master
      item := if j.reject = 0 then sectionMask (j.img.bodies.map (·.1)) else 0
      old := bytesLE 4 s.boot.img.seq, new := bytesLE 4 j.seq ++ mac, status := st.code } t
    if j.reject ≠ 0 then (log .checkFailed (judged isB j s1), .checkFailed)
    else
      let s2 := log .done (setCopy isB { j.status with active := true } (programByte o (copyBase isB + 0x13) 0x5A s1))
      let s3 := modBoot (fun b => { b with bare := false, reason := 0, stageAt := 0, stage := 0 })
        (setLevel Src.bare false (emptySlot 3 (endSession 0 s2)))
      let s4 := (lateStages s.lintel.retlost .power boot).foldl (runStage boot) (react 4096 s3)
      (writeAmendment (bytes.take 32) mac .done a.master 4 s4, .done)

/-! ### The seal (R32 to R35) -/

/-- The bits that an OTP programming leaves unprogrammed, by byte; a field's companion stands at 0x1000 above it. -/
abbrev OtpStuck := List (Nat × Byte)

/-- OTP bytes programmed: bits only go from 0 to 1. -/
def programOtp (stuck : OtpStuck) (a : Nat) (bs : List Byte) (s : State) : State :=
  let put1 := fun (m : Mem) (k : Nat) (b : Byte) =>
    m.set 0 k (m.get 0 k ||| (b &&& ~~~(((stuck.find? fun x => x.1 == k).map (·.2)).getD 0)))
  { s with otp := (bs.zipIdx).foldl (fun m b => put1 m (a + b.2) b.1) s.otp }

/-- A field's CRC-8 companion programmed. -/
def programCompanion (stuck : OtpStuck) (off : Nat) (b : Byte) (s : State) : State :=
  let keep := ((stuck.find? fun x => x.1 == 0x1000 + off).map (·.2)).getD 0
  { s with otpCrc := s.otpCrc.set 0 off (s.otpCrc.get 0 off ||| (b &&& ~~~keep)) }

/-- A seal field with its companion as the seal command finds it (R35). -/
inductive SealField where
  | blank | kept | cut
  deriving DecidableEq, Repr

/-- A seal field is blank, passes its companion, or was cut off. -/
def sealField (s : State) (off k : Nat) : SealField :=
  if (otpBytes s off k).all (· == 0) && s.otpCrc.get 0 off == 0 then .blank
  else if otpFieldOk s off k then .kept else .cut

/-- Every 1 bit of `x` is 1 in `y`. -/
def bitsWithin (x y : List Byte) : Bool := (x.zip y).all fun p => p.1 &&& ~~~p.2 == 0

/-- A seal field and its companion programmed and read back. -/
def sealProgram (stuck : OtpStuck) (off : Nat) (bs : List Byte) (s : State) : State × Bool :=
  let s1 := programOtp stuck off bs s
  if otpBytes s1 off bs.length != bs then (s1, false)
  else
    let s2 := programCompanion stuck off (crc8 bs) s1
    (s2, s2.otpCrc.get 0 off == crc8 bs)

/-- Step 1 of R33 under R35: refused, or the sealed CRC programmed and read back. -/
def sealCrc (stuck : OtpStuck) (metro : Word) (s : State) : Option (State × Bool) :=
  let want := bytesLE 4 metro.toNat
  match sealField s 0x144 4 with
  | .kept => if otpBytes s 0x144 4 == want then some (s, true) else none
  | .cut => if bitsWithin (otpBytes s 0x144 4) want && bitsWithin [s.otpCrc.get 0 0x144] [crc8 want] then
      some (sealProgram stuck 0x144 want s) else none
  | .blank => some (sealProgram stuck 0x144 want s)

/-- Step 2 of R33 under R35: a seal DT that stands, whole or cut off, is left. One that is still blank (all 0 with
companion 0, which passes its CRC-8) is programmed, not kept (log 36, DEDUCED). -/
def sealDt (stuck : OtpStuck) (s : State) : State × Bool :=
  match sealField s 0x148 8 with
  | .blank => sealProgram stuck 0x148 (bytesLE 8 s.time.dt.toNat) s
  | _ => (s, true)

/-- A sealed chip's standby copy judged again: one with another METRO_CRC is invalid from now on (R31). -/
def rejudgeStandby (s : State) : State :=
  if (standby s).valid then judged (standbyB s) (judgeCopy s (standbyB s)) s else s

/-- The seal command's course (R32, R33, R35): domain D25 stops, and a high TEST_EN is then an alarm. A command on a sealed
chip ends REFUSED_POLICY, and a seal byte that still reads fewer than two 1 bits after step 3 ends it CHECK_FAILED (log 36,
DESIGN CHOICE). -/
def sealEffect (metro : Word) (stuck : OtpStuck) (s : State) : State × Status :=
  if !s.boot.running || isSealed s || metro ≠ s.boot.img.metro then (s, .refusedPolicy)
  else match sealCrc stuck metro s with
    | none => (s, .refusedPolicy)
    | some (s1, false) => (s1, .checkFailed)
    | some (s1, true) =>
      match sealDt stuck s1 with
      | (s2, false) => (s2, .checkFailed)
      | (s2, true) =>
        let s3 := programOtp stuck 0x140 [0xFF] s2
        if !isSealed s3 then (s3, .checkFailed)
        else
          let s4 := rejudgeStandby (modClock (fun c => { c with d25 := false }) s3)
          (if s.clock.testEn then alarmBy 4 s4 else s4, .done)

/-- A seal command with its audit record (R32). -/
def sealChip (a : Actor) (metro : Word) (stuck : OtpStuck) (s : State) : State × Status :=
  let r := sealEffect metro stuck s
  (audit { kind := 6, role := a.role, master := a.master, item := 0, old := []
           new := if isSealed r.1 then otpBytes r.1 0x144 4 else [], status := r.2.code } r.1, r.2)

/-- The protection items (bits of Table 14.4) that differ between two configurations, section by section; a body that
cannot be read touches every item of its section. -/
def protectionItems (sec : Nat) (old : Items) (new : Option Items) : Nat :=
  match sec, new with
  | 0x0E, some n =>
    let role := fun r => at0 old.roles.roleSlot r
    let own := fun (e : SlotEntry) => e.slot != role 0 && e.slot != role 1 && e.slot != role 2
    let diff := fun r => b2n (old.keys.entry (role r) != n.keys.entry (role r)) * 2 ^ r
    diff 0 + diff 1 + diff 2
      + b2n ({ old.keys with entries := old.keys.entries.filter own }
          != { n.keys with entries := n.keys.entries.filter own }) * 8
  | 0x0E, none => 15
  | 0x0F, some n => b2n (old.roles.pairs != n.roles.pairs) * 32
      + b2n ({ old.roles with pairs := [] } != { n.roles with pairs := [] }) * 16
  | 0x0F, none => 48
  | 0x10, _ => 64
  | 0x12, _ => 128
  | _, _ => 0

/-- The protection items that an amendment touches. -/
def Amend.items (a : Amend) (s : State) : Nat :=
  a.touched.eraseDups.foldl (fun m sec =>
    if isProtection sec then m ||| protectionItems sec (Machine.items s)
      ((a.bodies.find? fun b => b.1 == sec).bind fun b => decodeBody sec b.2 (Machine.items s)) else m) 0

/-- Check 5 of R47: the consent entry that allows the protection sections touched (R496 step 4). -/
def consentAllows (s : State) (a : Amend) (role : Nat) : Option Nat :=
  (consentByRef s a.ref).filter fun e =>
    let c := nth s.roles.consents e
    c.state == .committed && decide (s.time.d04 < c.until_) && c.digest == a.mac && c.baseSeq == a.baseSeq
      && (a.items s &&& c.items) == a.items s && (role == c.proposer || role == c.signer)

/-- The image that an amendment makes, laid out afresh and signed under the maker image key (R615). -/
def buildImage (s : State) (a : Amend) : List Byte :=
  let n := a.bodies.length
  let base := 0x40 + 8 * n
  let offs := a.bodies.foldl (fun (acc : List (Nat × Nat × Nat) × Nat) b =>
    (acc.1 ++ [(b.1, acc.2, b.2.length)], acc.2 + ceilDiv b.2.length 4 * 4)) (([] : List (Nat × Nat × Nat)), base)
  let len := offs.2 + 20
  let img := s.boot.img
  let head := [0x59, 0x4C, 0x46, 0x49] ++ bytesLE 2 1 ++ bytesLE 2 64 ++ bytesLE 4 len ++ bytesLE 4 a.newSeq
    ++ bytesLE 2 0x9640 ++ flashRead s (copyBase s.boot.runB + 0x12) 1 ++ [0xFF] ++ bytesLE 2 n ++ bytesLE 2 0
    ++ bytesLE 8 img.buildDt.toNat ++ bytesLE 4 img.meterType.toNat ++ bytesLE 4 (metroCrc a.bodies).toNat
    ++ bytesLE 4 img.seq ++ bytesLE 8 a.activate ++ List.replicate 12 0
  let dir := offs.1.flatMap fun e =>
    bytesLE 1 e.1 ++ bytesLE 1 (sectionAttr e.1) ++ bytesLE 2 1 ++ bytesLE 2 e.2.1 ++ bytesLE 2 e.2.2
  let body := a.bodies.flatMap fun b => padTo (ceilDiv b.2.length 4 * 4) 0 b.2
  let all := head ++ dir ++ body
  let mac := cmac (nth s.keys.slots 0).key all
  all ++ mac ++ bytesLE 4 (crc32 (all ++ mac)).toNat

/-! ### Staging (R47, R48, R60) -/

/-- The checks of R47 in order: the status and reject reason of the first that fails, with the image that passes. -/
def stageCheck (s : State) (j : Job) (a : Amend) : Except (Status × Nat) (List Byte) :=
  let sb := standby s
  let role := j.actor.role
  let prot := a.touched.any isProtection
  let img := buildImage s a
  let okMac := match roleKey s a.role with
    | some k => cmac k (a.bytes.take (a.bytes.length - 16)) == a.mac
    | none => false
  if !okMac then .error (.checkFailed, 0)
  else if a.baseSeq ≠ s.boot.img.seq then .error (.refusedPolicy, 0)
  else if a.newSeq ≤ s.boot.img.seq || (sb.valid && decide (a.newSeq ≤ sb.seq)) then .error (.refusedPolicy, 0)
  else if !(a.touched.all fun sec => isProtection sec || (sec != 0 && hasRight s (.stage sec) role))
      || (prot && !within 1 3 role) || (isSealed s && a.touched.any fun sec => sectionAttr sec == 1)
    then .error (.refusedRole, 0)
  else if prot && (consentAllows s a role).isNone then .error (.refusedPolicy, 0)
  else if !a.headOk || !a.recordsOk then .error (.refusedPolicy, 12)
  else if 61440 < img.length then .error (.refusedPolicy, 3)
  else if (judgeBytes s img).reject ≠ 0 then .error (.refusedPolicy, (judgeBytes s img).reject)
  else if energyRefused s (classOfQueue j.queue) j.desc j.payload then .error (.refusedEnergy, 0)
  else .ok img

/-- A consent that is looked up after its window has run out expires, and so does one whose BASE_SEQ is not the running
SEQ, without CONSENT_EXPIRED (Table 14.5). -/
def lapseConsent (a : Amend) (s : State) : State :=
  match consentByRef s a.ref with
  | some e =>
    let c := nth s.roles.consents e
    if !a.touched.any isProtection || c.state != .committed then s
    else if c.until_ ≤ s.time.d04 then expireConsent e .committed s
    else if c.baseSeq ≠ s.boot.img.seq then
      auditConsent 9 ⟨0, 0⟩ c.ref c.items c.digest .refusedPolicy (modConsent e (fun c => { c with state := .expired }) s)
    else s
  | none => s

/-- The steps of a staging: the standby sectors erased, every page but the first, the first page without its first sixteen
bytes, those bytes, and the read-back (R48). They follow what the journal has still to do (R623). -/
def stageWrite (j : Job) (a : Amend) (img : List Byte) (s : State) : State :=
  let base := copyBase (standbyB s)
  let steps := (List.range 16).map (fun i => FlashTask.blank (base / 0x1000 + i))
    ++ [.programs (base + 256) (img.drop 256), .programs (base + 16) (slice img 16 240), .programs base (img.take 16),
      .staged j.id]
  modJournal (fun x => { x with work := x.work ++ steps })
    (setCopy (standbyB s) { reject := 1, seq := 0xFFFFFFFF } (modBoot (fun b =>
      { b with stgState := 1, stgReject := 0, stgRef := a.ref, activateDt := 0 }) s))

/-- A staging begun: the checks of R47, then the flash work; energy aside, a VBAT measured below FLASH_MIN ends it (R80). -/
def stageBegin (j : Job) (mv : Nat) (s : State) : State :=
  let s0 := takeVbat mv s
  let a := readAmend s0 j
  if (winOf s0 .journal).fenced then stageFails j a .fenced 0 s0
  else if strictRefused s0 then stageFails j a .refusedPolicy 0 s0
  else match stageCheck s0 j a with
    | .error (st, r) => stageFails j a st r (if st = .refusedPolicy then lapseConsent a s0 else s0)
    | .ok img => if !flashVbatOk s0 then stageFails j a .brownout 0 s0 else stageWrite j a img s0

/-- STAGE (R47, R48): held back while another staging or a reseat is in progress (R60). -/
def stageJob (mv : Nat) (j : Job) (s : State) : State :=
  if s.boot.deferred.contains (.stage j.id) || stagedJob s == some j.id then s
  else if stagingNow s || s.boot.reseatWait.isSome then modBoot (fun b => { b with deferred := b.deferred ++ [.stage j.id] }) s
  else stageBegin j mv s

/-- STAGE: the running job of the tag has its effect; `mv` is VBAT as measured before its operations. -/
def execStage (tag : Nat) (mv : Nat) (s : State) : Host.Outcome State Fault Refusal :=
  done (onJob tag 0 1 (stageJob mv) s)

/-- A staging given up: its job ends otherwise than by its course. -/
def stageDrop (j : Job) (st : Status) (s : State) : State :=
  let s1 := modBoot (fun b => { b with deferred := b.deferred.filter (· != .stage j.id) }) s
  if stagedJob s1 = some j.id then
    let s2 := if stageOp s1 then freePeak (modJournal (fun x => { x with op := .none, waitVbat := false }) (cutOp s1)) else s1
    stagingEnds j (readAmend s1 j) st 0 (modJournal (fun x => { x with work := x.work.filter (!·.ofStage) }) s2)
  else s1

/-! ### Reseat requests (R50, R60, R61) -/

/-- A reseat has a valid pending standby copy with a higher SEQ (R50). -/
def reseatable (s : State) : Bool := standbyPending s && decide (s.boot.img.seq < (standby s).seq)

/-- The last reseat's completion status shown. -/
def reseatResult (st : Status) (s : State) : State := modBoot (fun b => { b with reseatResult := st.code }) s

/-- A request taken: it waits for its lock, is refused, or is held back during a staging or until another reseat that waits
or runs has ended, and is then judged (R60, R61). A RESEAT job that comes during a staging completes DEFERRED, and its request
stays held (R60, R623; log 36, DEDUCED). -/
def askReseat (job : Option Nat) (a : Actor) (d : Deferred) (s : State) : State :=
  if stagingNow s then
    let s1 := modBoot (fun b => { b with deferred := b.deferred ++ [if job.isSome then .reseatWrite a else d] }) s
    match job with
    | some id => engineEnds id { status := .deferred } s1
    | none => s1
  else if s.boot.reseatWait.isSome then modBoot (fun b => { b with deferred := b.deferred ++ [d] }) s
  else if reseatable s then modBoot (fun b => { b with reseatWait := some job, reseatActor := a }) s
  else
    let s1 := reseatResult .refusedPolicy s
    match job with
    | some id => engineEnds id { status := .refusedPolicy } s1
    | none => s1

/-- RESEAT_CTRL GO with its key (R50). -/
def reseatWrite (a : Actor) (s : State) : State := askReseat none a (.reseatWrite a) s

/-- The highest-ranked of the masters that ask for a reseat in the same cycle, where it ranks above `m` (R17, R61). -/
def outranking (m : Nat) (rivals : List Nat) : Option Nat :=
  (rivals.filter fun r => masterRank r < masterRank m).foldl (fun (b : Option Nat) x => match b with
    | none => some x
    | some y => if masterRank x < masterRank y then some x else some y) none

/-- RESEAT_JOB: a reseat job from a session whose role holds the right (R50, Table 3.12), unless it loses to a request of the
same cycle by another master (R61, R124). -/
def reseatJobJob (rivals : List Nat) (j : Job) (s : State) : State :=
  if s.boot.deferred.contains (.reseatJob j.id) || s.boot.reseatWait == some (some j.id) then s
  else if !hasRight s .reseat j.actor.role then engineEnds j.id { status := .refusedRole } s
  else if strictRefused s then engineEnds j.id { status := .refusedPolicy } s
  else match outranking j.actor.master rivals with
    | some w => engineEnds j.id { status := .conflictLost, winner := w } s
    | none => askReseat (some j.id) j.actor (.reseatJob j.id) s

/-- RESEAT_JOB: the running job of the tag has its effect. -/
def execReseatJob (ask : ReseatAsk) (s : State) : Host.Outcome State Fault Refusal :=
  done (onJob ask.tag 0 2 (reseatJobJob ask.rivals) s)

/-- ACTIVATE_DT_REACHED (R50): DT has reached the pending copy's non-zero ACTIVATE_DT, with valid time. -/
def execActivateDtReached (s : State) : Host.Outcome State Fault Refusal :=
  done (if standbyPending s && s.boot.activateDt != 0 && decide (s.boot.activateDt.toNat ≤ s.time.dt.toNat)
      && !s.time.invalid && !s.boot.deferred.contains .reseatDt
    then askReseat none ⟨0, 0⟩ .reseatDt s else s)

/-- STAGE_DEFERRED_RESUME (R60): the oldest request held back is taken once no staging or reseat is in progress. -/
def execStageDeferredResume (mv : Nat) (s : State) : Host.Outcome State Fault Refusal :=
  done (if stagingNow s || s.boot.reseatWait.isSome then s
    else match s.boot.deferred with
      | [] => s
      | d :: rest =>
        let s1 := modBoot (fun b => { b with deferred := rest }) s
        let job := fun (id : Nat) => s.fabric.jobs.find? fun j => j.id == id && j.phase == .running
        match d with
        | .stage id => match job id with
          | some j => stageBegin j mv s1
          | none => s1
        | .reseatJob id => match job id with
          | some j => askReseat (some id) j.actor d s1
          | none => s1
        | .reseatWrite a => askReseat none a d s1
        | .reseatDt => askReseat none ⟨0, 0⟩ d s1)

/-! ### The reseat (R51 to R62, Table 1.9) -/

/-- A job whose engine is stopped leaves no trace on its engine (R109). -/
def dropJob (j : Job) (st : Status) (s : State) : State :=
  let id := j.id
  match j.desc.engine with
  | 0 => modBoot (fun b =>
      { b with
        deferred := b.deferred.filter (· != .reseatJob id)
        reseatWait := if b.reseatWait = some (some id) then (if b.reseatActive then some none else none) else b.reseatWait })
      (stageDrop j st s)
  | 8 => if j.desc.opcode = 1 then undoSnapshot j.id s else modBill (fun b => { b with flagged := b.flagged.filter (· != id) }) s
  | 4 => modShot (fun x => { x with run := x.run.filter fun r => r.job != id }) s
  | 6 => modTemp (fun t => { t with run := t.run.filter fun r => r.job != id }) s
  | 10 => leaveWork id (modJournal (fun x => { x with pend := x.pend.map fun p => { p with jobs := p.jobs.filter (· != id) } }) s)
  | 11 => radioDrop id s
  | 12 => linkDrop id s
  | 13 => (if j.desc.opcode = 0x14 && j.phase == .running then unlockAs .consentCommit else fun t => t) <| modRoles (fun r =>
      { r with sess := r.sess.map fun x => { x with want := x.want.filter fun w => w.job != some id } }) s
  | 15 => modLcd (fun l => { l with seg := l.seg.filter fun g => g.job != some id }) s
  | _ => s

/-- Jobs ended by the fabric with a status, with what they hold on their engines. -/
def stopJobs (p : Job → Bool) (st : Status) (s : State) : State :=
  (byEngine ((s.fabric.jobs ++ s.fabric.stalled).filter p)).foldl (fun t j => endJob j st (dropJob j st t)) s

/-- A job of an engine, dispatched or ended by it. -/
def Job.onIt (j : Job) : Bool := match j.phase with
  | .running => true
  | .ended _ => true
  | _ => false

/-- Step 1 of Table 1.9: in-flight C and H jobs end ABORTED, but RESEAT jobs, which R61 judges once the reseat ends;
contexts of the radio are left (R408). -/
def reseatStop (s : State) : State :=
  radioReseat (stopJobs (fun j => j.onIt && decide (2 ≤ classOfQueue j.queue)
    && !(j.desc.engine == 0 && j.desc.opcode == 2)) .aborted s)

/-- The events whose entries wait in the trigger FIFO, oldest first: one event's entries follow each other, each for a
recipe of its own (R122). Two events of one kind never merge (R327). -/
def fifoEvents : List TrigEntry → List (Nat × Nat × Nat) → Option (Nat × Nat × Nat) → List Nat → List (Nat × Nat × Nat)
  | [], acc, _, _ => acc
  | e :: es, acc, last, seen =>
    let k := (e.kind, e.param, e.arg)
    if last = some k && !seen.contains e.recipe then fifoEvents es acc last (e.recipe :: seen)
    else fifoEvents es (acc ++ [k]) (some k) [e.recipe]

/-- The events of the trigger FIFO raised again against the new event table (R140). -/
def reraise (old : List TrigEntry) (s : State) : State :=
  let evs := fifoEvents old [] none []
  evs.foldl (fun t e =>
    ((items t).mason.events.filter fun x =>
      if e.1 = 10 then x.kind == 10 && x.arg == e.2.2 else x.matches e.1 e.2.1 e.2.2).foldl (fun u x =>
        if u.mason.fifo.length < 32 then
          modMason (fun m => { m with fifo := m.fifo ++ [⟨e.1, e.2.1, e.2.2, x.recipe⟩] }) u
        else raise Src.trigDrop (modMason (fun m => { m with drops := satInc m.drops }) u)) t)
    (modMason (fun m => { m with fifo := [] }) s)

/-- A recipe in progress goes on at its place in the new tables; one that is no longer there ends (log 27, DEDUCED). -/
def keepRecipes (s : State) : State :=
  modMason (fun m =>
    { m with ctxs := m.ctxs.map fun c =>
        match (items s).mason.recipes[c.recipe]? with
        | some r => if c.busy && c.job.isNone && decide (r.count ≤ c.pc) then {} else c
        | none => if c.busy && c.job.isNone then {} else c }) s

/-- Every adaptive loop starts its run again with the new bounds (R4, R21, R159, R237, R408). -/
def restartLoops (s : State) : State :=
  let it := items s
  { s with
    lintel := { s.lintel with gov := { s.lintel.gov with clampRun := 0, clamped := false } }
    front := { s.front with
      paths := Vector.ofFn fun i =>
        { nth s.front.paths i.val with thr := (pathItems s i.val).thrInit, clampRun := 0, clamped := false } }
    shot := { s.shot with
      per := (clamp s.shot.per it.shot.perMinMs it.shot.perMaxMs).toNat
      perNext := (clamp s.shot.perNext it.shot.perMinMs it.shot.perMaxMs).toNat
      clampRun := 0, clamped := false }
    journal := { s.journal with clampRun := 0, clamped := false }
    radio := { s.radio with
      txp := Vector.ofFn fun i =>
        clamp (nth s.radio.txp i.val) (at0 it.radio.txpMin i.val) (at0 it.radio.txpMax i.val)
      runPower := Vector.replicate 2 0, runWatch := 0, clampedPower := Vector.replicate 2 false, clampedWatch := false } }

/-- Section 0x07 changed: FAIL_RUN, SWAP_RUN, HELD and FAULT restart as at bring-up, the pressure input's among them;
SWAPPED and the reference check keep their findings (R265, R253, R254). -/
def restartTemp (s : State) : State :=
  let s1 := modTemp (fun t =>
    { t with
      ch := t.ch.map fun c => { c with stat := c.stat % 8, failRun := 0, noisyRun := 0, lastOk := none }
      neg := 0, pos := 0, lastP := none, pFail := 0 }) s
  (List.range 4).foldl (fun t c => setLevel (Src.sensorFault c) false (unusedChan (items s).temp c t))
    (setLevel Src.pressFault false s1)

/-- The body of a section in an image. -/
def bodyOf (img : RunImage) (sec : Nat) : Option (List Byte) := (img.bodies.find? fun b => b.1 == sec).map (·.2)

/-- The switch point (Table 1.9 step 4): every engine takes the new configuration in one cycle. -/
def switchImage (img : RunImage) (s : State) : State :=
  let old := s.boot.img
  let fifo := s.mason.fifo
  let s1 := modBoot (fun b => { b with img := img }) ((List.range (pathCount s)).foldl (fun t p =>
    modShotPath p (fun x => { x with plumbDue := plumbDueNow s p }) t) s)
  let s2 := { s1 with
    mason := { s1.mason with timerBase := s1.time.d04, timerFired := [] }
    fabric := { s1.fabric with
      trigLast := Vector.ofFn fun i => if i.val < 2 then nth s1.fabric.trigLast i.val else s1.time.d04 }
    roles := { s1.roles with debugSince := s1.time.d04, debugExpired := false }
    ports := if img.items.ports.optOn = 1 then s1.ports
      else { s1.ports with opt := .sleep, optAt := s1.time.ticks, rate := 0, newRate := none, rateAt := none, reply := none, replyAuth := none }
    lcd := { s1.lcd with pend := if bodyOf old 0x11 != bodyOf img 0x11 then none else s1.lcd.pend } }
  let s3 := reraise fifo (keepRecipes (restartLoops s2))
  let s4 := if bodyOf old 7 != bodyOf img 7 then restartTemp s3 else s3
  stopJobs (fun j => !queueEnabled s4 j.queue) .aborted s4

/-- Step 5: slots whose entry changed take its attributes (R458), are emptied, and listed to be loaded, or left; one that an
alarm has erased stays empty (R481). A changed entry is no reload from
the image, so the peers under its slot are free (R397). -/
def changeSlots (old new : KeyItems) (s : State) : State :=
  (List.range 24).foldl (fun t n =>
    let sl := nth t.keys.slots n
    if old.entry n = new.entry n then t
    else match new.entry n with
      | none => setAttr n {} (if sl.erased then t else emptySlot n t)
      | some e =>
        if sl.erased then setAttr n e.attr t
        else if e.attr.source = 2 then
          setAttr n e.attr (if (old.entry n).any fun y => y.attr.source == 0 then emptySlot n t else t)
        else
          modBoot (fun b => { b with reload := b.reload ++ [n] }) (freePeers n (setAttr n e.attr (emptySlot n t)))) s

/-- A reseat waits and nothing holds its lock off (R51): no locked sequence, no shot pair, no frame in the air. The core,
whose sequence it is, runs and is not halted (log 36, DEDUCED). -/
def reseatMayLock (s : State) : Bool :=
  s.boot.reseatWait.isSome && s.mason.lock.isNone && !shotPairRunning s && (shotRun s).isNone && !frameInAir s
    && !s.mason.halted && s.boot.running && !s.faults.grave

/-- The flash interface is between operations: the reseat reads the standby copy and programs its STATE byte through it
(R77, Table 1.9 steps 2 and 5; log 36, DEDUCED). -/
def flashBetween (s : State) : Bool := s.journal.op == .none || s.journal.op == .lock

/-- The length of a reseat's lock in 0.1 ms: of one that runs whole in its command, whose unlock lies that much ahead, or
of one whose steps came apart, measured within the ticks since its lock. -/
inductive LockDur where
  | whole (units : Nat)
  | since (units : Nat)
  deriving DecidableEq, Repr

/-- The length shown. -/
def LockDur.units (d : LockDur) (s : State) : Nat := match d with
  | .whole n => n
  | .since n =>
    let t := s.time.ticks - s.boot.reseatSince
    max ((t - 1) * 10000 / 32768) (min n (ceilDiv ((t + 1) * 10000) 32768))

/-- The ticks from the command to the unlock. -/
def LockDur.ahead : LockDur → Nat
  | .whole n => n * 32768 / 10000
  | .since _ => 0

/-- A trigger event that fell while the lock was held fires at unlock, with the template of the configuration then in force, also
where that configuration uses the trigger no longer (R54, R140; log 39, DESIGN CHOICE). -/
def heldTrigger (x : Nat × Nat) (s : State) : State :=
  if x.1 = 0 then shotSubmit x.2 s
  else if x.1 = 1 then submitTrigger 1 s
  else fireTrigger x.1 (at0 (items s).fabric.trig x.1).period s

/-- What every reseat that took its lock leaves at unlock, a trigger that fell due while it was held fired (R54, R140): RESEAT_STATUS, the job's ending, the amendment record and the
audit record. -/
def reseatUnlock (st : Status) (dur : LockDur) (kind : Nat) (old : RunImage) (x : Judged) (bytes : List Byte) (s : State) :
    State :=
  let d := dur.units s
  let a := s.boot.reseatActor
  let job := s.boot.reseatWait.bind id
  let mine := leAt s.boot.amendHead 0x0C 4 == x.seq && !s.boot.amendHead.isEmpty
  let mac := slice bytes (bytes.length - 20) 16
  let touched := (List.range 18).filter fun i => bodyOf old (i + 1) != bodyOf x.img (i + 1)
  let s1 := modBoot (fun b =>
    { b with
      reseatActive := false, reseatPhase := 0, reseatFenced := false, reseatOld := none, reseatTrigs := []
      reseatWait := none, unlockAt := s.time.ticks + dur.ahead, reseatResult := st.code, reseatDur := satNat 16 d })
    (modInteg (fun i => { i with unlock := some (bootTicks s + dur.ahead) }) s)
  let s2 := s.boot.reseatTrigs.foldl (fun t n => heldTrigger n t)
    (modMason (fun m => { m with lock := none, lockUs := min (d * 100) (2 ^ 24 - 1) }) s1)
  let s3 := match job with
    | some id => engineEnds id { status := st, result := satNat 16 d } s2
    | none => s2
  audit { kind := 4, role := a.role, master := a.master
          item := if x.reject = 0 then sectionMask (touched.map (· + 1)) else 0
          old := bytesLE 4 old.seq, new := bytesLE 4 x.seq ++ (if mine then s.boot.amendMac else mac), status := st.code }
    (writeAmendment (if mine then s.boot.amendHead else bytes.take 32) (if mine then s.boot.amendMac else mac) st
      a.master kind s3)

/-- Step 1 of Table 1.9: the lock is taken. -/
def reseatTake (s : State) : State :=
  react 4096 (reseatStop (modMason (fun m => { m with lock := some (.reseat, s.time.ticks) }) (modBoot (fun b =>
    { b with
      reseatActive := true, reseatPhase := 1, reseatFenced := false, reseatSince := s.time.ticks, reseatOld := none, reseatTrigs := []
      reload := [] }) s)))

/-- The triggers that have fallen due, with their instants (R140). -/
def trigsDue (s : State) : List (Nat × Nat) :=
  (if shotInstant s ≤ s.time.d04 then [(0, shotInstant s)] else [])
    ++ (List.range 7).filterMap fun i =>
      let n := i + 1
      let p := if n = 1 then secTicks (items s).temp.periodS else (at0 (items s).fabric.trig n).period
      if p != 0 && counted s (nth s.fabric.trigLast n) p then some (n, lastInstant s (nth s.fabric.trigLast n) p) else none

/-- Triggers 0 and 1 keep their phase through the switch point: the instants that have fallen due are their last ones
(R140). -/
def keepPhase (s : State) : State :=
  let s1 := if shotInstant s ≤ s.time.d04 then shotMoves s else s
  let p := secTicks (items s).temp.periodS
  let last := nth s.fabric.trigLast 1
  let now := if counted s last p then lastInstant s last p else last
  modFabric (fun f => { f with trigLast := put f.trigLast 1 now }) s1

/-- The Gyale connections survive a change of configuration: the LINK section and the link's key slots are unchanged
(R55). -/
def linkSame (old new : RunImage) : Bool :=
  bodyOf old 0x0D == bodyOf new 0x0D
    && old.items.keys.entry new.items.link.linkSlot == new.items.keys.entry new.items.link.linkSlot
    && old.items.keys.entry new.items.link.e2eSlot == new.items.keys.entry new.items.link.e2eSlot

/-- Steps 2 to 4: the standby copy judged; a failure ends the reseat before any engine changes (R53), else every engine
takes the shadow configuration. -/
def reseatSwitch (dur : LockDur) (s : State) : State :=
  let old := s.boot.img
  let sb := standbyB s
  let x := judgeCopy s sb
  if x.reject ≠ 0 || x.active || x.seq ≤ old.seq then
    let s1 := setCopy sb { x.status with valid := false } (verified sb s)
    reseatUnlock .checkFailed dur 3 old x (copyBytes s sb) (raise Src.reseatCheckFailed s1)
  else
    switchImage x.img (keepPhase
      (modBoot (fun b => { b with reseatPhase := 2, reseatOld := some old, reseatTrigs := trigsDue s })
        (maskedBlocks (verifyBlocks s (copyBytes s sb)) s)))

/-- Step 5: the new copy's STATE byte programmed, and the slots whose entry changed emptied (R37, R481). -/
def reseatStore (o : FlashObs) (s : State) : State :=
  let sb := standbyB s
  let old := (s.boot.reseatOld.getD {}).items.keys
  changeSlots old (items s).keys (modBoot (fun b => { b with reseatPhase := 3 })
    (setCopy sb { (judgeCopy s sb).status with active := true } (programByte o (copyBase sb + 0x13) 0x5A (touchFlash s))))

/-- Step 5: the load in progress, if there is one, ends, and that of the next slot begins. -/
def reseatLoad (s : State) : State :=
  let t := (s.boot.reload.filter fun n => (nth s.keys.slots n).loading).foldl (fun u n => loadLeft n u) s
  match t.boot.reload.find? fun n => !(nth t.keys.slots n).erased with
  | some n => beginLoad n t
  | none => t

/-- Step 6: running and standby swap, the sessions end, and the lock is released with a status; the link's connections survive
or it looks for a parent anew (R444). -/
def reseatFinish (st : Status) (dur : LockDur) (s : State) : State :=
  let sb := standbyB s
  let x := judgeCopy s sb
  let s1 := endSessions (modBoot (fun b =>
    { b with runB := sb, activateDt := 0, reseatCount := satInc b.reseatCount }) s)
  let old := s.boot.reseatOld.getD {}
  linkReseat (linkSame old s.boot.img) (reseatUnlock st dur 2 old x (copyBytes s sb) s1)

/-- The whole of Table 1.9 from the lock to the unlock. -/
def reseatWhole (o : FlashObs) (dur : Nat) (s : State) : State :=
  let t := reseatSwitch (.whole dur) (reseatTake s)
  if t.boot.reseatPhase = 2 then reseatFinish .done (.whole dur) (resumeSlots (reseatStore o t)) else t

/-- A reseat that holds its lock cut off (R58, R132): before the switch point it is rolled back with `st`; after it the new
configuration runs on, a load in progress is cut off, and the slots not loaded wait in `reload`. -/
def reseatCut (st after : Status) (o : FlashObs) (s : State) : State :=
  let dur := LockDur.since (2 ^ 16)
  let s1 := abortLoads s
  if s.boot.reseatPhase = 1 then
    reseatUnlock st dur 3 s.boot.img (judgeCopy s (standbyB s)) (copyBytes s (standbyB s)) s1
  else reseatFinish after dur (if s.boot.reseatPhase = 2 then reseatStore o s1 else s1)

/-- The reseat is within its bound of 200 ms (R52). -/
def reseatInTime (s : State) : Bool := decide (s.time.ticks ≤ s.boot.reseatSince + msTicks 200)

/-- RESEAT_LOCK (R51, R52): Table 1.9 from the lock to the unlock, or one of its steps; `dur` is its length in 0.1 ms. A
reseat that a fence met before the switch point rolls back in place of the switch (R540). -/
def execReseatLock (o : ReseatObs) (dur : Nat) (s : State) : Host.Outcome State Fault Refusal :=
  let at_ := fun (n : Nat) => s.boot.reseatPhase == n && reseatInTime s
  done (match o.part with
  | .whole => if reseatMayLock s && flashBetween s && decide (dur ≤ 2000) then reseatWhole o.flash dur s else s
  | .take => if reseatMayLock s then reseatTake s else s
  | .switch => if at_ 1 && s.boot.reseatFenced then reseatCut .aborted .aborted {} s
    else if at_ 1 && flashBetween s then reseatSwitch (.since dur) s else s
  | .store => if at_ 2 && flashBetween s then reseatStore o.flash s else s
  | .load => if at_ 3 then reseatLoad s else s
  | .finish => if at_ 3 then reseatFinish .done (.since dur) (resumeSlots s) else s)

end Sys2Proof.Machine
end

