-- ==== Sys2Proof/Machine/Lintel.lean ====
section
/-! DEFINITION. Supplies, resets, clock monitors and device time (chapter 2; R600 to R611): the commands that come from
the supply balls, RESET_N, TEST_EN, the oscillators and the D04 tick. -/

namespace Sys2Proof.Machine

/-! ### Supplies (R64 to R74, R604, R605) -/

/-- A voltage in millivolts lies within Table 18.5 for its ball: VBAT, VBAK, or VIO, which may be tied to VBAT. -/
def vbatRated (mv : Int) : Bool := decide (-4000 ≤ mv) && decide (mv ≤ 4200)
def vbakRated (mv : Int) : Bool := decide (-300 ≤ mv) && decide (mv ≤ 4200)
def vioRated (mv : Int) : Bool := vbatRated mv

/-- An effect within the absolute limits; outside them no statement of the manual holds (R605). -/
def rated (ok : Bool) (s : State) : Host.Outcome State Fault Refusal := if ok then done s else .fault .outsideRatings

/-- The millivolts that VBAT_MV and VBAK_MV show of a voltage. -/
def shownMv (mv : Int) : Nat := satNat 16 mv.toNat

/-- VBAT_FALL (R66, R67): VBAT below 2.00 V. -/
def execVbatFall (mv : Int) (s : State) : Host.Outcome State Fault Refusal :=
  rated (vbatRated mv) (if s.lintel.vbatOk && decide (mv < 2000) then
      let s1 := modLintel (fun l => { l with vbatOk := false }) s
      if s.lintel.mainOn then mainOff s1 else s1
    else s)

/-- VAON touches VRET (R70): RETLOST sets, and the D05 counter that paces ALIVE starts again (R530). -/
def touchVret (s : State) : State :=
  modFaults (fun f => { f with d05Halves := 0 }) (modLintel (fun l => { l with retlost := true }) s)

/-- VBAT_RISE (R66, R68): VBAT at 2.10 V or above; the main domain starts where VIO is there too. A touch of VRET in the same
instant counts in either case (R72, Table 2.13 step 3b). -/
def execVbatRise (mv : Int) (o : BootObs) (s : State) : Host.Outcome State Fault Refusal :=
  rated (vbatRated mv) (if !s.lintel.vbatOk && decide (2100 ≤ mv) then
      let s1 := modLintel (fun l => { l with vbatOk := true, reversedNow := false }) s
      if s.lintel.vioOk then bringUp .power { o with vbatMv := shownMv mv } s1 else if o.vretTouch then touchVret s1 else s1
    else s)

/-- VIO_FALL (R604): it acts as a fall of VBAT through VBAT_OK. -/
def execVioFall (mv : Int) (s : State) : Host.Outcome State Fault Refusal :=
  rated (vioRated mv) (if s.lintel.vioOk && decide (mv < 1580) then
      let s1 := modLintel (fun l => { l with vioOk := false }) s
      if s.lintel.mainOn then mainOff s1 else s1
    else s)

/-- VIO_RISE (R604): the start that follows is by R68. -/
def execVioRise (mv : Int) (o : BootObs) (s : State) : Host.Outcome State Fault Refusal :=
  rated (vioRated mv) (if !s.lintel.vioOk && decide (1620 ≤ mv) then
      let s1 := modLintel (fun l => { l with vioOk := true }) s
      if s.lintel.vbatOk then bringUp .power o s1 else s1
    else s)

/-- RESET_N_PULSE (R602): 10 µs or more resets the main domain, less than 2 µs is ignored, and between them either may
happen (`taken`). A supply that falls in the same D24 cycle decides (R610); the grave state ignores it (R527). -/
def execResetNPulse (us : Nat) (taken fall : Bool) (o : BootObs) (s : State) : Host.Outcome State Fault Refusal :=
  done (if s.lintel.mainOn && !s.faults.grave && !fall && (decide (10 ≤ us) || (decide (2 ≤ us) && taken))
    then bringUp .pin o (mainOff s) else s)

/-- VAON_SOURCE_SWITCH (R64, Table 2.2): the comparator trips and VAON changes source; a dip above 150 mV raises
SWITCH_DIP, and one that reaches VRET sets RETLOST (R70). -/
def execVaonSourceSwitch (vbatMv vbakMv : Int) (dipMv : Nat) (s : State) : Host.Outcome State Fault Refusal :=
  rated (vbatRated vbatMv && vbakRated vbakMv) (
    let trips := if s.lintel.srcVbak then decide (vbakMv + 30 ≤ vbatMv) else decide (vbatMv ≤ vbakMv - 30)
    if !trips then s
    else
      let before := if s.lintel.srcVbak then vbakMv else vbatMv
      let s1 := modLintel (fun l => { l with srcVbak := !l.srcVbak, switches := satInc l.switches }) s
      let s2 := raiseIf (decide (150 < dipMv)) Src.switchDip s1
      if before - dipMv ≤ 1550 then touchVret s2 else s2)

/-- VAON_TOUCHES_VRET (R70). -/
def execVaonTouchesVret (s : State) : Host.Outcome State Fault Refusal := done (touchVret s)

/-- VAON_POWER_ON (R70): VAON comes up from nothing. The AON domain starts with RETLOST set and the D05 counter at 0; what
is not of silicon memory (the flash, OTP, the pins' levels) is as it was. -/
def execVaonPowerOn (s : State) : Host.Outcome State Fault Refusal :=
  done (if s.lintel.mainOn then s
    else { (State.reset) with
      pending := s.pending, otp := s.otp, otpCrc := s.otpCrc, flash := s.flash, draws := s.draws
      lintel := { State.reset.lintel with vbatOk := s.lintel.vbatOk, vioOk := s.lintel.vioOk }
      clock := { State.reset.clock with testEn := s.clock.testEn, d25 := s.clock.d25 }
      journal := { unstable := s.journal.unstable } })

/-- VBAK_LOW_CHANGE (R66): VBAK_LOW sets below 1.80 V and clears at 1.85 V or above; BAK_FITTED = 0 masks the source
(R69). -/
def execVbakLowChange (mv : Int) (s : State) : Host.Outcome State Fault Refusal :=
  rated (vbakRated mv) (
    let low := if s.lintel.vbakLow then decide (mv < 1850) else decide (mv < 1800)
    let s1 := modLintel (fun l => { l with vbakLow := low, vbakMv := if l.mainOn then shownMv mv else l.vbakMv }) s
    if (items s).power.bakFitted = 1 then setLevel Src.vbakLow low s1 else s1)

/-- VBAT_REVERSAL (R74): VBAT below −0.3 V while VBAK feeds VAON; the AON domain latches it. -/
def execVbatReversal (mv : Int) (s : State) : Host.Outcome State Fault Refusal :=
  rated (vbatRated mv) (if decide (mv < -300) && s.lintel.srcVbak && !s.lintel.vbatOk then
      raise Src.vbatReversed (modLintel (fun l => { l with revLatch := true, reversedNow := true }) s)
    else s)

/-! ### Boot stages and the chip watchdog (R40, R95) -/

/-- The maximum of a boot stage, ms (Table 1.7). -/
def stageMaxMs (stage : Nat) : Nat := at0 [0, 20, 5, 40, 80, 80, 30, 100, 120] stage

/-- STAGE_TIMEOUT (R40): a stage from 0x1 to 0x8 exceeds its maximum. -/
def execStageTimeout (s : State) : Host.Outcome State Fault Refusal :=
  done (if s.lintel.mainOn && !s.boot.bare && !s.boot.running && within 1 8 s.boot.stage
      && passed s s.boot.stageSince (msTicks (stageMaxMs s.boot.stage))
    then enterBare 4 s else s)

/-- WATCHDOG_EXPIRY (R95, R106): no kick within WDOG_PERIOD resets the main domain, unless a supply falls in the same D24
cycle. It is paused by a debug halt and stopped in the grave state (R527). -/
def execWatchdogExpiry (fall : Bool) (o : BootObs) (s : State) : Host.Outcome State Fault Refusal :=
  done (if s.boot.running && !s.faults.grave && !s.clock.wdogPaused && !fall
      && passed s s.clock.kickAt (secTicks (items s).power.wdogPeriod)
    then bringUp .wdog o (mainOff s) else s)

/-! ### Device time (R97 to R100, R622) -/

/-- The D04 units of a second, minute, hour and day of DT. -/
def dtUnits : List Nat := [32768, 32768 * 60, 32768 * 3600, 32768 * 86400]

/-- DT moved to a new value; each kind of boundary passed forward is due once, and a local minute with its minute (R622,
R309). -/
def moveDt (new : Nat) (s : State) : State :=
  let old := s.time.dt.toNat
  let run := s.boot.running
  modTime (fun t =>
    { t with
      dt := BitVec.ofNat 64 new
      due := Vector.ofFn fun i => nth t.due i.val || (run && decide (old / at0 dtUnits i.val < new / at0 dtUnits i.val))
      calDue := t.calDue || (run && old / at0 dtUnits 1 != new / at0 dtUnits 1) }) s

/-- `n` ticks of the AON time base. D04 counts them while its crystal runs, and so does the count since the last set but
while INVALID holds; the time that D05 keeps moves DT alone (R93, R100). -/
def countTicks (n : Nat) (s : State) : State :=
  let k := if s.clock.xlOk then n else 0
  let s1 := modTime (fun t =>
    { t with
      ticks := t.ticks + n, d04 := t.d04 + k, sinceSet := if t.invalid then t.sinceSet else t.sinceSet + k }) s
  if s1.boot.running then setLevel Src.timeUnsynced (unsynced s1) s1 else s1

/-- DT advanced by `n` ticks (R97). -/
def advance (n : Nat) (s : State) : State := countTicks n (moveDt (s.time.dt.toNat + n) s)

/-- The value that a pending set gives DT, none for an adjustment that leaves the range of DT (R98). -/
def setTarget (s : State) (p : PendingSet) : Option Nat :=
  if !p.adjust then some p.value.toNat
  else
    let v : Int := s.time.dt.toNat + signed 64 p.value.toNat
    if 0 ≤ v && v < 2 ^ 64 then some v.toNat else none

/-- STEP: the whole seconds of a step, rounded toward zero, in a signed word (R99). TIME_STEPPED is judged on it as it
stands, so a step of 60.5 s does not exceed 60 s (log 36, DEDUCED). -/
def stepSeconds (old new : Nat) : Int := satInt 32 (((new : Int) - old).tdiv 32768)

/-- The body of a time-set event (Table 10.7 type 6). -/
def setBody6 (old new : Nat) (step : Int) (a : Actor) : List Byte :=
  bytesLE 8 old ++ bytesLE 8 new ++ bytesInt 4 step ++ bytesLE 1 a.role ++ bytesLE 1 a.master ++ [0, 0]

/-- The tick that carries a set (R98 step 3, R99). -/
def applySet (p : PendingSet) (s : State) : State :=
  let s0 := modTime (fun t => { t with pend := none }) s
  match setTarget s p with
  | none => modTime (fun t => { t with last := Status.refusedPolicy.code }) (advance 1 s0)
  | some new =>
    let old := s.time.dt.toNat
    let step := stepSeconds old new
    let moved := ((new : Int) - old).natAbs
    let s1 := countTicks 1 (moveDt new s0)
    let s2 := modTime (fun t =>
      { t with
        lastStep := step, stepSums := t.stepSums.map (· + moved), sinceSet := 0, invalid := false
        lastSetDt := BitVec.ofNat 64 new, setCount := satInc t.setCount, calDue := false }) s1
    let s3 := modInteg (fun i => { i with stepSum := i.stepSum + moved }) s2
    let s4 := setLevel Src.timeUnsynced false (setLevel Src.timeInvalid false s3)
    let s5 := raiseIf (decide (60 < step.natAbs)) Src.timeStepped s4
    let s6 := writeEvent 0x00 6 (setBody6 old new step p.actor) s5
    if calendarRuns s6 && !(winOf s6 .bill).fenced then evaluateCalendar s6 else s6

/-- One tick of the time base, with the set that waits for it. -/
def tick (s : State) : State := match s.time.pend with
  | some p => applySet p s
  | none => advance 1 s

/-- D04_TICK (R97): DT advances by one unit; a tick that carries a set is TIME_SET_APPLY's. -/
def execD04Tick (s : State) : Host.Outcome State Fault Refusal := done (tick s)

/-- TIME_SET_APPLY (R98, R99): the tick that carries a pending set. -/
def execTimeSetApply (s : State) : Host.Outcome State Fault Refusal :=
  done (if s.time.pend.isSome then tick s else s)

/-! ### Oscillators and monitors (R92, R93, R96, R101, R600) -/

/-- The ticks that D05 makes up when it takes over: XL_FAIL_MS, and what it had counted of the tick then due (R93). -/
def xlMakeup (s : State) (makeup : Nat) : Nat :=
  let n := (items s).power.xlFailMs * 32768 / 1000
  min (max makeup n) (n + 1)

/-- XL_FAIL_DETECT (R93): no D04 edge for XL_FAIL_MS. D05 takes over, and DT makes up what D05 has counted since the last
D04 tick. -/
def execXlFailDetect (makeup : Nat) (s : State) : Host.Outcome State Fault Refusal :=
  done (if !s.clock.xlOk then s
    else
      let s1 := advance (xlMakeup s makeup) (modClock (fun c =>
        { c with xlOk := false, onRc := true, retries := 0, monFail := setBit c.monFail 3 true }) s)
      setLevel Src.xlFail true (modTime (fun t => { t with calDue := t.calDue || (s.boot.running && decide (0 < xlMakeup s makeup)) })
        (modClock (fun c => { c with retryAt := s1.time.ticks }) s1)))

/-- XL_RETRY (R93): every 64 s the crystal is tried again; on recovery DT returns to D04. `ppm` is the offset of D05 against
D04 where the retry could measure it. -/
def execXlRetry (ok : Bool) (ppm : Option Int) (s : State) : Host.Outcome State Fault Refusal :=
  done (if s.clock.xlOk || !passed s s.clock.retryAt (secTicks 64) then s
    else
      let s1 := modClock (fun c =>
        { c with
          retries := min (c.retries + 1) 255, retryAt := s.time.ticks, xlOk := ok, onRc := !ok
          rcPpm := (ppm.map (satInt 16)).getD c.rcPpm }) s
      if ok then setLevel Src.xlFail false s1 else s1)

/-- CLOCK_MONITOR_FAIL (R101): D07 or D06 is out of range. -/
def execClockMonitorFail (d06 : Bool) (s : State) : Host.Outcome State Fault Refusal :=
  done (if !s.lintel.mainOn then s
    else raise (if d06 then Src.d06Range else Src.rc32mRange)
      (modClock (fun c => { c with monFail := setBit c.monFail (if d06 then 5 else 6) true }) s))

/-- TEST_EN_CHANGE (R96, R600, R611): a high level enables D25 on an unsealed chip; on a sealed chip it is alarm source 4,
and D25 found running raises D25_ACTIVE_SEALED. `runs` says whether D25 runs. -/
def execTestEnChange (level runs : Bool) (s : State) : Host.Outcome State Fault Refusal :=
  done (if isSealed s then
      let s1 := modClock (fun c => { c with testEn := level, d25 := runs }) s
      let s2 := setLevel Src.d25ActiveSealed runs s1
      if level && !s.clock.testEn then alarmBy 4 s2 else s2
    else modClock (fun c => { c with testEn := level, d25 := level }) s)

/-! ### VBAT under load (R80 to R82) -/

/-- A measurement falls due: VBAT_MEAS_S after the last one, and before every peak operation (R80, Table 2.6). -/
def measureDue (s : State) : Bool :=
  passed s s.lintel.measuredAt (secTicks (items s).power.vbatMeasS) || !flashIdle s || s.journal.waitVbat
    || [0, 10, 11].any (fun n => !(onEngine s n).isEmpty) || s.radio.act.kind != .none

/-- VBAT_MEASURE (R80): with the charge counted since the last count. -/
def execVbatMeasure (vbatMv vbakMv : Nat) (c : Charge) (s : State) : Host.Outcome State Fault Refusal :=
  rated (vbatRated vbatMv && vbakRated vbakMv) (if !s.lintel.mainOn || !measureDue s then s
    else takeCharge c (modLintel (fun l => { l with vbakMv := vbakMv, measuredAt := s.time.ticks }) (takeVbat vbatMv s)))

/-- VBAT_RECOVERY (R80, R81): VBAT has stayed above a limit plus 100 mV for 10 ms. -/
def execVbatRecovery (mv : Nat) (s : State) : Host.Outcome State Fault Refusal :=
  rated (vbatRated mv) (if !s.lintel.mainOn then s
    else modLintel (fun l => { l with txHeld := l.txHeld && decide (mv ≤ (items s).power.txMin + 100) }) (takeVbat mv s))

/-- FLASH_BROWNOUT (R82, R350): VBAT falls below FLASH_MIN during a flash program or erase. -/
def execFlashBrownout (mv : Nat) (s : State) : Host.Outcome State Fault Refusal :=
  rated (vbatRated mv) (
    if !((s.lintel.peak = .program || s.lintel.peak = .erase) && decide (mv < (items s).power.flashMin)) then s
    else
      flashBrownout (takeVbat mv s))

end Sys2Proof.Machine
end

