-- ==== Sys2Proof/Machine/Regs.lean ====
section
/-! DEFINITION. The register space (Table 17.1): what an address names, the value it reads, which role may read or write
it (Table 14.2), and a read with its side effects (R129, R134, R292, R571). -/

namespace Sys2Proof.Machine

/-! ### The address map (R563 to R565) -/

/-- What a byte address names: a word of a block, of the QUEUE block, of the work-SRAM window, or nothing. -/
inductive Place where
  | block (b : Block) (off : Nat) | queue (off : Nat) | sram (x : Nat) | unmapped
  deriving DecidableEq, Repr, Inhabited

/-- The place of an address (Table 17.1, R564). An address that is not a multiple of 4 names no word (log 29, DEDUCED). -/
def place (a : Nat) : Place :=
  if a % 4 ≠ 0 then .unmapped
  else if 0x6000 ≤ a && a < 0x7000 then .queue (a - 0x6000)
  else if 0x8000 ≤ a && a < 0x20000 then .sram (a - 0x8000)
  else match Block.ofAddr a with
    | some b => .block b (a % 0x1000)
    | none => .unmapped

/-- Only IDENT and BOOT answer before stage 0x9 and in the bare state (R41, R43). -/
def busyAt (s : State) (p : Place) : Bool :=
  !s.boot.running && !s.faults.grave && (match p with
    | .block .ident _ => false | .block .boot _ => false | _ => true)

/-! ### Values -/

/-- A word of a block outside its fault window, for a master. -/
def readBlock (s : State) (master : Nat) (b : Block) (off : Nat) : Nat :=
  match b with
  | .ident => readIdent s off | .boot => readBoot s off | .lintel => readLintel s off | .clock => readClock s master off
  | .time => readTime s off | .fabric => readFabric s off | .front => readFront s off | .scribe => readScribe s off
  | .ftu => readFtu s off | .shot => readShot s off | .temp => readTemp s off | .integ => readInteg s off
  | .bill => readBill s off | .tamper => readTamper s off | .journal => readJournal s off | .radio => readRadio s off
  | .link => readLink s off | .cipher => readCipher s off | .keyslot => readKeyslot s off | .roles => readRoles s off
  | .entropy => readEntropy s off | .lcd => readLcd s off | .ports => readPorts s master off
  | .debug => readDebug s off

/-- The granule of an offset in the work-SRAM window. -/
def granOf (x : Nat) : Nat := x / 0x200

/-- A port's role lets it use a granule through the window (R129, R565): owner class C or H with the role. -/
def granAllowed (s : State) (role g : Nat) : Bool :=
  let o := (nth s.fabric.grans g).owner
  o != 0xFF && decide (2 ≤ o / 64) && o / 8 % 8 == role

/-- A port may read a granule: by its role, and the debug port any that is not SECRET (R129, R583). -/
def granReadable (s : State) (master role g : Nat) : Bool :=
  if master = 2 then !(nth s.fabric.grans g).secret else granAllowed s role g

/-- The word at an address as a master under a role reads it, without any side effect. A fenced unit reads 0 outside its
fault window (R524), and in the grave state all but IDENT, BOOT and the fault windows (R527). -/
def regWord (s : State) (master role a : Nat) : Nat :=
  match place a with
  | .block b off =>
    if 0xF00 ≤ off then readWindow s b off
    else if (winOf s b).fenced || (s.faults.grave && b != .ident && b != .boot) then 0
    else readBlock s master b off % 2 ^ 32
  | .queue off => if s.faults.grave then 0 else readQueue s master off % 2 ^ 32
  | .sram x =>
    if s.faults.grave || !granReadable s master role (granOf x) then 0 else ofLE (s.sram.read 0 x 4)
  | .unmapped => 0

/-! ### Rights (R486, R487, R510, R576, R582) -/

/-- READ_STATUS: public holds it on the service port only (Table 14.2). -/
def mayReadStatus (s : State) (master role : Nat) : Bool :=
  hasRight s .readStatus role && (role != 4 || master == 1)

/-- A role may read a word through a port (Table 14.2). The work-SRAM window goes by ownership (R129), and the words of
the authentication exchange are open to every role (R576; log 29, DEDUCED). -/
def mayRead (s : State) (master role : Nat) (p : Place) : Bool :=
  match p with
  | .block b off =>
    if 0xF00 ≤ off then s.boot.bare || mayReadStatus s master role
    else match b with
      | .ident => hasRight s .readId role
      | .boot => s.boot.bare || hasRight s .readId role
      | .roles => decide (off < 0x034) || mayReadStatus s master role
      | .integ => (decide (0x010 ≤ off) && decide (off < 0x05C) && hasRight s .readTotals role)
          || mayReadStatus s master role
      | .bill => ((off == 0 || (decide (0x100 ≤ off) && decide (off < 0x1D0))) && hasRight s .readTotals role)
          || mayReadStatus s master role
      | _ => mayReadStatus s master role
  | .queue _ => mayReadStatus s master role
  | .sram _ => true
  | .unmapped => true

/-- The right that a write of a block's word needs. -/
inductive Need where
  /-- Every role, public included (R576, R573). -/
  | any
  /-- Every role but public: a word that no right of Table 14.2 names (R487; log 29, DEDUCED). -/
  | session
  | right (r : Right)
  /-- The seal: the maker, never the chip (R32, R486). -/
  | seal
  deriving DecidableEq, Repr, Inhabited

/-- What a write of a block's word needs (Table 14.2, R510, R576). -/
def writeNeed (b : Block) (off : Nat) : Need :=
  if off = 0xF08 then .right .diag
  else if 0xF00 ≤ off then .right .field
  else match b with
    | .roles => if off < 0x030 then .any else .session
    | .bill => if off = 0x014 || off = 0x018 || off = 0x01C then .right .tariff else .session
    | .time => if off = 0x020 || off = 0x024 || off = 0x028 then .right .time else .session
    | .boot =>
      if off = 0x040 then .right .reseat
      else if off = 0x060 then .seal
      else if off = 0x050 || off = 0x054 || (0x100 ≤ off && off < 0x200) then .right .makerOnly
      else .session
    | .keyslot => if off = 0x020 then .right .snapZeroize else .session
    | .ports => if off = 0x030 then .any else .session
    | _ => .session

/-- A role may write a word through a port. In the bare state a session holds only the load registers and the
authentication exchange (R493), which every role may perform. -/
def mayWrite (s : State) (master role : Nat) (p : Place) : Bool :=
  match p with
  | .block b off =>
    if s.boot.bare then
      b == .boot && ((decide (0x080 ≤ off) && decide (off < 0x0B0))
        || (role == 3 && master == 1 && (off == 0x050 || off == 0x054 || (decide (0x100 ≤ off) && decide (off < 0x200)))))
    else match writeNeed b off with
      | .any => true
      | .session => role != 4
      | .right r => hasRight s r role
      | .seal => role == 3
  | .queue off => decide (off % 0x40 < 0x20) || role != 4
  | .sram _ => true
  | .unmapped => true

/-! ### Reads with their side effects -/

/-- The words that a read of a low word latches for its master (R292): the high word, and an accumulator's FRAC. -/
def latchedWith (b : Block) (off : Nat) : List Nat :=
  match b with
  | .time => if off = 0x000 then [0x004] else []
  | .integ =>
    if 0x010 ≤ off && off < 0x070 && off % 0x10 = 0 then [off + 4, off + 8]
    else if [0x070, 0x078, 0x080, 0x088, 0x090, 0x0A4, 0x0B4, 0x0C8].contains off then [off + 4]
    else []
  | .bill =>
    if off = 0x00C || off = 0x018 then [off + 4]
    else if 0x040 ≤ off && off < 0x0C0 && off % 0x10 = 0 then [off + 4, off + 8]
    else []
  | .tamper =>
    if off = 0x008 || off = 0x010 || off = 0x018 then [off + 4]
    else if 0x040 ≤ off && off < 0x100 && (off % 0x20 = 0x04 || off % 0x20 = 0x0C) then [off + 4]
    else []
  | _ => []

/-- The value latched for a master at an address. -/
def latchOf (s : State) (master a : Nat) : Option Word :=
  (s.time.latches.find? fun l => l.1 == master && l.2.1 == a).map (·.2.2)

/-- The latches after a read of an address (R292): a latched word is taken, a low word latches, and any other read of
the master releases what it held. `now` is the state whose values the read shows. -/
def latchRead (now : State) (master a : Nat) (s : State) : State :=
  let mine := fun (l : Nat × Nat × Word) => l.1 == master
  if (latchOf s master a).isSome then
    modTime (fun t => { t with latches := t.latches.filter fun l => !(mine l && l.2.1 == a) }) s
  else
    let more := match place a with
      | .block b off =>
        (if (winOf now b).fenced || now.faults.grave then [] else latchedWith b off).map fun o =>
          (master, b.base + o, (BitVec.ofNat 32 (readBlock now master b o) : Word))
      | _ => []
    modTime (fun t => { t with latches := t.latches.filter (fun l => !mine l) ++ more }) s

/-- A completion record popped from a queue's ring (R134, R571); the service port keeps a copy of it. -/
def popFor (master q : Nat) (s : State) : State :=
  match ringHead s q with
  | none => s
  | some c =>
    let s1 := popRing q s
    if master = 1 then
      modPorts (fun p => { p with lastPop := (List.range 4).map c.word, lastPopQ := some q }) s1
    else s1

/-- The side effect of a read of an RS word: RESET_CAUSE clears, CPL3 pops (Tables 1.11 and 3.11). -/
def rsEffect (master : Nat) (p : Place) (s : State) : State :=
  match p with
  | .block .boot 0x020 =>
    modBoot (fun b => { b with causePor := false, causePin := false, causeWdog := false, causeCold := false }) s
  | .queue off => if off % 0x40 = 0x2C then popFor master (off / 0x40) s else s
  | _ => s

/-- A place is a register of access RS. -/
def isRs (p : Place) : Bool :=
  match p with
  | .block .boot 0x020 => true
  | .queue off => off % 0x40 == 0x2C
  | _ => false

/-- GRANULE_ACCESS for a window access that ownership forbids (R129, R565). -/
def granRefused (master access a : Nat) (s : State) : State := raiseBy Src.granuleAccess ⟨master, access, a⟩ s

/-- One word read by a port: its value in the state `now` in which the read is staged, and its side effects. -/
def readWord (now : State) (master role a : Nat) (s : State) : State × Nat :=
  let p := place a
  let v := match latchOf s master a with
    | some w => w.toNat
    | none => regWord now master role a
  let s1 := latchRead now master a s
  match p with
  | .sram x => (if s.faults.grave || granReadable now master role (granOf x) then s1 else granRefused master 1 a s1, v)
  | .queue _ => (if s.faults.grave then s1 else rsEffect master p s1, v)
  | _ => (rsEffect master p s1, v)

/-- The addresses of a frame's words (R567). -/
def frameAddrs (a n : Nat) : List Nat := (List.range n).map fun i => a + 4 * i

/-- The words of a frame read in one fabric cycle, with their side effects in ascending address (R570, R571, R594). -/
def readWords (master role : Nat) (addrs : List Nat) (s : State) : State × List Nat :=
  addrs.foldl (fun (acc : State × List Nat) a =>
    let r := readWord s master role a acc.1
    (r.1, acc.2 ++ [r.2])) (s, [])

/-- A request of a port: its session's idle time and its granules' idle time start again (R491, R573). -/
def portRequest (master : Nat) (s : State) : State :=
  modPorts (fun p => { p with access := put p.access master s.time.ticks }) (touchSession master s)

end Sys2Proof.Machine
end

