-- ==== Sys2Proof/Machine/Writes.lean ====
section
/-! DEFINITION. Writes of the register space: the effect of each writable word, the settling of one write (R17, R124,
R500, R524, R527), and its audit record (R498). -/

namespace Sys2Proof.Machine

/-- Word `k` of a 64-bit value replaced (R12). -/
def putHalf (v k : Nat) (w : Word) : Nat :=
  if k = 0 then v / 2 ^ 32 * 2 ^ 32 + w.toNat else w.toNat * 2 ^ 32 + v % 2 ^ 32

/-- Four bytes of a byte register replaced. -/
def putWord (l : List Byte) (off : Nat) (w : Word) : List Byte := l.take off ++ bytesLE 4 w.toNat ++ l.drop (off + 4)

/-! ### BOOT -/

/-- LOAD_CTRL (R45): bare state, service port. Its RESULT takes the load's status. -/
def writeLoadCtrl (o : WriteObs) (a : Actor) (v : Word) (s : State) : State × Status :=
  let isB := bit 4 v.toNat
  if !s.boot.bare || a.master ≠ 1 then (s, .refusedPolicy)
  else
    let s1 := modBoot (fun b => { b with loadCopyB := isB }) s
    let r := match bits 1 0 v.toNat with
      | 1 => loadErase isB o.flash s1
      | 2 => loadProgram isB o.flash s1
      | 3 => loadFinish a isB o.flash o.boot s1
      | _ => (s1, .done)
    if bits 1 0 v.toNat = 0 then (s1, .done)
    else (modBoot (fun b => { b with loadResult := r.2.code }) r.1, .done)

/-- SEAL_CMD (R32): run state, a maker session on the service port. -/
def writeSeal (o : WriteObs) (a : Actor) (v : Word) (s : State) : State × Status :=
  if !s.boot.running || a.master ≠ 1 || a.role ≠ 3 then (s, .refusedPolicy) else sealChip a v o.sealStuck s

/-- RESEAT_CTRL (R50). -/
def writeReseatCtrl (a : Actor) (v : Word) (s : State) : State × Status :=
  if !bit 16 v.toNat then (s, .done)
  else if bits 15 0 v.toNat ≠ 0xA5C3 then (s, .refusedPolicy)
  else (reseatWrite a s, .done)

/-! ### TIME -/

/-- SET_CTRL (R98): the cases in their order; the right has been judged. -/
def writeSetCtrl (a : Actor) (v : Word) (s : State) : State × Status :=
  if a.master = 8 then (s, .refusedPolicy)
  else if !bit 16 v.toNat then (s, .done)
  else if bits 15 0 v.toNat ≠ 0x7D1E then (s, .refusedPolicy)
  else (modTime (fun t => { t with pend := some ⟨bit 17 v.toNat, t.setValue, a⟩ }) s, .done)

/-! ### QUEUE -/

/-- The queue is not enabled, is fenced, or is not in the port's queue map (checks 2 and 3 of Table 3.5). -/
def queueShut (s : State) (master q : Nat) : Bool :=
  !queueEnabled s q || queueFenced s q
    || (isPort master && (classOfQueue q < 2 || !(at0 (items s).fabric.qPorts q).testBit (master - 1)))

/-- A master may submit to a queue (Table 3.5, checks 3 and 4). -/
def maySubmit (s : State) (a : Actor) (q : Nat) : Bool :=
  queueEnabled s q && (!isPort a.master || (decide (2 ≤ classOfQueue q)
    && (at0 (items s).fabric.qPorts q).testBit (a.master - 1) && ((items s).roles.holders (.queue q)).testBit a.role))

/-- QUEUE_ACCESS for a write through the QUEUE window (R133). -/
def queueAccess (a : Actor) (addr : Nat) (s : State) : State := raiseBy Src.queueAccess ⟨a.master, 2, addr⟩ s

/-- The place of a master's staging words in a queue (R134): masters 0 to 5, and the Mason core, whose recipes write items. -/
def stagingOf (master : Nat) : Option Nat :=
  if master < 6 then some master else if master = 8 then some 6 else none

/-- DESC0 to DESC7 (R134, R617): the DESC7 write submits the master's staged descriptor. -/
def writeDesc (a : Actor) (q k : Nat) (v : Word) (s : State) : State × Status :=
  match stagingOf a.master with
  | none => (s, .refusedPolicy)
  | some m =>
    let s1 := modQueue q (fun x => { x with staging := upd x.staging m (fun d => put d k v) }) s
    if k < 7 then (s1, .done)
    else
      let d := Desc.ofWords (nth (nth s1.fabric.queues q).staging m).toList
      let s2 := submitJob a q d [] none false s1
      (if queueShut s a.master q then queueAccess a (0x6000 + q * 0x40 + 0x1C) s2 else s2, .done)

/-- Q_CTRL (Table 3.11, R133). -/
def writeQCtrl (a : Actor) (q : Nat) (v : Word) (s : State) : State × Status :=
  if !maySubmit s a q then (queueAccess a (0x6000 + q * 0x40 + 0x38) s, .refusedPolicy)
  else (modQueue q (fun x =>
    { x with notifyEn := bit 0 v.toNat, overrun := x.overrun && !bit 1 v.toNat }) s, .done)

/-- A word of the QUEUE block. -/
def writeQueue (a : Actor) (off : Nat) (v : Word) (s : State) : State × Status :=
  let q := off / 0x40
  let r := off % 0x40
  if r < 0x20 then writeDesc a q (r / 4) v s
  else if r = 0x38 then writeQCtrl a q v s
  else (queueAccess a (0x6000 + off) s, .refusedPolicy)

/-! ### Fault windows (R510, R516 to R518) -/

/-- FAULT_FORCE (R518): every named source of the block is raised with ACCESS 0xE and the writing master. One of `real` that
also occurs in this cycle is raised by that occurrence's own command alone (R539; log 34, DESIGN CHOICE). -/
def writeForce (a : Actor) (b : Block) (real : Nat) (v : Word) (s : State) : State × Status :=
  let named := (List.range b.sources.length).filter fun i => v.toNat.testBit i
  if isSealed s && named.any (fun i => !isRaised s ⟨b, i⟩ && classOf s ⟨b, i⟩ == 3) then (s, .refusedPolicy)
  else ((named.filter fun i => !real.testBit i).foldl (fun t i => raiseBy ⟨b, i⟩ ⟨a.master, 0xE, b.base + 0xF08⟩ t) s, .done)

/-- A word of a fault window. The bits of numbers that the block does not use stay 0 (R509). -/
def writeWindow (a : Actor) (b : Block) (off real : Nat) (v : Word) (s : State) : State × Status :=
  match off with
  | 0xF00 => (clearStatus b v.toNat s, .done)
  | 0xF04 => (modWin b (fun w => { w with enable := BitVec.ofNat 16 (v.toNat % 2 ^ b.sources.length) }) s, .done)
  | 0xF08 => writeForce a b real v s
  | _ => (s, .refusedPolicy)

/-! ### KEYSLOT, ROLES, LCD, PORTS and the work-SRAM window -/

/-- ERASE_CMD (R463): alarm source 5 on every slot. -/
def writeEraseCmd (o : WriteObs) (v : Word) (s : State) : State × Status :=
  if !bit 16 v.toNat then (s, .done)
  else if bits 15 0 v.toNat ≠ 0xC1A5 then (s, .refusedPolicy)
  else (alarm 5 (2 ^ 24 - 1) true o.eraseNs o.eraseRepeats s, .done)

/-- AUTH_CTRL (Table 14.8): the first of BEGIN, FINISH and END that is written 1 acts; AUTH_STATUS.LAST takes its
status. -/
def writeAuthCtrl (o : WriteObs) (a : Actor) (v : Word) (s : State) : State × Status :=
  let role := bits 2 0 v.toNat
  let s1 := modRoles (fun r => { r with authRole := role }) s
  let last := fun (t : State) (st : Status) => (modRoles (fun r => { r with authLast := st.code }) t, Status.done)
  if bit 8 v.toNat then
    let r := authBegin a.master role s.roles.authNh none s1
    last r.1 r.2.1
  else if bit 9 v.toNat then
    let r := authFinish a.master s.roles.authResp o.fi s1
    last r.1 r.2.1
  else if bit 10 v.toNat then
    let r := sessionEnd a.master s1
    last r.1 r.2
  else (s1, .done)

/-- The writable words of the authentication exchange (R576). -/
def writeAuth (o : WriteObs) (a : Actor) (off : Nat) (v : Word) (s : State) : State × Status :=
  if off = 0x000 then writeAuthCtrl o a v s
  else if off = 0x004 || off = 0x008 then
    (modRoles (fun r => { r with authNh := putWord r.authNh (off - 0x004) v }) s, .done)
  else if 0x014 ≤ off && off < 0x024 then
    (modRoles (fun r => { r with authResp := putWord r.authResp (off - 0x014) v }) s, .done)
  else (s, .refusedPolicy)

/-- LCD_CTRL (R553). A SEL_GO for a page that the image does not hold is refused (log 29, DEDUCED). -/
def writeLcdCtrl (v : Word) (s : State) : State × Status :=
  let sel := bits 4 0 v.toNat
  let go := bit 8 v.toNat
  let hold := bit 9 v.toNat
  if go && (items s).display.pages.length ≤ sel then (s, .refusedPolicy)
  else (modLcd (fun l =>
    { l with
      pageSel := sel, hold := hold
      holdAt := if hold && !l.hold then s.time.ticks else l.holdAt
      cur := if go then sel else l.cur
      dwellAt := if go then s.time.ticks else l.dwellAt }) s, .done)

/-- One granule drawn for a port's owner (R573, R116): of class C with the shared pool behind it, of class H from the H
reserve alone. Its NEXT is 0xFF, so that a port's own list is one granule of 512 bytes (R623; log 39, DESIGN CHOICE). -/
def portAlloc (cls : Nat) (a : Actor) (s : State) : State × Option Nat :=
  let pool := (granSources s { queue := cls * 16, desc := { outCount := 1 } }).bind (·.head?)
  if (portGrans s a.master).length < (items s).ports.granMax then
    match pool, pickFree s.draws (freeGrans s) with
    | some p, some g =>
      (drew 1 (modGran g (fun x =>
        { x with owner := ownerCode cls a.role, pool := p, next := 0xFF, port := some a.master }) s), some g)
    | _, _ => (s, none)
  else (s, none)

/-- A granule command of a port (R573): the granule it gives and its result. -/
def granCommand (a : Actor) (cmd g : Nat) (s : State) : State × Nat × Status :=
  match cmd with
  | 1 => match portAlloc 2 a s with
    | (t, some x) => (t, x, .done)
    | (t, none) => (t, 0xFF, .refusedCapacity)
  | 2 => match portAlloc 3 a s with
    | (t, some x) => (t, x, .done)
    | (t, none) => (t, 0xFF, .refusedCapacity)
  | 3 => if (portGrans s a.master).contains g then (dropPortGran g s, g, .done) else (s, g, .refusedPolicy)
  | _ => (s, g, .done)

/-- GRAN_CTRL (Table 17.9): the last granule given and the last result stay readable. -/
def writeGranCtrl (a : Actor) (v : Word) (s : State) : State × Status :=
  if !isPort a.master then (s, .refusedPolicy)
  else
    let cmd := bits 1 0 v.toNat
    let r := granCommand a cmd (bits 15 8 v.toNat) s
    (modPorts (fun p =>
      { p with granCtl := upd p.granCtl a.master fun c =>
          (cmd, if cmd = 1 || cmd = 2 then r.2.1 else c.2.1, if cmd = 0 then c.2.2 else r.2.2.code) }) r.1, .done)

/-- A word of the work-SRAM window (R565). -/
def writeSram (a : Actor) (x : Nat) (v : Word) (s : State) : State × Status :=
  if granAllowed s a.role (granOf x) then ({ s with sram := s.sram.write 0 x (bytesLE 4 v.toNat) }, .done)
  else (granRefused a.master 2 (0x8000 + x) s, .refusedPolicy)

/-! ### One write -/

/-- The effect of a write on the word it names, where nothing hinders it. A word without a writable field completes
REFUSED_POLICY (R572). -/
def writeEffect (o : WriteObs) (a : Actor) (p : Place) (v : Word) (s : State) : State × Status :=
  match p with
  | .unmapped => (s, .refusedPolicy)
  | .sram x => writeSram a x v s
  | .queue off => writeQueue a off v s
  | .block b off =>
    if 0xF00 ≤ off then writeWindow a b off o.real v s
    else match b with
      | .boot =>
        if off = 0x040 then writeReseatCtrl a v s
        else if off = 0x050 then writeLoadCtrl o a v s
        else if off = 0x054 then
          if a.master = 1 then (modBoot (fun x => { x with loadPage := bits 15 8 v.toNat }) s, .done) else (s, .refusedPolicy)
        else if off = 0x060 then writeSeal o a v s
        else if 0x080 ≤ off && off < 0x0B0 && s.boot.bare then writeAuth o a (off - 0x080) v s
        else if 0x100 ≤ off && off < 0x200 then
          if a.master = 1 then (modBoot (fun x => { x with loadBuf := putWord x.loadBuf (off - 0x100) v }) s, .done)
          else (s, .refusedPolicy)
        else (s, .refusedPolicy)
      | .clock =>
        if off = 0x018 then (modClock (fun c => { c with monFail := c.monFail &&& ~~~ (BitVec.ofNat 25 v.toNat) }) s, .done)
        else (s, .refusedPolicy)
      | .time =>
        if off = 0x020 || off = 0x024 then
          (modTime (fun t =>
            { t with setValue := BitVec.ofNat 64 (putHalf t.setValue.toNat ((off - 0x020) / 4) v) }) s, .done)
        else if off = 0x028 then writeSetCtrl a v s
        else (s, .refusedPolicy)
      | .bill =>
        if off = 0x014 then (modBill (fun x => { x with force := v.toNat % 16 }) s, .done)
        else if off = 0x018 || off = 0x01C then
          (modBill (fun x => { x with forceUntil := putHalf x.forceUntil ((off - 0x018) / 4) v }) s, .done)
        else (s, .refusedPolicy)
      | .keyslot => if off = 0x020 then writeEraseCmd o v s else (s, .refusedPolicy)
      | .roles => if off < 0x030 then writeAuth o a off v s else (s, .refusedPolicy)
      | .lcd => if off = 0x004 then writeLcdCtrl v s else (s, .refusedPolicy)
      | .ports => if off = 0x030 then writeGranCtrl a v s else (s, .refusedPolicy)
      | _ => (s, .refusedPolicy)

/-- The words of rights TARIFF, TIME, RESEAT and ZEROIZE, which a strict audit refuses while its queue is full (R500). -/
def strictWord (p : Place) : Bool :=
  match p with
  | .block b off => off < 0xF00 && (match writeNeed b off with
      | .right .tariff => true | .right .time => true | .right .reseat => true | .right .snapZeroize => true
      | _ => false)
  | _ => false

/-- The master whose write of the same item in the same cycle wins (R17, R124, R590), if one does. Descriptor staging
words belong to their master (R134). -/
def rivalOf (w : WriteCtx) (a : Nat) : Option Nat :=
  let own : Bool := match place a with
    | .queue off => decide (off % 0x40 < 0x20)
    | _ => false
  let better := (w.rivals.filter fun r => r.2 == a / 4 && masterRank r.1 < masterRank w.master).map (·.1)
  if own then none
  else better.foldl (fun (m : Option Nat) x => match m with
    | none => some x
    | some y => if masterRank x < masterRank y then some x else some y) none

/-- The word's unit is fenced, so that the write is not applied (R524); ERASE_CMD is the exception. -/
def writeFenced (s : State) (p : Place) : Bool :=
  match p with
  | .block b off => off < 0xF00 && (winOf s b).fenced && !(b == .keyslot && off == 0x020)
  | _ => false

/-- The audit record of a write (R498, Table 14.7 kind 1): the word before and after. -/
def auditWrite (a : Actor) (addr before after : Nat) (st : Status) (s : State) : State :=
  if isPort a.master || a.master == 8 then
    audit {
      kind := 1, role := a.role, master := a.master, item := addr, old := bytesLE 4 before, new := bytesLE 4 after
      status := st.code, radio := radioMaster a.master } s
  else s

/-- SET_STATUS.LAST shows the code of every SET_CTRL write (R98). -/
def noteSetCtrl (p : Place) (st : Status) (s : State) : State :=
  if p = .block .time 0x028 then modTime (fun t => { t with last := st.code }) s else s

/-- One write of a master settled and applied or not: the result and the master that won (0 where none). -/
def writeWord (o : WriteObs) (w : WriteCtx) (role addr : Nat) (v : Word) (s : State) : State × Status × Nat :=
  let a : Actor := ⟨w.master, role⟩
  let p := place addr
  let before := regWord s w.master role addr
  let r : State × Status × Nat :=
    if p = .unmapped then (s, .refusedPolicy, 0)
    else if s.faults.grave then (s, .fenced, 0)
    else if !mayWrite s w.master role p then (s, .refusedRole, 0)
    else match rivalOf w addr with
      | some m => (modFabric (fun f => { f with conflicts := satInc f.conflicts }) s, .conflictLost, m)
      | none =>
        if strictWord p && strictRefused s then (s, .refusedPolicy, 0)
        else if writeFenced s p then (s, .fenced, 0)
        else let e := writeEffect o a p v s; (e.1, e.2, 0)
  let s1 := noteSetCtrl p r.2.1 r.1
  if p = .unmapped then (s1, r.2)
  else (auditWrite a addr before (regWord s1 w.master role addr) r.2.1 s1, r.2)

/-! ### Frames (R567 to R572) -/

/-- Port status codes (Table 17.3). -/
inductive PortStatus where
  | ok | refusedPolicy | refusedRole | fenced | checkFailed | busy | wait | unmapped
  deriving DecidableEq, Repr, Inhabited

/-- The code of a port status. -/
def PortStatus.code : PortStatus → Nat
  | .ok => 0x00 | .refusedPolicy => 0x22 | .refusedRole => 0x23 | .fenced => 0x40 | .checkFailed => 0x50
  | .busy => 0xB0 | .wait => 0xB1 | .unmapped => 0xB2

/-- What hinders a frame as a whole (R569); BUSY is judged first, then UNMAPPED, then the right (log 29, DEDUCED). -/
def frameStop (s : State) (master role : Nat) (addrs : List Nat) (write : Bool) : Option PortStatus :=
  let ps := addrs.map place
  if ps.any (busyAt s) then some .busy
  else if ps.any (· == .unmapped) then some .unmapped
  else if write && s.faults.grave then some .fenced
  else if ps.any (fun p => !(if write then mayWrite s master role p else mayRead s master role p)) then some .refusedRole
  else none

/-- What a frame answers: its status, read words or results, and the winner of the first word lost. -/
structure FrameAnswer where
  status : PortStatus := .ok
  words : List Nat := []
  results : List Status := []
  winner : Nat := 0
  deriving DecidableEq, Repr, Inhabited

/-- A read frame of `n` words (R570, R571). -/
def readFrame (master role addr n : Nat) (s : State) : State × FrameAnswer :=
  let addrs := frameAddrs addr n
  match frameStop s master role addrs false with
  | some st => (s, { status := st, words := List.replicate n 0 })
  | none => let r := readWords master role addrs s; (r.1, { words := r.2 })

/-- The words of a frame refused as a whole, recorded as refused writes (R498). -/
def auditRefused (w : WriteCtx) (role : Nat) (st : Status) (addrs : List Nat) (s : State) : State :=
  addrs.foldl (fun t a =>
    let v := regWord t w.master role a
    noteSetCtrl (if st = .refusedRole && mayWrite t w.master role (place a) then .unmapped else place a) st
      (auditWrite ⟨w.master, role⟩ a v v st t)) s

/-- A write frame (R569, R572): refused as a whole, or its words applied in ascending address, one in each fabric cycle. -/
def writeFrame (o : WriteObs) (w : WriteCtx) (role addr : Nat) (vs : List Word) (s : State) : State × FrameAnswer :=
  let addrs := frameAddrs addr vs.length
  match frameStop s w.master role addrs true with
  | some .fenced =>
    (auditRefused w role .fenced addrs s, { status := .fenced, results := vs.map fun _ => Status.fenced })
  | some .refusedRole =>
    (auditRefused w role .refusedRole addrs s, { status := .refusedRole, results := vs.map fun _ => Status.done })
  | some st => (s, { status := st, results := vs.map fun _ => Status.done })
  | none =>
    (addrs.zip vs).foldl (fun (acc : State × FrameAnswer) x =>
      let r := writeWord o w role x.1 x.2 acc.1
      (settle r.1, { acc.2 with
        results := acc.2.results ++ [r.2.1]
        winner := if acc.2.winner = 0 then r.2.2 else acc.2.winner })) (s, {})

/-- The bytes of a read frame's payload (Table 17.2). -/
def FrameAnswer.readBytes (f : FrameAnswer) : List Byte := f.words.flatMap fun v => bytesLE 4 v

/-- The bytes of a write frame's payload: the results and the winner (Table 17.2). A frame refused as a whole by any
status but FENCED carries 0 (R569). -/
def FrameAnswer.writeBytes (f : FrameAnswer) : List Byte :=
  (f.results.map fun st => BitVec.ofNat 8 st.code) ++ bytesLE 1 f.winner

/-- SP_LAST_WRITE's summary: the first result other than DONE, and the number of words applied. -/
def FrameAnswer.summary (f : FrameAnswer) : Nat × Nat :=
  ((((f.results.find? (· != .done)).map (·.code)).getD 0), (f.results.filter (· == .done)).length)

end Sys2Proof.Machine
end

