-- ==== Sys2Proof/Machine/Access.lean ====
section
/-! DEFINITION. The commands that are one register access: writes that have a row of their own, REGISTER_WRITE, the reads
with a side effect, GRAN_CTRL, the fault-window writes and ALIVE, and the authentication exchange as a job or a write. -/

namespace Sys2Proof.Machine

/-- One word written by a master: no effect where the frame that carries it is turned away as BUSY or UNMAPPED (R569). -/
def writeAccess (o : WriteObs) (w : WriteCtx) (addr : Nat) (v : Word) (s : State) : State :=
  let p := place addr
  if !s.lintel.mainOn || busyAt s p then s
  else (writeWord o w (roleOf s w.master) addr v (portRequest w.master s)).1

/-- One word read by a port, where its frame is served (R569). -/
def readAccess (master addr : Nat) (s : State) : State :=
  if s.lintel.mainOn then (readFrame master (roleOf s master) addr 1 (portRequest master s)).1 else s

/-! ### Time and image load -/

/-- TIME_SET_REQUEST: a SET_CTRL write with GO (R98). -/
def execTimeSetRequest (w : WriteCtx) (key : Half) (s : State) : Host.Outcome State Fault Refusal :=
  done (writeAccess {} w 0x4028 (BitVec.ofNat 32 (key.toNat + 2 ^ 16)) s)

/-- TIME_ADJUST_REQUEST: a SET_CTRL write with GO and ADJUST (R98). -/
def execTimeAdjustRequest (w : WriteCtx) (key : Half) (s : State) : Host.Outcome State Fault Refusal :=
  done (writeAccess {} w 0x4028 (BitVec.ofNat 32 (key.toNat + 3 * 2 ^ 16)) s)

/-- A LOAD_CTRL write with a command for copy A or B. -/
def loadAccess (o : WriteObs) (w : WriteCtx) (cmd : Nat) (copyB : Bool) (s : State) : State :=
  writeAccess o w 0x1050 (BitVec.ofNat 32 (cmd + 16 * b2n copyB)) s

/-- IMAGE_LOAD_ERASE: the 16 sectors of a copy erased in the bare state (R45). -/
def execImageLoadErase (w : WriteCtx) (copyB : Bool) (o : FlashObs) (s : State) : Host.Outcome State Fault Refusal :=
  done (loadAccess { flash := o } w 1 copyB s)

/-- IMAGE_LOAD_PROGRAM: LOAD_BUF to the page at LOAD_ADDR (R45). -/
def execImageLoadProgram (w : WriteCtx) (copyB : Bool) (o : FlashObs) (s : State) : Host.Outcome State Fault Refusal :=
  done (loadAccess { flash := o } w 2 copyB s)

/-- IMAGE_LOAD_FINISH: the copy verified; a valid one restarts the chip at stage 0x3 (R45). -/
def execImageLoadFinish (w : WriteCtx) (copyB : Bool) (o : FlashObs) (boot : BootObs) (s : State) :
    Host.Outcome State Fault Refusal :=
  done (loadAccess { flash := o, boot := boot } w 3 copyB s)

/-- SEAL_COMMAND: a SEAL_CMD write (R32). -/
def execSealCommand (w : WriteCtx) (metro : Word) (stuck : List (Nat × Byte)) (s : State) :
    Host.Outcome State Fault Refusal :=
  done (writeAccess { sealStuck := stuck } w 0x1060 metro s)

/-- RESEAT_REQUEST_GO: a RESEAT_CTRL write with GO (R50). -/
def execReseatRequestGo (w : WriteCtx) (key : Half) (s : State) : Host.Outcome State Fault Refusal :=
  done (writeAccess {} w 0x1040 (BitVec.ofNat 32 (key.toNat + 2 ^ 16)) s)

/-! ### Queues -/

/-- JOB_SUBMIT: a DESC7 write of a queue (R617). -/
def execJobSubmit (w : WriteCtx) (q : Nat) (word7 : Word) (s : State) : Host.Outcome State Fault Refusal :=
  done (if q < 64 then writeAccess {} w (0x6000 + q * 0x40 + 0x1C) word7 s else s)

/-- QUEUE_OVERRUN_CLEAR: a Q_CTRL write with OVERRUN_CLR (R130); its NOTIFY_EN bit is written with it. -/
def execQueueOverrunClear (w : WriteCtx) (q : Nat) (notifyEn : Bool) (s : State) : Host.Outcome State Fault Refusal :=
  done (if q < 64 then writeAccess {} w (0x6000 + q * 0x40 + 0x38) (BitVec.ofNat 32 (b2n notifyEn + 2)) s else s)

/-- COMPLETION_POP: a service-port read of CPL3 (R571). -/
def execCompletionPop (q : Nat) (s : State) : Host.Outcome State Fault Refusal :=
  done (if q < 64 then readAccess 1 (0x6000 + q * 0x40 + 0x2C) s else s)

/-! ### Words without a row of their own, and reads with a side effect -/

/-- REGISTER_WRITE: one word written through the fabric write port (R124). -/
def execRegisterWrite (w : WriteCtx) (addr : Nat) (v : Word) (o : WriteObs) (s : State) :
    Host.Outcome State Fault Refusal :=
  done (writeAccess o w addr v s)

/-- RESET_CAUSE_READ: the RS read of RESET_CAUSE by the service port (R18, Table 1.11). -/
def execResetCauseRead (s : State) : Host.Outcome State Fault Refusal := done (readAccess 1 0x1020 s)

/-- LATCHED_WORD_READ: a port's read of a low word, or of a word it latched (R292). -/
def execLatchedWordRead (master addr : Nat) (s : State) : Host.Outcome State Fault Refusal :=
  done (if isPort master && master != 2 then readAccess master addr s else s)

/-! ### GRAN_CTRL (R573) -/

/-- GRAN_ALLOC_C. -/
def execGranAllocC (w : WriteCtx) (s : State) : Host.Outcome State Fault Refusal := done (writeAccess {} w 0x30030 1 s)

/-- GRAN_ALLOC_H. -/
def execGranAllocH (w : WriteCtx) (s : State) : Host.Outcome State Fault Refusal := done (writeAccess {} w 0x30030 2 s)

/-- GRAN_FREE of a granule. -/
def execGranFree (w : WriteCtx) (g : Nat) (s : State) : Host.Outcome State Fault Refusal :=
  done (writeAccess {} w 0x30030 (BitVec.ofNat 32 (3 + g % 256 * 2 ^ 8)) s)

/-- A port's session is open. -/
def sessionOpen (s : State) (master : Nat) : Bool :=
  match sessionOf master with
  | some i => (nth s.roles.sess i).isOpen
  | none => false

/-- PORT_GRANULE_IDLE_FREE: OPT_IDLE_S without an access of a port that has no session open (R573). -/
def execPortGranuleIdleFree (master : Nat) (s : State) : Host.Outcome State Fault Refusal :=
  done (if isPort master && s.boot.running && !sessionOpen s master
      && passed s (nth s.ports.access master) (secTicks (items s).ports.optIdleS) then freePortGrans master s else s)

/-! ### Fault windows and ALIVE -/

/-- FAULT_STATUS_CLEAR: ones written to a block's FAULT_STATUS (R516). -/
def execFaultStatusClear (w : WriteCtx) (b : Block) (mask : Half) (s : State) : Host.Outcome State Fault Refusal :=
  done (writeAccess {} w (b.base + 0xF00) (BitVec.ofNat 32 mask.toNat) s)

/-- FAULT_FORCE: a block's FAULT_FORCE written (R518), with the sources that also occur in its cycle (R539). -/
def execFaultForce (w : WriteCtx) (b : Block) (forced : Forced) (s : State) : Host.Outcome State Fault Refusal :=
  done (writeAccess { real := forced.real.toNat } w (b.base + 0xF08) (BitVec.ofNat 32 forced.mask.toNat) s)

/-- ALIVE_TOGGLE: a half-second boundary of the D05 counter (R530). In the run state ALIVE toggles at it while no source
of class B, C or D is raised; after such a source it resumes at the first boundary without one. -/
def execAliveToggle (s : State) : Host.Outcome State Fault Refusal :=
  let s1 := modFaults (fun f => { f with d05Halves := f.d05Halves + 1 }) s
  done (if s.lintel.mainOn && s.boot.running && !s.faults.grave && !degraded s && (items s).fault.aliveEn == 1 then
      modFaults (fun f => { f with alive := !f.alive, aliveRun := true }) s1
    else s1)

/-- ERASE_CMD: an ERASE_CMD write with GO (R463). -/
def execEraseCmd (w : WriteCtx) (key : Half) (ns repeats : Nat) (s : State) : Host.Outcome State Fault Refusal :=
  done (writeAccess { eraseNs := ns, eraseRepeats := repeats } w 0x2C020 (BitVec.ofNat 32 (key.toNat + 2 ^ 16)) s)

/-! ### Display control (R553) -/

/-- PAGE_SELECT: an LCD_CTRL write with SEL_GO. -/
def execPageSelect (w : WriteCtx) (page : Nat) (hold : Bool) (s : State) : Host.Outcome State Fault Refusal :=
  done (writeAccess {} w 0x2F004 (BitVec.ofNat 32 (page % 32 + 2 ^ 8 + 2 ^ 9 * b2n hold)) s)

/-- PAGE_HOLD: an LCD_CTRL write without SEL_GO, whose HOLD bit stops or restarts the scroll. -/
def execPageHold (w : WriteCtx) (page : Nat) (hold : Bool) (s : State) : Host.Outcome State Fault Refusal :=
  done (writeAccess {} w 0x2F004 (BitVec.ofNat 32 (page % 32 + 2 ^ 9 * b2n hold)) s)

/-! ### The authentication exchange (R488 to R493, R503) -/

/-- The AUTH_CTRL word of the exchange: in ROLES, or in BOOT when the chip is bare (R493). -/
def authCtrlAddr (s : State) : Nat := if s.boot.bare then 0x1080 else 0x2D000

/-- A write of AUTH_CTRL with one of its three action bits. -/
def authAccess (w : WriteCtx) (v : Word) (actBit : Nat) (s : State) : State :=
  writeAccess {} w (authCtrlAddr s) (BitVec.ofNat 32 (v.toNat % 8 + 2 ^ actBit)) s

/-- A job waits for the random FIFO on its port. -/
def authWaits (s : State) (j : Job) : Bool :=
  match sessionOf j.actor.master with
  | some i => ((nth s.roles.sess i).want.bind (·.job)) == some j.id
  | none => false

/-- AUTH_BEGIN: a role and a host nonce are given, and a challenge is returned (R488 steps 1 and 2). -/
def execAuthBegin (via : AuthVia) (s : State) : Host.Outcome State Fault Refusal :=
  done (match via with
  | .write w v => authAccess w v 8 s
  | .job tag =>
    match runningJob s tag 13 0x10 with
    | none => s
    | some j =>
      if authWaits s j then s
      else
        let nh := bytesLE 4 (j.desc.arg 1) ++ bytesLE 4 (j.desc.arg 2)
        match authBegin j.actor.master (j.desc.arg 0 % 8) nh (some j.id) s with
        | (t, .done, _) => t
        | (t, st, retry) => engineEnds j.id { status := st, retryS := retry } t)

/-- AUTH_FINISH: RESP is verified, and the session opens (R488 steps 3 to 5). -/
def execAuthFinish (via : AuthVia) (s : State) : Host.Outcome State Fault Refusal :=
  done (match via with
  | .write w v => authAccess w v 9 s
  | .job tag =>
    match runningJob s tag 13 0x11 with
    | none => s
    | some j =>
      let r := authFinish j.actor.master ((inputBytes s j 0).take 16) false s
      engineEnds j.id { status := r.2.1, qflags := b2n (authKeyless s j.actor.master), out := r.2.2 } r.1)

/-- SESSION_END: the port's session ends and its slot is erased (R491). -/
def execSessionEnd (via : AuthVia) (s : State) : Host.Outcome State Fault Refusal :=
  done (match via with
  | .write w v => authAccess w v 10 s
  | .job tag =>
    match runningJob s tag 13 0x12 with
    | none => s
    | some j =>
      let r := sessionEnd j.actor.master s
      engineEnds j.id { status := r.2 } r.1)

end Sys2Proof.Machine
end

