-- ==== Sys2Proof/Machine/Display.lean ====
section
/-! DEFINITION. The display driver (chapter 16): the drive and its frames, the render of pages, the fault page, contrast,
the page scroll and the segment check. -/

namespace Sys2Proof.Machine

/-! ### The drive's waveform (R545 to R547) -/

/-- D04 ticks of a COM slot: 4 096 / FRAME_HZ. -/
def slotTicks (d : DisplayItems) : Nat := 4096 / d.frameHz

/-- Level V_k of the bias ladder, mV. -/
def biasLevel (d : DisplayItems) (vlcd k : Nat) : Nat := roundDivNat (k * vlcd) d.bias

/-- A pixel's polarity P in frame `f` (R545): 0 when its selected COM lies above its SEG. -/
def pixelPolarity (d : DisplayItems) (f c seg : Nat) : Nat :=
  match d.invert with
  | 0 => f % 2
  | 1 => (f + c) % 2
  | _ => (f + c + seg) % 2

/-- The half-slot of COM polarity `h` carries the pixel's data (R546): both halves but in dot mode. -/
def carriesData (d : DisplayItems) (f c seg h : Nat) : Bool := d.invert < 2 || pixelPolarity d f c seg == h

/-- Every COM and SEG ball is held at GND (R547), but for the stage 0x8 segment check. -/
def glassGrounded (s : State) : Bool := !displayRuns s

/-! ### The render (R549, R552, R554) -/

/-- A pixel map of 8 × 40 pixels with pixel `p` set on or off. -/
def setPixel (m p : Nat) (on : Bool) : Nat :=
  if m.testBit p = on then m else if on then m + 2 ^ p else m - 2 ^ p

/-- A glyph of FONT drawn at a digit position: each of its pixels takes its bit. Glyph 16 is blank, 17 minus. -/
def drawGlyph (d : DisplayItems) (glyph : Nat) (pos : List Nat) (m : Nat) : Nat :=
  pos.zipIdx.foldl (fun acc x => setPixel acc x.1 ((at0 d.font glyph).testBit x.2)) m

/-- Glyphs drawn at the positions of a field, the first the most significant (log 19, DESIGN CHOICE). -/
def drawGlyphs (d : DisplayItems) (pos : List (List Nat)) (glyphs : List Nat) (m : Nat) : Nat :=
  (pos.zip glyphs).foldl (fun acc x => drawGlyph d x.2 x.1 acc) m

/-- The `n` digits of a number in a base, most significant first. -/
def digitsOf (base n v : Nat) : List Nat := (List.range n).map fun i => v / base ^ (n - 1 - i) % base

/-- The number of decimal digits of a value, at least one, up to `n + 1`. -/
def digitCount (n v : Nat) : Nat := ((List.range n).filter fun i => i = 0 || 10 ^ i ≤ v).length + (if 10 ^ n ≤ v then 1 else 0)

/-- The glyphs of a number field (R552): leading blanks, a minus before a negative number's first digit, and all minus
when the value exceeds the digits. -/
def numberGlyphs (n : Nat) (v : Int) : List Nat :=
  let k := digitCount n v.natAbs
  let used := k + b2n (decide (v < 0))
  if n < used then List.replicate n 17
  else List.replicate (n - used) 16 ++ List.replicate (b2n (decide (v < 0))) 17 ++ digitsOf 10 k v.natAbs

/-- A source word as the render reads it: the chip, with every read right (R552). -/
def sourceWord (s : State) (a : Nat) : Nat := regWord s 0x1F 0 a

/-- A field drawn from its source. -/
def drawField (s : State) (d : DisplayItems) (f : PageField) (m : Nat) : Nat :=
  match f with
  | .number a w sg sh dv pos pt =>
    let raw := sourceWord s a + (if w = 64 then sourceWord s (a + 4) * 2 ^ 32 else 0)
    let v : Int := if sg then signed w raw else raw
    let shown := roundDiv (v / (2 ^ sh : Int)) dv
    let m1 := drawGlyphs d pos (numberGlyphs pos.length shown) m
    match pt with
    | some p => setPixel m1 p true
    | none => m1
  | .flag a mask p => setPixel m p (sourceWord s a &&& mask != 0)
  | .hex a pos => drawGlyphs d pos (digitsOf 16 pos.length (sourceWord s a)) m

/-- The polling order of Table 15.3. -/
def pollOrder : List Block :=
  [.boot, .lintel, .clock, .time, .keyslot, .cipher, .entropy, .fabric, .front, .scribe, .ftu, .shot, .temp, .integ,
   .journal, .bill, .tamper, .radio, .link, .roles, .lcd, .ports, .debug]

/-- The source that the fault page names: the lowest of class B or C of the first block that holds one (R554). -/
def shownFault (s : State) : Option FaultSrc :=
  (pollOrder.flatMap fun b => (List.range 16).map fun i => (⟨b, i⟩ : FaultSrc)).find? fun x =>
    isRaised s x && (raisedClass s x == 1 || raisedClass s x == 2)

/-- The fault page of a source: FAULT_PAT and its four hex digits (R554). -/
def faultPage (d : DisplayItems) (src : FaultSrc) : Nat :=
  drawGlyphs d d.faultDigits (digitsOf 16 2 src.block.byte ++ digitsOf 16 2 src.num) d.faultPat

/-- The periods of FAULT_ALT_S that show the fault page: every second one, counted from the start (log 19, DESIGN CHOICE). -/
def faultPeriod (s : State) : Bool :=
  (s.time.d04 - s.boot.startTick) / secTicks (items s).display.faultAltS % 2 == 1

/-- The pixel map of a pixel map's page with TAMPER_PIX on while any ACK_PENDING bit is set (R554). -/
def markTamper (s : State) (m : Nat) : Nat :=
  if s.tamper.ack != 0 then setPixel m (items s).display.tamperPix true else m

/-- The page rendered now: its pixel map, its number, and whether it is the fault page. -/
def renderNow (s : State) : Nat × Nat × Bool :=
  let d := (items s).display
  match (if faultPeriod s && !s.faults.grave then shownFault s else none) with
  | some src => (markTamper s (faultPage d src), s.lcd.cur, true)
  | none =>
    let n := s.lcd.cur % max 1 d.pages.length
    let p := at0 d.pages n
    (markTamper s (p.fields.foldl (fun m f => drawField s d f m) p.base), n, false)

/-- The eight lines of a pixel map. -/
def linesOf (m : Nat) : Vector Nat 8 := Vector.ofFn fun c => m / 2 ^ (40 * c.val) % 2 ^ 40

/-- How many lines of two memories differ. -/
def linesDiffering (a b : Vector Nat 8) : Nat := ((List.range 8).filter fun c => nth a c != nth b c).length

/-- DISPLAY_REFRESH (R549): a REFRESH reads its sources in one cycle and writes the shadow. -/
def displayRefreshJob (j : Job) (s : State) : State :=
  let r := renderNow s
  let m := linesOf r.1
  engineEnds j.id { result := r.2.1 + b2n r.2.2 * 2 ^ 5 + linesDiffering m s.lcd.drive * 2 ^ 8 }
    (modLcd (fun l => { l with shadow := m }) s)

/-- DISPLAY_REFRESH: the running job of the tag has its effect. -/
def execDisplayRefresh (tag : Nat) (s : State) : Host.Outcome State Fault Refusal :=
  done (onJob tag 15 1 displayRefreshJob s)

/-- The render of a completed REFRESH becomes pending; it replaces one that waits (R549). -/
def pendRender (r : JobResult) (s : State) : State :=
  modLcd (fun l =>
    { l with
      pend := some ⟨l.shadow, r.result % 32, bit 5 r.result⟩
      superseded := if l.pend.isSome then satInc l.superseded else l.superseded }) s

/-! ### Frames (R545, R548, R555, R556, R558 to R560) -/

/-- The lines of the render that waits taken into drive memory. -/
def takeRender (s : State) : State :=
  match s.lcd.pend with
  | none => s
  | some p => modLcd (fun l =>
    { l with
      drive := p.lines, pend := none, page := p.page, faultShown := p.fault
      lines := satAdd l.lines (linesDiffering p.lines l.drive) }) s

/-- The fault page of the fencing source written once (R555). -/
def latchFaultPage (s : State) : State :=
  match s.lcd.fenceSrc with
  | none => s
  | some src => modLcd (fun l =>
    { l with drive := linesOf (markTamper s (faultPage (items s).display src)), faultShown := true, fenceSrc := none }) s

/-- A pair of neighbouring segments found shorted, with SHORT_SEG and SEG_SHORT (R556). -/
def noteShort (p : Option (Nat × Nat)) (s : State) : State :=
  match p with
  | some x => raise Src.segShort (modLcd (fun l => { l with short := some x }) s)
  | none => s

/-- The segment check's result (Table 16.2). -/
def segResult (p : Option (Nat × Nat)) : JobResult :=
  match p with
  | some x => { status := .doneFlagged, result := x.1 + x.2 * 2 ^ 8 + 2 ^ 16 }
  | none => {}

/-- The segment check at an even frame start: it begins its two frames, or it has held them (R556). -/
def segFrame (s : State) : State :=
  match s.lcd.seg with
  | none => s
  | some g =>
    if g.holding then
      let s1 := noteShort g.found (modLcd (fun l => { l with seg := none }) s)
      match g.job with
      | some id => engineEnds id (segResult g.found) s1
      | none => s1
    else modLcd (fun l => { l with seg := some { g with holding := true } }) s

/-- The VLCD target at a die temperature, mV. -/
def vlcdTarget (d : DisplayItems) (tDie : Int) : Nat :=
  (clamp (d.vlcd25 + roundDiv (d.vlcdTc * (tDie - 25000)) 1000000) d.vlcdMin d.vlcdMax).toNat

/-- The VLCD target from an even frame start on: what new VLCD items make of T_DIE, or the target that waits (R551,
R559). -/
def frameTarget (d : DisplayItems) (l : Lcd) : Nat :=
  if l.contrastAt.isSome ∧ l.cfg ≠ d then vlcdTarget d l.tDie else l.nextTarget.getD l.target

/-- What an even frame start brings: the items of a reseat and a new VLCD target first, then the fault page of a fence,
the changed lines and the segment check. -/
def evenFrame (s : State) : State :=
  let d := (items s).display
  segFrame (latchFaultPage (takeRender (modLcd (fun l =>
    { l with cfg := d, target := frameTarget d l, nextTarget := none }) s)))

/-- LCD_FRAME_START: a frame's eight slots after the last began, while the display runs (R545, R547). -/
def execLcdFrameStart (s : State) : Host.Outcome State Fault Refusal :=
  let due := match s.lcd.frameAt with
    | some t => passed s t (8 * slotTicks s.lcd.cfg)
    | none => true
  done (if displayRuns s && due then
      let s1 := modLcd (fun l => { l with frame := l.frame + 1, frameAt := some s.time.ticks }) s
      if s1.lcd.frame.toNat % 2 = 0 then evenFrame s1 else s1
    else s)

/-- A pair of neighbouring segments. -/
def segPair (p : Option (Nat × Nat)) : Option (Nat × Nat) := p.filter fun x => decide (x.2 < 40) && x.2 == x.1 + 1

/-- SEG_CHECK (R556): as a job, or for the governor-day roll. In the run state it waits for an even frame start. -/
def execSegCheck (tag : Option Nat) (short : Option (Nat × Nat)) (s : State) : Host.Outcome State Fault Refusal :=
  let start := fun (id : Option Nat) (t : State) =>
    modLcd (fun l => { l with seg := some { job := id, found := segPair short } }) t
  done (if !displayRuns s || s.lcd.seg.isSome || (winOf s .lcd).fenced then s
  else match tag with
    | some t => match runningJob s t 15 2 with
      | some j => start (some j.id) s
      | none => s
    | none => if s.lcd.segDue then start none (modLcd (fun l => { l with segDue := false }) s) else s)

/-! ### Contrast (R551) -/

/-- VLCD lies outside ±10 % of its target. -/
def vlcdOutside (target measured : Nat) : Bool := decide (target < 10 * ((target : Int) - measured).natAbs)

/-- VLCD as measured, and since when it has lain outside its range (R551). -/
def noteVlcd (mv : Int) (s : State) : State :=
  modLcd (fun l =>
    { l with
      measured := mv.toNat
      outSince := if vlcdOutside l.target mv.toNat then some (l.outSince.getD s.time.ticks) else none }) s

/-- CONTRAST_UPDATE: at start and every 60 s, with the die temperature and VLCD measured. -/
def execContrastUpdate (tDie mv : Int) (s : State) : Host.Outcome State Fault Refusal :=
  let due := match s.lcd.contrastAt with
    | some t => passed s t (secTicks 60)
    | none => true
  done (if displayRuns s && due then
      modLcd (fun l =>
        { l with tDie := tDie, contrastAt := some s.time.ticks, nextTarget := some (vlcdTarget l.cfg tDie) }) (noteVlcd mv s)
    else s)

/-- VLCD_RANGE_TIMER: VLCD measured while it lies outside its range, or back inside (R551). Outside for 1 s without a
measurement inside, it raises the level source, which clears once it is back inside. -/
def execVlcdRangeTimer (mv : Int) (s : State) : Host.Outcome State Fault Refusal :=
  done (if displayRuns s then
      let s1 := noteVlcd mv s
      match s1.lcd.outSince with
      | some t => if passed s t (secTicks 1) then setLevel Src.vlcdRange true s1 else s1
      | none => setLevel Src.vlcdRange false s1
    else s)

/-! ### The scroll (R553) -/

/-- PAGE_DWELL_END: PAGE_S has passed; the next page in index order. -/
def execPageDwellEnd (s : State) : Host.Outcome State Fault Refusal :=
  let d := (items s).display
  done (if displayRuns s && !s.lcd.hold && passed s s.lcd.dwellAt (secTicks d.pageS) then
      modLcd (fun l => { l with cur := (l.cur + 1) % max 1 d.pages.length, dwellAt := s.time.ticks }) s
    else s)

/-- HOLD_TIMEOUT: SESS_IDLE_S after HOLD was set the scroll resumes. -/
def execHoldTimeout (s : State) : Host.Outcome State Fault Refusal :=
  done (if s.lcd.hold && passed s s.lcd.holdAt (secTicks (items s).roles.sessIdleS) then
      modLcd (fun l => { l with hold := false }) s
    else s)

end Sys2Proof.Machine
end

