-- ==== Sys2Proof/Machine/Course.lean ====
section
/-! DEFINITION. The commands of the Coursing fabric and the Mason core (chapter 3): admission, dispatch, completion,
timeouts, the scrubber, hardware triggers, Mason events, recipe steps and the bound of locked sequences. -/

namespace Sys2Proof.Machine

/-! ### Dispatch (R87, R109, R120 to R123, R588) -/

/-- An on-demand snapshot request that waits for its commit does not occupy the billing engine (R311). -/
def waitsAside (j : Job) : Bool := j.desc.engine == 8 && j.desc.opcode == 2 && j.mark

/-- The Mason core may take a step or a job: it runs, is not halted, and no locked sequence holds it. -/
def coreFree (s : State) : Bool :=
  s.mason.running && !s.mason.halted && !s.probe.haltPending && s.mason.lock.isNone

/-- A Mason context that is free. -/
def freeContext (s : State) : Option Nat := (List.range 8).find? fun i => !(nth s.mason.ctxs i).busy

/-- An engine can take a job (R121; the radio holds up to four contexts, and the Mason core eight); one whose own
submission stalls before a full FIFO takes none (R118). The front end and the capture units are the shot's while a
direction runs or is due (R163, R199). -/
def engineFree (s : State) (n : Nat) : Bool :=
  let on := (onEngine s n).filter fun j => !waitsAside j
  if s.fabric.stalled.any (fun j => j.actor.master == 0x10 + n) then false
  else if n = 0 then coreFree s && (freeContext s).isSome
  else if n = 11 then decide (on.length < 4)
  else if n = 13 && s.keys.slots.toList.any (·.loading) then false
  else on.isEmpty && !((n == 1 || n == 2 || n == 3) && shotHolds s) && !(n == 4 && reseatLocked s)

/-- A ready job may be dispatched now: C and H jobs not during a freeze (R588) nor while a reseat holds its lock (R52, R55), journal jobs and B jobs in the order of
a start (R356, R357), a LINK_SEND with an opportunity near (R440). -/
def mayDispatch (s : State) (j : Job) : Bool :=
  let cls := classOfQueue j.queue
  let mount := j.desc.engine == 10 && j.desc.opcode == 7
  j.phase == .ready
    && ((s.fabric.frozen.isNone && !reseatLocked s) || decide (cls < 2))
    && (j.desc.engine != 10 || s.journal.mounted || mount || engineFenced s 10)
    && (cls != 1 || !s.journal.restoreDue || mount)
    && (j.desc.engine != 12 || j.desc.opcode != 1 || linkFreeSoon s j.desc)

/-- The job an engine takes next (R121). -/
def nextJob (s : State) (n : Nat) : Option Job :=
  firstBy (goesBefore s) (s.fabric.jobs.filter fun j => j.desc.engine == n && mayDispatch s j)

/-- The mark a dispatch leaves on a job: a STEP's class C source (R297), a FLOW's throttle request (R211). -/
def dispatchMark (s : State) (j : Job) : Bool :=
  if j.desc.engine = 7 && j.desc.opcode = 1 then metrologyDegraded s
  else if j.desc.engine = 5 && j.desc.opcode = 1 then s.lintel.gov.throttle
  else j.mark

/-- A job put on its engine. A job that its actor may not run ends REFUSED_ROLE there (R617). -/
def startJob (j : Job) (s : State) : State :=
  let s1 := modJob j.id (fun x =>
    { x with phase := .running, startedAt := s.time.ticks, mark := dispatchMark s j }) s
  let s2 := match j.desc.engine, freeContext s with
    | 0, some i => modMason (fun m => { m with ctxs := put m.ctxs i { busy := true, job := some j.id } }) s1
    | _, _ => s1
  if !jobActorOk j.desc j.actor then engineEnds j.id { status := .refusedRole } s2
  else if j.desc.engine = 13 then consentLock j s2
  else if j.desc.engine = 4 && j.desc.opcode = 1 then shotDispatch j s2
  else if j.desc.engine = 6 && j.desc.opcode = 1 then modTemp (fun t => { t with run := some (setRun j s) }) s2
  else s2

/-- The µs since a job became ready: the measured time, within the tick that its stamp leaves open (R120). -/
def delayUs (s : State) (j : Job) (waitUs : Nat) : Nat := boundUs (s.time.ticks - j.readyAt) waitUs

/-- JOB_DISPATCH: a free engine takes its next job, `waitUs` after it became ready, with the charge counted since the
last count. A job that names a fenced engine completes FENCED (R524). -/
def execJobDispatch (n waitUs : Nat) (c : Charge) (s : State) : Host.Outcome State Fault Refusal :=
  done (if !s.boot.running || s.faults.grave || !(engineFree s n || engineFenced s n) then s
  else match nextJob s n with
    | none => s
    | some j =>
      let s1 := takeCharge c s
      if engineFenced s n then completeWith j.id .fenced s1
      else startJob j (countDelay (classOfQueue j.queue) (delayUs s j waitUs) s1))

/-! ### Completion and timeouts (R109, R111, R115, R139) -/

/-- The watchdog of a job's class has run out (R109). -/
def watchdogRan (s : State) (j : Job) : Bool := passed s j.startedAt (watchdogTicks (classOfQueue j.queue))

/-- A dispatched job stopped by its watchdog: TIMEOUT, but for an ending that R20 puts first; the engine's result is
discarded (R109, R139). -/
def timeOutJob (j : Job) (s : State) : State :=
  completeJob j.id (j.endsWith .timeout) (dropJob j (j.endsWith .timeout).status s)

/-- JOB_COMPLETION: the record of a job that its engine has ended, with its releases and its chaining; a watchdog that has
run out by then ends it TIMEOUT (R139). -/
def execJobCompletion (tag : Nat) (c : Charge) (s : State) : Host.Outcome State Fault Refusal :=
  done (match jobByTag s tag with
  | none => s
  | some j =>
    match j.phase with
    | .ended r =>
      let s1 := takeCharge c s
      if watchdogRan s j then timeOutJob j s1 else
      let s2 := if j.desc.engine = 6 && j.desc.opcode = 1 && r.status.ok then publishTemp j s1
        else if j.desc.engine = 15 && j.desc.opcode = 1 && r.status.ok then pendRender r s1
        else if j.desc.engine = 8 && j.desc.opcode = 1 && r.status.ok then snapshotDone j r s1 else s1
      completeJob j.id r s2
    | _ => s)

/-- JOB_WATCHDOG_EXPIRY: a dispatched job has run for its class's watchdog; it ends TIMEOUT, whatever its engine has
brought in the same cycle (R109, R139). -/
def execJobWatchdogExpiry (tag : Nat) (s : State) : Host.Outcome State Fault Refusal :=
  done (match jobByTag s tag with
  | none => s
  | some j =>
    if j.onIt && watchdogRan s j then timeOutJob j s else s)

/-- HELD_JOB_TIMEOUT: a held job has not been released within four class watchdogs of its admission (R115). -/
def execHeldJobTimeout (tag : Nat) (s : State) : Host.Outcome State Fault Refusal :=
  done (match jobByTag s tag with
  | none => s
  | some j =>
    match j.phase with
    | .held _ =>
      if passed s j.admittedAt (4 * watchdogTicks (classOfQueue j.queue)) then completeJob j.id { status := .timeout } s
      else s
    | _ => s)

/-! ### Waiting and retries (R117 to R119, R135) -/

/-- WAITING_ADMISSION: a stalled descriptor enters a FIFO that has room, and the first waiting job that finds its tag and
granules is admitted (R117, R118, R135). -/
def execWaitingAdmission (s : State) : Host.Outcome State Fault Refusal :=
  done (if !s.boot.running || s.faults.grave then s else (admitNext s).1)

/-- FIFO_WAIT_EXPIRY: a C or H job has waited Q_WAIT_MS in its FIFO and ends DEFERRED (R119). -/
def execFifoWaitExpiry (q seq : Nat) (s : State) : Host.Outcome State Fault Refusal :=
  done (match s.fabric.jobs.find? (fun j => j.queue == q && j.phase == .waiting && j.seq.toNat == seq) with
  | none => s
  | some j =>
    if waitOver s j then
      endEarly j .deferred (beatOf s (classOfQueue q)) 1 s
    else s)

/-- AUTO_RETRY_RESUBMIT: a deferred AUTO_RETRY descriptor is submitted once more (R119). -/
def execAutoRetryResubmit (q : Nat) (s : State) : Host.Outcome State Fault Refusal :=
  done (match s.fabric.retries.find? (fun r => r.queue == q && decide (r.due ≤ s.time.ticks)) with
  | none => s
  | some r =>
    if s.boot.running && !s.faults.grave then
      submitJob r.actor q r.desc [] none true (modFabric (fun f => { f with retries := f.retries.erase r }) s)
    else s)

/-! ### Scrubber and triggers (R127, R140) -/

/-- GRANULE_ZEROED: the scrubber has zeroed a granule and read it back; bytes that do not read zero retire it and raise
SCRUB_FAIL (R127). -/
def execGranuleZeroed (g : Nat) (stuck : List (Nat × Byte)) (s : State) : Host.Outcome State Fault Refusal :=
  let bad := stuck.filter fun x => decide (x.1 < 512) && x.2 != 0
  done (if g < 192 && (nth s.fabric.grans g).scrubbing then
      let s1 := { s with sram := bad.foldl (fun m x => m.set 0 (g * 512 + x.1) x.2) (Mem.clear s.sram (g * 512) 512) }
      raiseIf (!bad.isEmpty) Src.scrubFail
        (modGran g (fun x => { x with scrubbing := false, secret := false, retired := !bad.isEmpty }) s1)
    else s)

/-- HW_TRIGGER: one of triggers 2 to 7 reaches its instant (R110, R140). -/
def execHwTrigger (n : Nat) (s : State) : Host.Outcome State Fault Refusal :=
  let t := at0 (items s).fabric.trig n
  done (if within 2 7 n && s.boot.running && !s.faults.grave && t.period != 0
      && counted s (nth s.fabric.trigLast n) t.period && !trigStalled s n && !trigHeld s
    then fireTrigger n t.period s else s)

/-! ### Mason events (R131, R619, R622) -/

/-- DT_BOUNDARY_EVENT: a second, minute, hour or day boundary of DT (kind 1 to 4). At an hour the unjournaled billing
slots are submitted again (R315). -/
def execDtBoundaryEvent (kind : Nat) (s : State) : Host.Outcome State Fault Refusal :=
  done (if within 1 4 kind && nth s.time.due (kind - 1) && s.boot.running then
      let s1 := masonEvent kind 0 0 (modTime (fun t => { t with due := put t.due (kind - 1) false }) s)
      if kind = 3 then journalSlots s1 else s1
    else s)

/-- The periods of a kind-10 entry already raised. -/
def firedOf (s : State) (i : Nat) : Nat := ((s.mason.timerFired.find? fun x => x.1 == i).map (·.2)).getD 0

/-- MASON_TIMER_EVENT: a kind-10 entry of the event table has counted its period (R140, R619). -/
def execMasonTimerEvent (i : Nat) (s : State) : Host.Outcome State Fault Refusal :=
  done (match (items s).mason.events[i]? with
  | none => s
  | some e =>
    let n := firedOf s i + 1
    if e.kind = 10 && e.arg ≠ 0 && s.mason.running && counted s s.mason.timerBase (n * e.arg) then
      let s1 := modMason (fun m => { m with timerFired := (i, n) :: m.timerFired.filter fun x => x.1 != i }) s
      if s1.mason.fifo.length < 32 then
        modMason (fun m => { m with fifo := m.fifo ++ [⟨10, 0, e.arg, e.recipe⟩] }) s1
      else raise Src.trigDrop (modMason (fun m => { m with drops := satInc m.drops }) s1)
    else s)

/-! ### Recipes (R95, R110, R118, R124, R131, R132, R620, R621) -/

/-- A context changed. -/
def modMCtx (i : Nat) (f : MContext → MContext) (s : State) : State :=
  modMason (fun m => { m with ctxs := upd m.ctxs i f }) s

/-- The entry that takes the first free context: the second-tick recipe before any other, then the oldest (R131); a
monthly billing point goes before an on-demand snapshot that is pending with it (R327). -/
def nextEntry (s : State) : Option TrigEntry :=
  match s.mason.fifo.find? fun e => e.kind == 1 with
  | some e => some e
  | none =>
    match s.mason.fifo.head? with
    | some e =>
      if e.kind = 9 ∧ e.param = 1 then (s.mason.fifo.find? fun x => x.kind == 5) <|> some e else some e
    | none => none

/-- RECIPE_START: a waiting entry finds a free context. -/
def execRecipeStart (s : State) : Host.Outcome State Fault Refusal :=
  done (if !coreFree s then s
  else match freeContext s, nextEntry s with
    | some i, some e =>
      modMCtx i (fun _ => { busy := true, kind := e.kind, recipe := e.recipe })
        (modMason (fun m => { m with fifo := m.fifo.erase e }) s)
    | _, _ => s)

/-- A context's job is stalled before a full M or B FIFO (R118). -/
def ctxStalled (s : State) (c : MContext) : Bool := s.fabric.stalled.any fun j => c.lastJob == some j.id

/-- A context runs a recipe and may take a step, but for a halt: no other context's or engine's lock stops it (R132). -/
def ctxMaySteps (s : State) (i : Nat) : Bool :=
  let c := nth s.mason.ctxs i
  s.mason.running && decide (i < 8) && c.busy && c.job.isNone && !ctxStalled s c
    && (s.mason.lock.isNone || c.lock.isSome)

/-- The core is not halted for a context: a halt that waits for a lock lets the locked sequence run on (R57, R585). -/
def notHalted (s : State) (i : Nat) : Bool :=
  (!s.mason.halted || s.mason.stepLock == some i)
    && !(s.probe.haltPending && (nth s.mason.ctxs i).lock.isNone)

/-- The step that a context executes next; none past its recipe's last. -/
def stepAt (s : State) (c : MContext) : Option MStep :=
  let m := (items s).mason
  match m.recipes[c.recipe]? with
  | some r => if c.pc < r.count then m.steps[r.first + c.pc]? else none
  | none => none

/-- The second recipe submits REFRESH in every REFRESH_S-th second of DT; its SUBMIT step passes over the others (R550; log
19, DESIGN CHOICE). -/
def refreshSkipped (i : Nat) (d : Desc) (s : State) : Bool :=
  (nth s.mason.ctxs i).kind == 1 && d.engine == 15 && d.opcode == 1
    && s.time.dt.toNat / 32768 % (items s).display.refreshS != 0

/-- A SUBMIT step: a template submitted as master 0x08 (R110). -/
def stepSubmit (i tpl q : Nat) (s : State) : State :=
  let d := Desc.ofWords (at0 (items s).mason.templates tpl)
  if refreshSkipped i d s then modMCtx i (fun c => { c with pc := c.pc + 1 }) s
  else submitJob ⟨8, 0⟩ q d [] (some i) false
    (modMCtx i (fun c => { c with pc := c.pc + 1, lastJob := some s.fabric.nextId, lastEnd := none }) s)

/-- A WAIT step: the context goes on once the job it submitted last has completed (R620). -/
def stepWait (i : Nat) (s : State) : State :=
  modMCtx i (fun c => match c.lastJob, c.lastEnd with
    | none, _ => { c with pc := c.pc + 1, waiting := false }
    | some _, some st => { c with pc := c.pc + 1, waiting := false, test := st.code }
    | some _, none => { c with waiting := true }) s

/-- An IFST step (R620). -/
def stepIfst (i status skip : Nat) (s : State) : State :=
  modMCtx i (fun c => { c with pc := c.pc + 1 + (if c.test = status then skip else 0) }) s

/-- A monthly recipe runs whose snapshot is not yet committed: an on-demand one leaves the billing commit to it first
(R327). -/
def monthlyFirst (i : Nat) (k : LockKind) (s : State) : Bool :=
  k == .billingCommit && (nth s.mason.ctxs i).kind == 9 && s.bill.due.isSome
    && s.mason.ctxs.toList.any fun c => c.busy && c.kind == 5

/-- A LOCK step, once no locked sequence is in progress (R132). -/
def stepLockTake (i : Nat) (k : LockKind) (s : State) : State :=
  if s.mason.lock.isSome || monthlyFirst i k s then s
  else modMason (fun m => { m with lock := some (k, s.time.ticks) })
    (modMCtx i (fun c => { c with pc := c.pc + 1, lock := some k }) s)

/-- A recipe's lock released, with its length (LOCK_US). -/
def releaseLock (i : Nat) (s : State) : State :=
  if (nth s.mason.ctxs i).lock.isNone then s
  else
    let since := (s.mason.lock.map (·.2)).getD s.time.ticks
    modMCtx i (fun c => { c with lock := none }) (modMason (fun m =>
      { m with lock := none, stepLock := none, lockUs := min ((s.time.ticks - since) * 15625 / 512) (2 ^ 24 - 1) }) s)

/-- An UNLOCK step. -/
def stepUnlock (i : Nat) (s : State) : State := modMCtx i (fun c => { c with pc := c.pc + 1 }) (releaseLock i s)

/-- A SETITEM step: one write by master 0x08, whose result an IFST may test (R124, R620). -/
def stepSetItem (i addr : Nat) (v : Word) (rivals : List (Nat × Nat)) (o : WriteObs) (s : State) : State :=
  let r := writeWord o ⟨8, rivals⟩ 0 addr v s
  modMCtx i (fun c => { c with pc := c.pc + 1, test := r.2.1.code }) r.1

/-- An END step: the lock is released, the context freed, and the tick recipe kicks the watchdog (R95, R621). -/
def stepEnd (i : Nat) (s : State) : State :=
  let s1 := releaseLock i s
  let s2 := if (nth s.mason.ctxs i).kind = 1 then modClock (fun c => { c with kickAt := s.time.ticks }) s1 else s1
  modMCtx i (fun _ => {}) s2

/-- One step of a context: every op of Table 3.6. -/
def runStep (i : Nat) (rivals : List (Nat × Nat)) (o : WriteObs) (s : State) : State :=
  match stepAt s (nth s.mason.ctxs i) with
  | some (.submit t q) => stepSubmit i t q s
  | some .wait => stepWait i s
  | some (.ifst st n) => stepIfst i st n s
  | some (.lock k) => stepLockTake i k s
  | some .unlock => stepUnlock i s
  | some (.setItem a v) => stepSetItem i a v rivals o s
  | some .stop => stepEnd i s
  | none => stepEnd i s

/-- A context's next step run where it is of the commanded kind. -/
def stepIf (i : Nat) (is : Option MStep → Bool) (rivals : List (Nat × Nat)) (o : WriteObs) (s : State) : State :=
  if ctxMaySteps s i && notHalted s i && is (stepAt s (nth s.mason.ctxs i)) then runStep i rivals o s else s

/-- RECIPE_SUBMIT: a SUBMIT step. -/
def execRecipeSubmit (i : Nat) (s : State) : Host.Outcome State Fault Refusal :=
  done (stepIf i (fun t => match t with
    | some (.submit _ _) => true
    | _ => false) [] {} s)

/-- RECIPE_WAIT: a WAIT step. -/
def execRecipeWait (i : Nat) (s : State) : Host.Outcome State Fault Refusal :=
  done (stepIf i (· == some .wait) [] {} s)

/-- RECIPE_IFST: an IFST step. -/
def execRecipeIfst (i : Nat) (s : State) : Host.Outcome State Fault Refusal :=
  done (stepIf i (fun t => match t with
    | some (.ifst _ _) => true
    | _ => false) [] {} s)

/-- RECIPE_LOCK: a LOCK step. -/
def execRecipeLock (i : Nat) (s : State) : Host.Outcome State Fault Refusal :=
  done (stepIf i (fun t => match t with
    | some (.lock _) => true
    | _ => false) [] {} s)

/-- RECIPE_UNLOCK: an UNLOCK step. -/
def execRecipeUnlock (i : Nat) (s : State) : Host.Outcome State Fault Refusal :=
  done (stepIf i (· == some .unlock) [] {} s)

/-- RECIPE_SETITEM: a SETITEM step, with the writes of the same cycle. -/
def execRecipeSetitem (i : Nat) (rivals : List (Nat × Nat)) (o : WriteObs) (s : State) :
    Host.Outcome State Fault Refusal :=
  done (stepIf i (fun t => match t with
    | some (.setItem _ _) => true
    | _ => false) rivals o s)

/-- RECIPE_END: an END step, or the end of a recipe's steps. -/
def execRecipeEnd (i : Nat) (s : State) : Host.Outcome State Fault Refusal :=
  done (stepIf i (fun t => t == some .stop || t == none) [] {} s)

/-! ### The bound of locked sequences (R132) -/

/-- The recipe that holds the lock ends, and its context is freed. -/
def endLockHolder (s : State) : State :=
  (List.range 8).foldl (fun t i =>
    if (nth t.mason.ctxs i).lock.isSome then modMCtx i (fun _ => {}) (releaseLock i t) else t) s

/-- A locked sequence that a recipe holds rolled back with a status: a billing commit that has not taken effect ends with
it. -/
def rollbackRecipeLock (st : Status) (s : State) : State :=
  stopJobs (fun j => j.desc.engine == 8 && j.desc.opcode == 1 && j.phase == .running) st s

/-- A locked sequence cut off with a status, where it is in progress (R58, R132, R349, R508). A reseat past its switch
point leaves the new configuration running, and ends with `after`. -/
def cutLocked (cut : LockCut) (o : FlashObs) (st after : Status) (s : State) : Option State :=
  match cut with
  | .held => if reseatLocked s then some (reseatCut st after o s) else match s.mason.lock with
    | some _ => some (if ownLock s .journalCommit then journalUnlock (journalRollback o st s)
        else endLockHolder (rollbackRecipeLock st s))
    | none => none
  | .consent tag => match ownLock s .consentCommit, runningJob s tag 13 0x14 with
    | true, some j =>
      let x := ConsentIn.ofBytes (inputBytes s j 0)
      some (engineEnds j.id { status := st } (auditConsent 8 j.actor (j.desc.arg 0) x.items x.digest st
        (unlockAs .consentCommit s)))
    | _, _ => none

/-- LOCK_OVERRUN: the locked sequence passes its bound of 5 ms, or a reseat that of 200 ms; it is rolled back and ends
TIMEOUT (a reseat's key-slot load alone where it is the load that is late), and the recipe that held it ends (R132, R349). -/
def execLockOverrun (o : FlashObs) (cut : LockCut) (s : State) : Host.Outcome State Fault Refusal :=
  let late := match cut, s.mason.lock with
    | .held, some (.reseat, _) => !reseatInTime s
    | .held, some (_, since) => passed s since (msTicks 5)
    | .held, none => false
    | .consent _, some (.consentCommit, since) => passed s since (msTicks 5)
    | .consent _, _ => false
  let load := cut == .held && reseatLocked s && reseatInTime s
  done (if !late then s
    else if load then raise Src.lockOverrun (abortLoads (modBoot (fun b =>
      { b with reload := b.reload.filter fun n => !(nth s.keys.slots n).loading }) s))
    else match cutLocked cut o .timeout .timeout s with
      | some t => raise Src.lockOverrun (journalResume (resumeSlots t))
      | none => s)

end Sys2Proof.Machine
end

