-- ==== Sys2Proof/Machine/Debug.lean ====
section
/-! DEFINITION. The debug port (R581 to R589): packets and replies, PEEK, POKE and POP, halt, step and freeze. -/

namespace Sys2Proof.Machine

/-! ### Packets (R581, Table 17.6) -/

/-- Reply codes. -/
inductive DbgCode where
  | accept | retry | busy | reject | denied
  deriving DecidableEq, Repr, Inhabited

/-- The code's four bits. -/
def DbgCode.num : DbgCode → Nat
  | .accept => 0x6 | .retry => 0x9 | .busy => 0xA | .reject => 0x5 | .denied => 0x3

/-- OP, TAG and ARG of a packet. -/
def dbgOp (p : List Byte) : Nat := leAt p 0 1 / 16
def dbgTag (p : List Byte) : Nat := leAt p 0 1 % 16
def dbgArg (p : List Byte) : Nat := leAt p 1 3

/-- The REPLY byte. -/
def dbgReplyByte (p : List Byte) (c : DbgCode) : Byte := BitVec.ofNat 8 (dbgTag p * 16 + c.num)

/-- A packet answered with a REPLY alone. -/
def dbgReply (p : List Byte) (c : DbgCode) (s : State) : State :=
  modProbe (fun d => { d with reply := [dbgReplyByte p c] }) s

/-- A packet accepted, with DATA and DCHK (R581 step 6). -/
def dbgData (p : List Byte) (v : Nat) (s : State) : State :=
  let b := dbgReplyByte p .accept :: bytesLE 4 v
  modProbe (fun d => { d with reply := b ++ [crc8 b] }) s

/-- DBG_LAST of a POKE, POP or control operation (R583). -/
def dbgLast (p : List Byte) (st : Status) (winner : Nat) (s : State) : State :=
  modProbe (fun d => { d with result := st.code, winner := winner, op := dbgOp p }) s

/-- DBG_PROTOCOL (Table 17.6, R583). -/
def dbgProtocolError (s : State) : State :=
  raiseBy Src.dbgProtocol ⟨2, 0, 0⟩ (modProbe (fun d => { d with protocol := satInc d.protocol }) s)

/-! ### Levels (R501, R582) -/

/-- An open debug session whose role holds DEBUG. -/
def dbgSession (s : State) : Bool :=
  (nth s.roles.sess 2).isOpen && hasRight s .debug (nth s.roles.sess 2).role

/-- The place is in IDENT or BOOT; it is one of the words of the authentication exchange. -/
def inIdentBoot (p : Place) : Bool :=
  match p with
  | .block .ident _ => true
  | .block .boot _ => true
  | _ => false
def inAuthWords (p : Place) : Bool :=
  match p with
  | .block .roles off => decide (off < 0x030)
  | _ => false

/-- The operations of Table 17.7. -/
def dbgKnown (op : Nat) : Bool := [1, 2, 3, 4, 8, 9, 0xA, 0xB].contains op

/-- Level and session allow an operation on an address (R582). In the grave state, which ends every session, PEEK needs
none: the port serves reads of IDENT, BOOT and the fault windows, and another register reads 0 (R527; log 32, DEDUCED). -/
def dbgMay (s : State) (op a : Nat) : Bool :=
  let lvl := debugLevel s
  let p := place a
  match op with
  | 1 => inIdentBoot p || (1 ≤ lvl && (inAuthWords p || s.faults.grave || dbgSession s))
  | 2 => 1 ≤ lvl && (inIdentBoot p || inAuthWords p || dbgSession s)
  | 3 => 1 ≤ lvl && dbgSession s
  | 4 => true
  | _ => 2 ≤ lvl && dbgSession s

/-- What the first REPLY refuses, in this order: CHK and OP, BUSY, DENIED, RETRY (log 32, DEDUCED). -/
def dbgStop (s : State) (p : List Byte) (staged : Bool) : Option DbgCode :=
  let op := dbgOp p
  if crc8 (p.take 4) != p.getD 4 0 || !dbgKnown op then some .reject
  else if decide (op ≤ 3) && busyAt s (place (dbgArg p)) then some .busy
  else if (op = 2 && s.faults.grave) || !dbgMay s op (dbgArg p) then some .denied
  else if (op = 1 || op = 3) && !staged then some .retry
  else none

/-- A packet of a row served. One that is not complete waits for the 64 µs idle, and no other can begin before it; a
packet of another row has no effect here. -/
def dbgServe (row : Bool) (p : List Byte) (staged : Bool) (f : State → State) (s : State) : State :=
  if !s.lintel.mainOn || s.probe.packet.isSome then s
  else if p.length < 5 then modProbe (fun d => { d with packet := some p }) s
  else match dbgStop s p staged with
    | some .reject => dbgReply p .reject (dbgProtocolError s)
    | some c =>
      if !row then s
      else dbgReply p c (if dbgOp p = 2 && s.faults.grave then dbgLast p .fenced 0 s else s)
    | none => if row then f (portRequest 2 s) else s

/-! ### PEEK, POKE, POP and STATUS (R583) -/

/-- DBG_PEEK. -/
def execDbgPeek (p : List Byte) (staged : Bool) (s : State) : Host.Outcome State Fault Refusal :=
  done (dbgServe (dbgOp p == 1) p staged (fun t => dbgData p (regWord t 2 (roleOf t 2) (dbgArg p)) t) s)

/-- The data phase of a POKE (R581 step 7). -/
def dbgPokeData (o : WriteObs) (rivals : List (Nat × Nat)) (p data : List Byte) (s : State) : State :=
  let r1 := dbgReplyByte p .accept
  if data.length < 5 then modProbe (fun d => { d with packet := some p, reply := [r1] }) s
  else if crc8 (p.take 4 ++ data.take 4) != data.getD 4 0 then
    modProbe (fun d => { d with reply := [r1, dbgReplyByte p .reject] })
      (dbgLast p .checkFailed 0 (dbgProtocolError s))
  else
    let r := writeWord o ⟨2, rivals⟩ (roleOf s 2) (dbgArg p) (BitVec.ofNat 32 (leAt data 0 4)) s
    modProbe (fun d => { d with reply := [r1, r1] }) (dbgLast p r.2.1 r.2.2 r.1)

/-- DBG_POKE: a write of rank 1, once its DCHK passes. -/
def execDbgPoke (p data : List Byte) (rivals : List (Nat × Nat)) (o : WriteObs) (s : State) :
    Host.Outcome State Fault Refusal :=
  done (dbgServe (dbgOp p == 2) p true (dbgPokeData o rivals p data) s)

/-- DBG_POP. `contended`: a service-port read stages the same word in this cycle, and the debug port wins (R590). -/
def execDbgPop (p : List Byte) (staged contended : Bool) (s : State) : Host.Outcome State Fault Refusal :=
  done (dbgServe (dbgOp p == 3) p staged (fun t =>
    let a := dbgArg p
    let v := regWord t 2 (roleOf t 2) a
    if isRs (place a) then dbgData p v (dbgLast p .done (if contended then 2 else 0) (rsEffect 2 (place a) t))
    else dbgData p v (dbgLast p .refusedPolicy 0 t)) s)

/-- DBG_STATUS. -/
def execDbgStatus (p : List Byte) (s : State) : Host.Outcome State Fault Refusal :=
  done (dbgServe (dbgOp p == 4) p true (fun t => dbgData p (readDebug t 0x000) t) s)

/-! ### Halt, step and freeze (R585 to R589) -/

/-- A control operation done: its REPLY, DBG_LAST and its audit record (R589). -/
def dbgControl (p : List Byte) (st : Status) (s : State) : State :=
  dbgReply p .accept (dbgLast p st 0 (audit {
    kind := 2, role := roleOf s 2, master := 2, item := (0x80 + dbgOp p) * 2 ^ 12, old := bytesLE 4 (dbgArg p)
    status := st.code } s))

/-- The core stops before its contexts' next steps, and the watchdog pauses (R585, R586). -/
def haltCore (s : State) : State :=
  modClock (fun c => { c with wdogPaused := true })
    (modProbe (fun d => { d with haltPending := false, halts := satInc d.halts })
      (modMason (fun m => { m with halted := true }) s))

/-- A halt without force: at once, or pending until unlock (R585). -/
def haltPlain (s : State) : State :=
  if s.mason.halted then s
  else if s.mason.lock.isSome then modProbe (fun d => { d with haltPending := true }) s
  else haltCore s

/-- DBG_HALT: HALT without FORCE. -/
def execDbgHalt (p : List Byte) (s : State) : Host.Outcome State Fault Refusal :=
  done (dbgServe (dbgOp p == 8 && !bit 0 (dbgArg p)) p true (fun t => dbgControl p .done (haltPlain t)) s)

/-- A forced halt (R585): the locked sequence that runs is rolled back, and ends ABORTED; with nothing locked it is a
plain halt. -/
def haltForced (cut : LockCut) (o : FlashObs) (s : State) : State :=
  match (if s.mason.halted then none else cutLocked cut o .aborted .done s) with
  | some t => haltCore (raise Src.forcedHalt (modProbe (fun d => { d with forced := satInc d.forced }) t))
  | none => haltPlain s

/-- DBG_HALT_FORCED: HALT with FORCE, once the flash operation in progress has ended. -/
def execDbgHaltForced (p : List Byte) (cut : LockCut) (o : FlashObs) (s : State) : Host.Outcome State Fault Refusal :=
  done (dbgServe (dbgOp p == 8 && bit 0 (dbgArg p)) p true (fun t => dbgControl p .done (haltForced cut o t)) s)

/-- HALT_PENDING_EFFECT: the sequence has unlocked, and the pending halt takes effect (R57, R585). -/
def execHaltPendingEffect (s : State) : Host.Outcome State Fault Refusal :=
  done (if s.probe.haltPending && s.mason.lock.isNone then haltCore s else s)

/-- DBG_RESUME: every context goes on where it stopped (R586). -/
def execDbgResume (p : List Byte) (s : State) : Host.Outcome State Fault Refusal :=
  done (dbgServe (dbgOp p == 9) p true (fun t =>
    dbgControl p .done (if t.mason.halted || t.probe.haltPending then resumeCore t else t)) s)

/-- A step of a context on a halted core (R587): its result. A LOCK step lets the context run on to its UNLOCK. -/
def stepContext (i : Nat) (rivals : List (Nat × Nat)) (o : WriteObs) (s : State) : State × Status :=
  let c := nth s.mason.ctxs i
  if !s.mason.halted || !c.busy || c.job.isSome then (s, .refusedPolicy)
  else if !ctxMaySteps s i then (s, .deferred)
  else match stepAt s c with
    | some .wait =>
      if c.lastJob.isSome && c.lastEnd.isNone then (s, .deferred) else (stepWait i s, .done)
    | some (.lock k) =>
      let t := stepLockTake i k s
      (modMason (fun m => { m with stepLock := if m.lock.isSome then some i else m.stepLock }) t, .done)
    | _ => (runStep i rivals o s, .done)

/-- DBG_STEP. -/
def execDbgStep (p : List Byte) (rivals : List (Nat × Nat)) (o : WriteObs) (s : State) : Host.Outcome State Fault Refusal :=
  done (dbgServe (dbgOp p == 0xA) p true (fun t =>
    let r := stepContext (dbgArg p % 8) rivals o t
    dbgControl p r.2 r.1) s)

/-- DBG_FREEZE: the dispatch of C and H jobs stops (R588). -/
def execDbgFreeze (p : List Byte) (s : State) : Host.Outcome State Fault Refusal :=
  done (dbgServe (dbgOp p == 0xB && bit 0 (dbgArg p)) p true (fun t =>
    dbgControl p .done (modFabric (fun f => { f with frozen := f.frozen <|> some t.time.ticks }) t)) s)

/-- DBG_THAW: a freeze ends. -/
def execDbgThaw (p : List Byte) (s : State) : Host.Outcome State Fault Refusal :=
  done (dbgServe (dbgOp p == 0xB && !bit 0 (dbgArg p)) p true (fun t =>
    dbgControl p .done (modFabric (fun f => { f with frozen := none }) t)) s)

/-- FREEZE_MAX_EXPIRY: a freeze has lasted FREEZE_MAX_S (R588). -/
def execFreezeMaxExpiry (s : State) : Host.Outcome State Fault Refusal :=
  done (match s.fabric.frozen with
  | some t => if passed s t (secTicks (items s).ports.freezeMaxS) then modFabric (fun f => { f with frozen := none }) s
    else s
  | none => s)

/-- DBG_IDLE_RESET: DCK has stayed low for more than 64 µs; what was received of a packet is thrown away (R581). -/
def execDbgIdleReset (s : State) : Host.Outcome State Fault Refusal :=
  done (modProbe (fun d => { d with packet := none }) s)

end Sys2Proof.Machine
end

