-- ==== Sys2Proof/Machine/Message.lean ====
section
/-! DEFINITION. The message protocol that the optical port and the radio commands share (R574 to R576, Table 17.4). -/

namespace Sys2Proof.Machine

/-- A request message, or a reply's fields: OP, TID, FL, the body, and CNT and TAG of a tagged one (R574). -/
structure Msg where
  op : Nat := 0
  tid : Byte := 0
  fl : Nat := 0
  body : List Byte := []
  cnt : Nat := 0
  tag : List Byte := []
  /-- The bytes up to the body's end. -/
  head : List Byte := []
  deriving DecidableEq, Repr, Inhabited

/-- A message is tagged. -/
def Msg.tagged (m : Msg) : Bool := bit 0 m.fl

/-- The message that bytes spell; none where they are too short for their flags. -/
def Msg.ofBytes (b : List Byte) : Option Msg :=
  let fl := leAt b 2 1
  let tail := if bit 0 fl then 12 else 0
  if b.length < 3 + tail then none
  else
    let n := b.length - tail
    some {
      op := leAt b 0 1, tid := b.getD 1 0, fl := fl, body := slice b 3 (n - 3), cnt := leAt b n 4
      tag := b.drop (n + 4), head := b.take n }

/-- What a message comes to: the STATUS byte and the reply body, and whether the reply waits for a challenge. -/
structure MsgAnswer where
  status : Nat := 0
  body : List Byte := []
  waits : Bool := false
  deriving DecidableEq, Repr, Inhabited

/-- A refusal by policy. -/
def MsgAnswer.refused : MsgAnswer := { status := 0x22 }

/-- The words that a message's bytes spell. -/
def wordsOf (n : Nat) (b : List Byte) : List Word := (List.range n).map fun i => BitVec.ofNat 32 (leAt b (4 * i) 4)

/-- The bytes of `n` words read in one cycle without a right asked for (IDENT and PAGE are public, Table 17.4). -/
def publicWords (master role a n : Nat) (s : State) : List Byte :=
  (frameAddrs a n).flatMap fun x => bytesLE 4 (regWord s master role x)

/-- READ (R575). -/
def msgRead (master role : Nat) (b : List Byte) (s : State) : State × MsgAnswer :=
  let n := leAt b 3 1
  if b.length ≠ 4 || !within 1 16 n then (s, .refused)
  else
    let r := readFrame master role (leAt b 0 3) n s
    (r.1, { status := r.2.status.code, body := r.2.readBytes })

/-- WRITE (R575, R572). -/
def msgWrite (o : WriteObs) (w : WriteCtx) (role : Nat) (b : List Byte) (s : State) : State × MsgAnswer :=
  let n := leAt b 3 1
  if b.length ≠ 4 + 4 * n || !within 1 16 n then (s, .refused)
  else
    let r := writeFrame o w role (leAt b 0 3) (wordsOf n (b.drop 4)) s
    (r.1, { status := r.2.status.code, body := r.2.writeBytes })

/-- SUBMIT (R575, R617): the eight descriptor words, and then the master's Q_SUBMIT. -/
def msgSubmit (w : WriteCtx) (role : Nat) (b : List Byte) (s : State) : State × MsgAnswer :=
  let q := leAt b 0 1
  if b.length ≠ 33 || 64 ≤ q then (s, .refused)
  else
    let r := writeFrame {} w role (0x6000 + q * 0x40) (wordsOf 8 (b.drop 1)) s
    let st := r.2.status.code
    (r.1, { status := st, body := bytesLE 4 (if st = 0 then regWord r.1 w.master role (0x6000 + q * 0x40 + 0x3C) else 0) })

/-- POLL (R575, R571): the oldest record of a queue, popped; zeros if there is none. -/
def msgPoll (master role : Nat) (b : List Byte) (s : State) : State × MsgAnswer :=
  let q := leAt b 0 1
  if b.length ≠ 1 || 64 ≤ q then (s, .refused)
  else
    let r := readFrame master role (0x6000 + q * 0x40 + 0x20) 4 s
    (r.1, { status := r.2.status.code, body := r.2.readBytes })

/-- GRANULE 1 to 3 (R573): GRAN_CTRL written for the master. -/
def msgGranCtl (w : WriteCtx) (role cmd g : Nat) (s : State) : State × MsgAnswer :=
  let r := writeFrame {} w role 0x30030 [BitVec.ofNat 32 (cmd + g * 2 ^ 8)] s
  let c := nth r.1.ports.granCtl w.master
  if r.2.status != .ok then (r.1, { status := r.2.status.code, body := [0xFF] })
  else match r.2.results with
    | [.done] => (r.1, { status := c.2.2, body := bytesLE 1 (if cmd = 3 then g else c.2.1) })
    | [st] => (r.1, { status := st.code, body := [0xFF] })
    | _ => (r.1, { status := 0x22, body := [0xFF] })

/-- Bytes written into a granule, with the audit record of each word touched (R498). -/
def granBytesWrite (a : Actor) (x : Nat) (data : List Byte) (s : State) : State :=
  let t := { s with sram := s.sram.write 0 x data }
  let first := x / 4
  let n := if data.isEmpty then 0 else (x + data.length - 1) / 4 - first + 1
  (List.range n).foldl (fun u i =>
    let k := 4 * (first + i)
    auditWrite a (0x8000 + k) (ofLE (s.sram.read 0 k 4)) (ofLE (t.sram.read 0 k 4)) .done u) t

/-- GRANULE 4 (R565, R573): data written into a granule that the master holds. -/
def msgGranWrite (a : Actor) (g off : Nat) (data : List Byte) (s : State) : State × MsgAnswer :=
  let out := fun (st : Nat) => ({ status := st, body := bytesLE 1 g } : MsgAnswer)
  if s.faults.grave then (s, out 0x40)
  else if !s.boot.running then (s, out 0xB0)
  else if 512 < off + data.length then (s, out 0x22)
  else if !(portGrans s a.master).contains g || !granAllowed s a.role g then
    (granRefused a.master 2 (0x8000 + (512 * g + off) / 4 * 4) s, out 0x22)
  else (granBytesWrite a (512 * g + off) data s, out 0)

/-- GRANULE (Table 17.4): CMD, GRANULE, OFFSET, LEN and LEN bytes of data. -/
def msgGranule (w : WriteCtx) (role : Nat) (b : List Byte) (s : State) : State × MsgAnswer :=
  let cmd := leAt b 0 1
  let g := leAt b 1 1
  let len := leAt b 4 1
  if b.length ≠ 5 + len then (s, .refused)
  else if within 1 3 cmd then msgGranCtl w role cmd g s
  else if cmd = 4 then msgGranWrite ⟨w.master, role⟩ g (leAt b 2 2) (b.drop 5) s
  else (s, .refused)

/-- PAGE (Table 17.4): DRIVE[0] to DRIVE[7]. -/
def msgPage (master role : Nat) (b : List Byte) (s : State) : State × MsgAnswer :=
  if b ≠ [] then (s, .refused)
  else if busyAt s (.block .lcd 0) then (s, { status := 0xB0, body := List.replicate 64 0 })
  else (s, { body := publicWords master role 0x2F040 16 s })

/-- AUTH (R488, R576): begin, finish and end on a port. -/
def msgAuth (master : Nat) (fi : Bool) (b : List Byte) (s : State) : State × MsgAnswer :=
  let sub := leAt b 0 1
  if busyAt s (.block .roles 0) && !s.boot.bare then (s, { status := 0xB0 })
  else if s.faults.grave || (winOf s .roles).fenced then (s, { status := 0x40 })
  else if sub = 0 && b.length = 10 then
    let r := authBegin master (leAt b 1 1) (slice b 2 8) none s
    let chal := (sessionOf master).bind fun i => (nth r.1.roles.sess i).chal
    match r.2.1, chal with
    | .done, some c => (r.1, { body := c.nc })
    | .done, none => (r.1, { waits := true })
    | st, _ => (r.1, { status := st.code })
  else if sub = 1 && b.length = 17 then
    let r := authFinish master (b.drop 1) fi s
    (r.1, { status := r.2.1.code, body := r.2.2 })
  else if sub = 2 && b.length = 1 then
    let r := sessionEnd master s
    (r.1, { status := r.2.code })
  else (s, .refused)

/-- RATE (R580): a rate agreed; an index above OPT_MAX_BD is refused. -/
def msgRate (b : List Byte) (s : State) : State × MsgAnswer :=
  let i := leAt b 0 1
  if b.length ≠ 1 || (items s).ports.optMaxBd < i then (s, .refused)
  else (modPorts (fun p => { p with newRate := some i, rateAt := none }) s, {})

/-- A request message served (Table 17.4). An operation that its port does not carry, an unknown one and one whose body
has another length complete REFUSED_POLICY (R575; log 31, DEDUCED). -/
def serveMessage (o : WriteObs) (w : WriteCtx) (role : Nat) (radio : Bool) (op : Nat) (b : List Byte) (s : State) :
    State × MsgAnswer :=
  match op with
  | 0x01 => if b = [] then (s, { body := publicWords w.master role 0 12 s }) else (s, .refused)
  | 0x02 => msgRead w.master role b s
  | 0x03 => msgWrite o w role b s
  | 0x04 => msgSubmit w role b s
  | 0x05 => msgPoll w.master role b s
  | 0x06 => msgGranule w role b s
  | 0x07 => if radio then (s, .refused) else msgPage w.master role b s
  | 0x08 => if radio then (s, .refused) else msgAuth w.master o.fi b s
  | 0x09 => if radio then (s, .refused) else msgRate b s
  | _ => (s, .refused)

/-- The bytes of a reply message up to its body's end (R574). -/
def replyHead (op : Nat) (tid : Byte) (tagged : Bool) (a : MsgAnswer) : List Byte :=
  bytesLE 1 (op ||| 0x80) ++ [tid] ++ bytesLE 1 (b2n tagged) ++ bytesLE 1 a.status ++ a.body

/-- A reply message, with CNT and TAG where its request was tagged (R577). -/
def replyBytes (op : Nat) (tid : Byte) (sec : Option (Nat × List Byte)) (a : MsgAnswer) : List Byte :=
  let h := replyHead op tid sec.isSome a
  match sec with
  | none => h
  | some (cnt, key) => h ++ bytesLE 4 cnt ++ (cmac key (asciiTag "YLOR" ++ bytesLE 4 cnt ++ h)).take 8

end Sys2Proof.Machine
end

