-- ==== Sys2Proof/Machine/Ports.lean ====
section
/-! DEFINITION. The service port's transactions (R566 to R572) and the optical port (R577 to R580). -/

namespace Sys2Proof.Machine

/-! ### Service port -/

/-- A response goes into the mirror: STATUS, payload and RCRC (R567, R570). -/
def spAnswer (st : PortStatus) (payload : List Byte) (s : State) : State :=
  let b := BitVec.ofNat 8 st.code :: payload
  modPorts (fun p => { p with mirror := b ++ [crc8 b], spLast := st.code, spActive := false }) s

/-- The response that the host can clock out of SP_DO: none where SP_EN = 0 keeps the ball high-impedance (R566, Table
17.8). -/
def spDo (s : State) : Option (List Byte) := if (items s).ports.spEn = 1 then some s.ports.mirror else none

/-- SP_CS falls: the transaction is counted at its end, and ACTIVE reads 1 while its request is served. -/
def spOpen (s : State) : State := modPorts (fun p => { p with spActive := true }) s

/-- The transaction is over, and counted (SP_FRAMES). -/
def spClose (s : State) : State := modPorts (fun p => { p with spFrames := p.spFrames + 1, spActive := false }) s

/-- A request whose check value fails: CHECK_FAILED, and nothing is done (R568). -/
def spCheckFailed (access addr : Nat) (payload : List Byte) (s : State) : State :=
  spAnswer .checkFailed payload
    (raiseBy Src.spCrcFail ⟨1, access, addr⟩ (modPorts (fun p => { p with spCrc := satInc p.spCrc }) s))

/-- A request that is malformed or cut off: nothing is done (R568). -/
def spFrameError (access addr : Nat) (s : State) : State :=
  raiseBy Src.spFrameError ⟨1, access, addr⟩ (modPorts (fun p => { p with spFrame := satInc p.spFrame, spActive := false }) s)

/-- The words of CMD (R567): their number, and whether bits [6:4] are 0. -/
def spWords (b : List Byte) : Nat := leAt b 0 1 % 16 + 1
def spCmdOk (b : List Byte) (write : Bool) : Bool := bits 6 4 (leAt b 0 1) == 0 && bit 7 (leAt b 0 1) == write

/-- The words of a read frame with their side effects, but for the words whose effect a debug POP takes in the same
cycle (R590). -/
def readWordsBut (popped : List Nat) (role : Nat) (addrs : List Nat) (s : State) : State × List Nat :=
  addrs.foldl (fun (acc : State × List Nat) a =>
    if popped.contains a then (acc.1, acc.2 ++ [regWord s 1 role a])
    else
      let r := readWord s 1 role a acc.1
      (r.1, acc.2 ++ [r.2])) (s, [])

/-- The read of a service-port transaction (R569 to R571). -/
def spServeRead (addr n : Nat) (popped : List Nat) (s : State) : State :=
  let role := roleOf s 1
  let addrs := frameAddrs addr n
  let s1 := portRequest 1 s
  match frameStop s1 1 role addrs false with
  | some st => spAnswer st (List.replicate (4 * n) 0) s1
  | none =>
    let r := readWordsBut popped role addrs s1
    spAnswer .ok (r.2.flatMap fun v => bytesLE 4 v) r.1

/-- SP_READ (R567, R568, R570, R571): the request's bytes, whether staging is complete at the mirror's edge, and the
words that a debug POP takes in the same cycle. -/
def execSpRead (b : List Byte) (ready : Bool) (popped : List Nat) (s : State) : Host.Outcome State Fault Refusal :=
  let addr := leAt b 1 3
  let n := spWords b
  done (if !s.lintel.mainOn then s
  else
    let s1 := spOpen s
    spClose (if b.length < 5 then spFrameError 1 addr s1
    else if crc8 (b.take 4) != b.getD 4 0 then spCheckFailed 1 addr (List.replicate (4 * n) 0) s1
    else if !spCmdOk b false then spFrameError 1 addr s1
    else if !ready then spAnswer .wait (List.replicate (4 * n) 0) s1
    else spServeRead addr n popped s1))

/-- The write of a service-port transaction (R569, R572), with SP_LAST_WRITE. -/
def spServeWrite (o : WriteObs) (rivals : List (Nat × Nat)) (addr : Nat) (vs : List Word) (ready : Bool) (s : State) :
    State :=
  let r := writeFrame o ⟨1, rivals⟩ (roleOf s 1) addr vs (portRequest 1 s)
  let t := if r.2.status = .ok ∨ r.2.status = .fenced then
      modPorts (fun p => { p with lwResult := r.2.summary.1, lwApplied := r.2.summary.2, lwWinner := r.2.winner }) r.1
    else r.1
  spAnswer (if ready then r.2.status else .wait) r.2.writeBytes t

/-- SP_WRITE (R567, R568, R572): the request's bytes and the writes of other masters in its cycles. A response clocked
before it is ready carries WAIT, and the write stands. -/
def execSpWrite (b : List Byte) (rivals : List (Nat × Nat)) (o : WriteObs) (ready : Bool) (s : State) :
    Host.Outcome State Fault Refusal :=
  let addr := leAt b 1 3
  let n := spWords b
  let data := slice b 5 (4 * n)
  done (if !s.lintel.mainOn then s
  else
    let s1 := spOpen s
    spClose (if b.length < 6 + 4 * n then spFrameError 2 addr s1
    else if crc8 (b.take 4) != b.getD 4 0 || crc8 data != b.getD (5 + 4 * n) 0 then
      spCheckFailed 2 addr (List.replicate (n + 1) 0) s1
    else if !spCmdOk b true then spFrameError 2 addr s1
    else spServeWrite o rivals addr (wordsOf n data) ready s1))

/-- SP_FRAME_ERROR: SP_CS rises before the request is complete; the bytes so far (R568). -/
def execSpFrameError (b : List Byte) (s : State) : Host.Outcome State Fault Refusal :=
  done (if s.lintel.mainOn then
      spClose (spFrameError (if bit 7 (leAt b 0 1) then 2 else 1) (leAt b 1 3) (spOpen s)) else s)

/-! ### Optical frames (R579) -/

/-- A frame: 0x59, 0xA7, LEN, the message, and the CRC-32 over LEN and the message. -/
def optFrame (msg : List Byte) : List Byte :=
  let b := bytesLE 1 msg.length ++ msg
  [0x59#8, 0xA7#8] ++ b ++ bytesLE 4 (crc32 b).toNat

/-- The message of a frame; none where its head, length or CRC-32 fails. -/
def optMessage (f : List Byte) : Option (List Byte) :=
  let n := leAt f 2 1
  let msg := slice f 3 n
  if within 3 255 n && f == optFrame msg then some msg else none

/-- A frame thrown away (R579). -/
def optBadFrame (s : State) : State :=
  raiseBy Src.optFrameError ⟨3, 0, 0⟩ (modPorts (fun p => { p with optFrame := satInc p.optFrame }) s)

/-- A request whose CNT or TAG fails: no reply (R577, R490). -/
def optBadTag (s : State) : State :=
  raiseBy Src.optTagFail ⟨3, 0, 0⟩ (modPorts (fun p => { p with optTag := satInc p.optTag }) s)

/-- The key of the open optical session, where its slot can be used. -/
def optKey (s : State) : Option (List Byte) :=
  if (nth s.roles.sess 1).isOpen && slotUsable s (sessionSlot 1) then some (nth s.keys.slots (sessionSlot 1)).key else none

/-- A tagged request passes (R577): a session is open, CNT exceeds the last, and TAG is right. -/
def optTagOk (s : State) (m : Msg) (key : List Byte) : Bool :=
  decide (s.ports.optCnt < m.cnt) && (cmac key (asciiTag "YLOP" ++ bytesLE 4 m.cnt ++ m.head)).take 8 == m.tag

/-- The reply kept until it may be sent, or the challenge it waits for. -/
def optReply (m : Msg) (sec : Option (Nat × List Byte)) (a : MsgAnswer) (s : State) : State :=
  if a.waits then modPorts (fun p => { p with reply := none, replyAuth := some ⟨m.tid, sec, s.time.ticks⟩ }) s
  else modPorts (fun p => { p with reply := some (optFrame (replyBytes m.op m.tid sec a), s.time.ticks), replyAuth := none }) s

/-- A request served under a role: master 0x03 (R575). A flag other than TAGGED is refused (R574). -/
def optServe (o : WriteObs) (rivals : List (Nat × Nat)) (role : Nat) (m : Msg) (sec : Option (Nat × List Byte))
    (s : State) : State :=
  let r := if 2 ≤ m.fl then (s, MsgAnswer.refused)
    else serveMessage o ⟨3, rivals⟩ role false m.op m.body (modPorts (fun p =>
      { p with access := put p.access 3 s.time.ticks }) s)
  optReply m sec r.2 r.1

/-- A message in a valid frame: tagged requests run under the session's role, untagged ones as public (R577). -/
def optRequest (o : WriteObs) (rivals : List (Nat × Nat)) (m : Msg) (s : State) : State :=
  if !m.tagged then optServe o rivals 4 m none s
  else match optKey s with
    | none => optBadTag s
    | some key =>
      if optTagOk s m key then
        optServe o rivals (roleOf s 3) m (some (m.cnt, key))
          (touchSession 3 (modPorts (fun p => { p with optCnt := m.cnt }) s))
      else optBadTag s

/-- The rows that messages have: the operations of Table 17.4, GRANULE by its CMD and AUTH by its SUB. -/
def hasRow (m : Msg) : Bool :=
  let x := leAt m.body 0 1
  if m.op = 6 then within 1 4 x else if m.op = 8 then decide (x ≤ 2) && !m.body.isEmpty else within 1 9 m.op

/-- The optical port listens (R580): in OPEN until OPT_IDLE_S have passed, in WAKE for 2 s after its first 5 ms. -/
def optHears (s : State) : Bool :=
  match s.ports.opt with
  | .sleep => false
  | .wake => passed s s.ports.optAt (msTicks 5) && !passed s s.ports.optAt (msTicks 2005)
  | .opened => !passed s s.ports.optAt (secTicks (items s).ports.optIdleS)

/-- A frame on the optical port. A valid one opens the port and starts its idle time again (R580); its message is taken
where it is of the commanded row, or of none (log 31, DEDUCED). -/
def optTake (row : Msg → Bool) (f : List Byte) (rivals : List (Nat × Nat)) (o : WriteObs) (s : State) : State :=
  if !s.boot.running || !optHears s then s
  else match optMessage f with
    | none => optBadFrame s
    | some msg =>
      let heard := modPorts (fun p => { p with opt := .opened, optAt := s.time.ticks, optRx := satInc p.optRx }) s
      match Msg.ofBytes msg with
      | none => optReply { op := leAt msg 0 1, tid := msg.getD 1 0 } none .refused heard
      | some m => if row m || !hasRow m then optRequest o rivals m heard else s

/-- The row of an operation, and of one with a first body byte. -/
def rowOf (op : Nat) (m : Msg) : Bool := m.op == op
def rowSub (op sub : Nat) (m : Msg) : Bool := m.op == op && leAt m.body 0 1 == sub

/-- MSG_IDENT. -/
def execMsgIdent (f : List Byte) (s : State) : Host.Outcome State Fault Refusal := done (optTake (rowOf 1) f [] {} s)

/-- MSG_READ. -/
def execMsgRead (f : List Byte) (s : State) : Host.Outcome State Fault Refusal := done (optTake (rowOf 2) f [] {} s)

/-- MSG_WRITE, with the writes of other masters in its cycles. -/
def execMsgWrite (f : List Byte) (rivals : List (Nat × Nat)) (o : WriteObs) (s : State) :
    Host.Outcome State Fault Refusal := done (optTake (rowOf 3) f rivals o s)

/-- MSG_SUBMIT. -/
def execMsgSubmit (f : List Byte) (s : State) : Host.Outcome State Fault Refusal := done (optTake (rowOf 4) f [] {} s)

/-- MSG_POLL. -/
def execMsgPoll (f : List Byte) (s : State) : Host.Outcome State Fault Refusal := done (optTake (rowOf 5) f [] {} s)

/-- MSG_GRANULE_ALLOC_C. -/
def execMsgGranuleAllocC (f : List Byte) (s : State) : Host.Outcome State Fault Refusal :=
  done (optTake (rowSub 6 1) f [] {} s)

/-- MSG_GRANULE_ALLOC_H. -/
def execMsgGranuleAllocH (f : List Byte) (s : State) : Host.Outcome State Fault Refusal :=
  done (optTake (rowSub 6 2) f [] {} s)

/-- MSG_GRANULE_FREE. -/
def execMsgGranuleFree (f : List Byte) (s : State) : Host.Outcome State Fault Refusal :=
  done (optTake (rowSub 6 3) f [] {} s)

/-- MSG_GRANULE_WRITE. -/
def execMsgGranuleWrite (f : List Byte) (s : State) : Host.Outcome State Fault Refusal :=
  done (optTake (rowSub 6 4) f [] {} s)

/-- MSG_PAGE. -/
def execMsgPage (f : List Byte) (s : State) : Host.Outcome State Fault Refusal := done (optTake (rowOf 7) f [] {} s)

/-- MSG_AUTH_BEGIN. -/
def execMsgAuthBegin (f : List Byte) (s : State) : Host.Outcome State Fault Refusal :=
  done (optTake (rowSub 8 0) f [] {} s)

/-- MSG_AUTH_FINISH. -/
def execMsgAuthFinish (f : List Byte) (s : State) : Host.Outcome State Fault Refusal :=
  done (optTake (rowSub 8 1) f [] {} s)

/-- MSG_AUTH_END. -/
def execMsgAuthEnd (f : List Byte) (s : State) : Host.Outcome State Fault Refusal :=
  done (optTake (rowSub 8 2) f [] {} s)

/-- MSG_RATE. -/
def execMsgRate (f : List Byte) (s : State) : Host.Outcome State Fault Refusal := done (optTake (rowOf 9) f [] {} s)

/-! ### Replies, rates and states (R579, R580) -/

/-- OPT_CHAR_GAP_TIMEOUT: more than 30 bit times between two characters of a frame. -/
def execOptCharGapTimeout (s : State) : Host.Outcome State Fault Refusal :=
  done (if s.boot.running && optHears s then optBadFrame s else s)

/-- The reply of an AUTH begin, once its challenge has come or its wait has ended (R472). -/
def authReply (s : State) : Option (List Byte × Nat) :=
  match s.ports.replyAuth with
  | none => none
  | some d =>
    let x := nth s.roles.sess 1
    let out := fun (a : MsgAnswer) => some (optFrame (replyBytes 8 d.tid d.sec a), d.at_)
    match x.want, x.chal with
    | some _, _ => none
    | none, some c => out { body := c.nc }
    | none, none => out .refused

/-- OPT_REPLY: the reply is sent 20 to 200 ms after its request (R579). A RATE reply starts the 50 ms of the switch. -/
def execOptReply (s : State) : Host.Outcome State Fault Refusal :=
  done (match s.ports.reply <|> authReply s with
  | none => s
  | some (f, t) =>
    if s.boot.running && passed s t (msTicks 20) && !passed s t (msTicks 200 + 1) then
      modPorts (fun p =>
        { p with
          optTx := satInc p.optTx, optSent := f, reply := none, replyAuth := none
          rateAt := if p.newRate.isSome && p.rateAt.isNone then some s.time.ticks else p.rateAt }) s
    else s)

/-- OPT_RATE_SWITCH: 50 ms after the RATE reply's end. -/
def execOptRateSwitch (s : State) : Host.Outcome State Fault Refusal :=
  done (match s.ports.newRate, s.ports.rateAt with
  | some r, some t =>
    if passed s t (msTicks 50) then modPorts (fun p => { p with rate := r, newRate := none, rateAt := none }) s else s
  | _, _ => s)

/-- OPT_WAKE_DETECT: OPT_RX has been lit for OPT_WAKE_MS without a break, all of them in SLEEP (R580; log 21). -/
def execOptWakeDetect (s : State) : Host.Outcome State Fault Refusal :=
  done (if s.boot.running && s.ports.opt == .sleep && (items s).ports.optOn == 1
      && passed s s.ports.optAt (msTicks (items s).ports.optWakeMs) then
      modPorts (fun p => { p with opt := .wake, optAt := s.time.ticks, optWakes := satInc p.optWakes }) s
    else s)

/-- The port returns to SLEEP: the rate drops to 300 Bd and the session ends (R580). -/
def optSleep (s : State) : State :=
  endSession 1 (modPorts (fun p =>
    { p with opt := .sleep, optAt := s.time.ticks, rate := 0, newRate := none, rateAt := none, reply := none, replyAuth := none }) s)

/-- OPT_WAKE_LISTEN_TIMEOUT: no valid frame in the 2 s that follow the first 5 ms of WAKE. -/
def execOptWakeListenTimeout (s : State) : Host.Outcome State Fault Refusal :=
  done (if s.ports.opt == .wake && passed s s.ports.optAt (msTicks 2005) then optSleep s else s)

/-- OPT_IDLE_TIMEOUT: OPT_IDLE_S without a valid frame. -/
def execOptIdleTimeout (s : State) : Host.Outcome State Fault Refusal :=
  done (if s.ports.opt == .opened && passed s s.ports.optAt (secTicks (items s).ports.optIdleS) then optSleep s else s)

end Sys2Proof.Machine
end

