-- ==== Sys2Proof/Machine/Telegram.lean ====
section
/-! DEFINITION. Telegrams built from their templates and the counters they take (R393 to R396), the held radio commands
(R437, R438, R446) and the answer to a window's command (R400). -/

namespace Sys2Proof.Machine

/-! ### WMB_BUILD (R393, R395, R396) -/

/-- The records of a template: header bytes and value, read in one cycle with the chip's rights (R393). -/
def tplBytes (s : State) (t : TplItem) : List Byte :=
  t.recs.flatMap fun r => r.head ++ (List.range (r.len / 4)).flatMap fun i => bytesLE 4 (regWord s 0x1B 0 (r.addr + 4 * i))

/-- The head of a template's telegram that takes a counter (R393, R395). -/
def tplHead (s : State) (t : TplItem) (txc : Nat) : TelegramHead :=
  let r := (items s).radio
  { format := t.format, cField := t.cField, ciField := t.ciField, slot := t.slot, profile := t.profile
    mField := r.mField, id := r.id, version := r.version, devType := r.devType
    access := BitVec.ofNat 8 txc, counter := if t.profile = 2 then some (BitVec.ofNat 32 txc) else none }

/-- The link-layer frame of a template with a counter and a payload (log 13, DESIGN CHOICE). -/
def tplFrame (s : State) (t : TplItem) (txc : Nat) (payload : List Byte) : List Byte :=
  Config.wmbFrame (tplHead s t txc) payload

/-- The next TXC of a slot can be taken: it is reserved. -/
def txcFree (s : State) (slot : Nat) : Bool := decide (nth s.radio.txc slot < nth s.radio.txcRes slot)

/-- TXC + 1 taken (R395); reaching 0xFFFF_FFFF raises CTR_EXHAUSTED (R396). -/
def takeTxc (slot : Nat) (s : State) : State :=
  let s1 := modRadio (fun r => { r with txc := upd r.txc slot fun n => if n < 2 ^ 32 - 1 then n + 1 else n }) s
  if nth s1.radio.txc slot = 2 ^ 32 - 1 then setLevel Src.ctrExhausted true s1 else s1

/-- The telegram of a template, and its TXC taken (R393, R395). -/
def telegramOf (tpl : Nat) (s : State) : List Byte × Nat × State :=
  let t := at0 (items s).radio.templates tpl
  let s1 := takeTxc t.slot s
  let txc := nth s1.radio.txc t.slot
  (tplFrame s1 t txc (tplBytes s t), txc, s1)

/-- The telegram of a template built for a BUILD, whose chain carries the template on (R394). -/
def buildNow (id tpl : Nat) (s : State) : State :=
  let x := telegramOf tpl s
  engineEnds id { result := x.2.1 % 2 ^ 20, out := x.1 }
    (modJob id (fun j => { j with tpl := some tpl }) (modRadio (fun r => { r with builtTpl := tpl }) x.2.2))

/-- A probe put into a context with its telegram (R381): a normal telegram of the template built last, under P (log 15,
DEDUCED). -/
def probeNow (id tpl : Nat) (s : State) : State :=
  let x := telegramOf tpl s
  enterCtx { job := id, kind := .probe, at_ := some s.time.ticks, len := sendLen s tpl 0, template := tpl
             slot := (at0 (items s).radio.templates tpl).slot, frame := x.1 } x.2.2

/-- A telegram that is to be built: a fenced journal refuses it (R396), an exhausted counter refuses a secured one, and one
whose counter stands at its reservation waits for a new one. -/
def buildFor (id tpl : Nat) (now : State → State) (s : State) : State :=
  let t := at0 (items s).radio.templates tpl
  let n := nth s.radio.txc t.slot
  if (winOf s .journal).fenced then engineEnds id { status := .refusedPolicy } (raise Src.ctrReserveFail s)
  else if n = 2 ^ 32 - 1 then
    let s1 := setLevel Src.ctrExhausted true s
    if t.profile = 0 then now s1 else engineEnds id { status := .refusedPolicy } s1
  else if txcFree s t.slot then now s
  else
    reserve 0x1B 1 t.slot (n + (items s).radio.ctrReserve) Src.ctrReserveFail
      (modRadio (fun r => { r with waitRes := r.waitRes ++ [(id, t.slot)] }) s)

/-- WMB_BUILD: a telegram from its template (Table 11.7). -/
def wmbBuildJob (j : Job) (s : State) : State :=
  let tpl := j.desc.arg 0 % 16
  if s.radio.waitRes.any (fun w => w.1 == j.id) then s
  else if (items s).radio.templates.length ≤ tpl then engineEnds j.id { status := .refusedPolicy } s
  else buildFor j.id tpl (buildNow j.id tpl) s

/-- WMB_BUILD: the running job of the tag has its effect. -/
def execWmbBuild (tag : Nat) (s : State) : Host.Outcome State Fault Refusal :=
  done (onJob tag 11 1 wmbBuildJob s)

/-- WATCH_PROBE (R381, R395): a normal telegram under P at the state-0 power, for its return loss. -/
def watchProbeJob (j : Job) (s : State) : State :=
  if (ctxOf s j.id).isSome || s.radio.waitRes.any (fun w => w.1 == j.id) then s
  else if !jobActorOk j.desc j.actor then engineEnds j.id { status := .refusedRole } s
  else buildFor j.id s.radio.builtTpl (probeNow j.id s.radio.builtTpl) s

/-- WATCH_PROBE: the running job of the tag has its effect. -/
def execWatchProbe (tag : Nat) (s : State) : Host.Outcome State Fault Refusal :=
  done (onJob tag 11 5 watchProbeJob s)

/-- CTR_RESERVE_COMMIT: a slot's reservation stands in the journal, and the telegram that waited for it is built. -/
def execCtrReserveCommit (s : State) : Host.Outcome State Fault Refusal :=
  done (match s.radio.waitRes.find? (fun w => txcFree s w.2) with
  | none => s
  | some w =>
    let s1 := modRadio (fun r => { r with waitRes := r.waitRes.erase w }) s
    match s.fabric.jobs.find? (fun j => j.id == w.1 && j.phase == .running) with
    | some j => if j.desc.opcode = 5 then probeNow j.id s.radio.builtTpl s1 else buildNow j.id (j.desc.arg 0 % 16) s1
    | none => s1)

/-! ### Held commands (R437, R438, R446) -/

/-- The items that a command's message writes: words of a WRITE, and of the granule of a GRANULE write or free
(R438; log 31, DEDUCED). -/
def writtenItems (m : Msg) : List Nat :=
  match m.op with
  | 3 => (frameAddrs (leAt m.body 0 3) (leAt m.body 3 1 % 17)).map (· / 4)
  | 6 =>
    let base := (0x8000 + 512 * leAt m.body 1 1) / 4
    let off := leAt m.body 2 2
    let len := leAt m.body 4 1
    match leAt m.body 0 1 with
    | 3 => (List.range 128).map (base + ·)
    | 4 => if len = 0 then [] else (List.range ((off + len - 1) / 4 - off / 4 + 1)).map fun i => base + off / 4 + i
    | _ => []
  | _ => []

/-- The items of a held command. -/
def heldItems (h : HeldCmd) : List Nat := ((Msg.ofBytes h.msg).map writtenItems).getD []

/-- Two held commands write a common item. -/
def heldClash (a b : HeldCmd) : Bool := (heldItems a).any fun x => (heldItems b).contains x

/-- The rank of a role among held commands: maker, operator, installer (R438). -/
def heldRank (role : Nat) : Nat := match role with
  | 3 => 0 | 1 => 1 | 2 => 2 | _ => 3

/-- A held command goes before another (R438): by role rank, then by arrival. -/
def heldBefore (a b : HeldCmd) : Bool :=
  decide (heldRank a.role < heldRank b.role) || (a.role == b.role && decide (a.at_ < b.at_))

/-- The first of a list of held commands in an order. -/
def heldFirst (before : HeldCmd → HeldCmd → Bool) (l : List HeldCmd) : Option HeldCmd :=
  l.foldl (fun (m : Option HeldCmd) x => match m with
    | none => some x
    | some y => if before x y then some x else some y) none

/-- The answer to a command kept for its way back: the telegram of R400, or an UPLINK message. -/
def keepAnswer (h : HeldCmd) (msg : List Byte) (job : Option (Nat × Nat)) (s : State) : State :=
  if h.master ≠ 5 then oweAnswer ⟨msg, job⟩ s
  else match h.job with
    | some id => modCtx id (fun c => { c with answer := msg, answerJob := job }) s
    | none => s

/-- A command that loses under R438: CONFLICT_LOST with the winner's master, none of its writes applied, each of them
recorded as lost (R498). -/
def loseCommand (h : HeldCmd) (winner : Nat) (s : State) : State :=
  let s1 := modRadio (fun r => { r with held := r.held.erase h }) s
  let s2 := modLink (fun l => { l with cmdConflict := satInc l.cmdConflict })
    (modFabric (fun f => { f with conflicts := satInc f.conflicts }) s1)
  keepAnswer h ({ status := .conflictLost, winner := winner, noTag := true } : Cpl).bytes none
    (auditRefused ⟨h.master, []⟩ h.role .conflictLost ((heldItems h).map (4 * ·)) s2)

/-- A command submitted under the role of its slot (R437, R485); its answer is a job's completion record, or the reply. -/
def submitCommand (o : WriteObs) (rivals : List (Nat × Nat)) (h : HeldCmd) (s : State) : State :=
  let s1 := modRadio (fun r => { r with held := r.held.erase h }) s
  match Msg.ofBytes h.msg with
  | none => keepAnswer h (replyBytes (leAt h.msg 0 1) (h.msg.getD 1 0) none .refused) none s1
  | some m =>
    if m.fl ≠ 0 then keepAnswer h (replyBytes m.op m.tid none .refused) none s1
    else
      let r := serveMessage o ⟨h.master, rivals⟩ h.role true m.op m.body s1
      if m.op = 4 && r.2.status = 0 then
        let q := leAt m.body 0 1
        keepAnswer h [] (some (q, (nth (nth r.1.fabric.queues q).submit h.master).1)) r.1
      else keepAnswer h (replyBytes m.op m.tid none r.2) none r.1

/-- COMMAND_HOLD_END (R437, R438, R446): the first hold that has ended, of those that ended together the one that arrived first.
The command is submitted, and those it beats lose; or one that it shares an item with beats it. -/
def execCommandHoldEnd (rivals : List (Nat × Nat)) (o : WriteObs) (s : State) : Host.Outcome State Fault Refusal :=
  let ended := s.radio.held.filter fun h => decide (h.until_ ≤ s.time.ticks)
  let soonest := ended.foldl (fun m h => min m h.until_) s.time.ticks
  done (if !s.lintel.mainOn then s
  else match heldFirst (fun a b => decide (a.at_ < b.at_)) (ended.filter fun h => h.until_ == soonest) with
    | none => s
    | some h =>
      let others := (s.radio.held.erase h).filter (heldClash h)
      match heldFirst heldBefore (others.filter fun x => heldBefore x h) with
      | some x => loseCommand h x.master s
      | none => submitCommand o rivals h (others.foldl (fun t x => loseCommand x h.master t) s))

/-! ### COMMAND_ANSWER (R400) -/

/-- What the answer carries: the completion record, zeros while there is none, or the reply of another message. -/
def answerBytes (s : State) (c : RadioCtx) : List Byte :=
  match c.answerJob with
  | some (q, n) => (recordOf s q n).getD (List.replicate 16 0)
  | none => c.answer

/-- COMMAND_ANSWER: RSP_DELAY_MS after the command frame, a telegram with the same template and slot starts; VBAT too low for
it ends the SEND BROWNOUT (R80). -/
def execCommandAnswer (s : State) : Host.Outcome State Fault Refusal :=
  done (match s.radio.ctxs.find? (fun c => c.answerAt.any fun t => decide (t ≤ s.time.ticks)) with
  | none => s
  | some c =>
    let r := (items s).radio
    let f := b2n c.profF
    let tpl := at0 r.templates c.template
    let len := sendLen s c.template f
    if !radioUp s || (airTaken s 1 len).isSome then s
    else if txLow s then failCtx c.job .brownout 0 s
    else if s.lintel.txHeld then s
    else if !txcFree s tpl.slot then
      if nth s.radio.txc tpl.slot = 2 ^ 32 - 1 then finishSend c.job (setLevel Src.ctrExhausted true s)
      else reserve 0x1B 1 tpl.slot (nth s.radio.txc tpl.slot + r.ctrReserve) Src.ctrReserveFail s
    else
      let s1 := takeTxc tpl.slot s
      let frame := tplFrame s1 tpl (nth s1.radio.txc tpl.slot) (answerBytes s c)
      let a : Activity := {
        kind := .answer, job := some c.job, port := r.portOf f, profF := c.profF, txp := r.drivePower s.radio.watch
        until_ := s.time.ticks + len }
      startAct { a with txp := cappedPower s (actBand s a) a.port a.txp }
        (modCtx c.job (fun x => { x with answerAt := none, answerJob := none, answer := [], frame := frame }) s1))

end Sys2Proof.Machine
end

