-- ==== Sys2Proof/Machine/Dispatch.lean ====
section
/-! DEFINITION. What each command does: one arm per row of the opcode table, each a direct call of its meaning. -/

namespace Sys2Proof.Machine

/-- The effect of a command on everything but the queue. -/
def exec (i : Instr) (s : State) : Host.Outcome State Fault Refusal :=
  match i with
  | .vbatFall mv => Sys2Proof.Machine.execVbatFall mv s
  | .vbatRise mv o => Sys2Proof.Machine.execVbatRise mv o s
  | .vioFall mv => Sys2Proof.Machine.execVioFall mv s
  | .resetNPulse us taken fall o => Sys2Proof.Machine.execResetNPulse us taken fall o s
  | .vaonSourceSwitch vbatMv vbakMv dipMv => Sys2Proof.Machine.execVaonSourceSwitch vbatMv vbakMv dipMv s
  | .vaonTouchesVret => Sys2Proof.Machine.execVaonTouchesVret s
  | .vbakLowChange mv => Sys2Proof.Machine.execVbakLowChange mv s
  | .vbatReversal mv => Sys2Proof.Machine.execVbatReversal mv s
  | .stageTimeout => Sys2Proof.Machine.execStageTimeout s
  | .watchdogExpiry fall o => Sys2Proof.Machine.execWatchdogExpiry fall o s
  | .xlFailDetect makeup => Sys2Proof.Machine.execXlFailDetect makeup s
  | .xlRetry ok ppm => Sys2Proof.Machine.execXlRetry ok ppm s
  | .xo39StartTimeout lateUs => Sys2Proof.Machine.execXo39StartTimeout lateUs s
  | .d04Tick => Sys2Proof.Machine.execD04Tick s
  | .timeSetRequest w key => Sys2Proof.Machine.execTimeSetRequest w key s
  | .timeAdjustRequest w key => Sys2Proof.Machine.execTimeAdjustRequest w key s
  | .timeSetApply => Sys2Proof.Machine.execTimeSetApply s
  | .vbatMeasure vbatMv vbakMv c => Sys2Proof.Machine.execVbatMeasure vbatMv vbakMv c s
  | .vbatRecovery mv => Sys2Proof.Machine.execVbatRecovery mv s
  | .txBrownout mv => Sys2Proof.Machine.execTxBrownout mv s
  | .flashBrownout mv => Sys2Proof.Machine.execFlashBrownout mv s
  | .governorDayRoll c => Sys2Proof.Machine.execGovernorDayRoll c s
  | .governorCatchup => Sys2Proof.Machine.execGovernorCatchup s
  | .imageLoadErase w copyB o => Sys2Proof.Machine.execImageLoadErase w copyB o s
  | .imageLoadProgram w copyB o => Sys2Proof.Machine.execImageLoadProgram w copyB o s
  | .imageLoadFinish w copyB o boot => Sys2Proof.Machine.execImageLoadFinish w copyB o boot s
  | .sealCommand w metro stuck => Sys2Proof.Machine.execSealCommand w metro stuck s
  | .stage tag mv => Sys2Proof.Machine.execStage tag mv s
  | .stageDeferredResume mv => Sys2Proof.Machine.execStageDeferredResume mv s
  | .reseatRequestGo w key => Sys2Proof.Machine.execReseatRequestGo w key s
  | .reseatJob ask => Sys2Proof.Machine.execReseatJob ask s
  | .activateDtReached => Sys2Proof.Machine.execActivateDtReached s
  | .reseatLock o dur => Sys2Proof.Machine.execReseatLock o dur s
  | .jobSubmit w q word7 => Sys2Proof.Machine.execJobSubmit w q word7 s
  | .waitingAdmission => Sys2Proof.Machine.execWaitingAdmission s
  | .fifoWaitExpiry q seq => Sys2Proof.Machine.execFifoWaitExpiry q seq s
  | .autoRetryResubmit q => Sys2Proof.Machine.execAutoRetryResubmit q s
  | .jobDispatch n waitUs c => Sys2Proof.Machine.execJobDispatch n waitUs c s
  | .jobCompletion tag c => Sys2Proof.Machine.execJobCompletion tag c s
  | .jobWatchdogExpiry tag => Sys2Proof.Machine.execJobWatchdogExpiry tag s
  | .heldJobTimeout tag => Sys2Proof.Machine.execHeldJobTimeout tag s
  | .granuleZeroed g stuck => Sys2Proof.Machine.execGranuleZeroed g stuck s
  | .completionPop q => Sys2Proof.Machine.execCompletionPop q s
  | .queueOverrunClear w q notifyEn => Sys2Proof.Machine.execQueueOverrunClear w q notifyEn s
  | .hwTrigger n => Sys2Proof.Machine.execHwTrigger n s
  | .dtBoundaryEvent kind => Sys2Proof.Machine.execDtBoundaryEvent kind s
  | .masonTimerEvent k => Sys2Proof.Machine.execMasonTimerEvent k s
  | .recipeStart => Sys2Proof.Machine.execRecipeStart s
  | .recipeSubmit k => Sys2Proof.Machine.execRecipeSubmit k s
  | .recipeWait k => Sys2Proof.Machine.execRecipeWait k s
  | .recipeIfst k => Sys2Proof.Machine.execRecipeIfst k s
  | .recipeLock k => Sys2Proof.Machine.execRecipeLock k s
  | .recipeUnlock k => Sys2Proof.Machine.execRecipeUnlock k s
  | .recipeSetitem k rivals o => Sys2Proof.Machine.execRecipeSetitem k rivals o s
  | .recipeEnd k => Sys2Proof.Machine.execRecipeEnd k s
  | .lockOverrun o cut => Sys2Proof.Machine.execLockOverrun o cut s
  | .shotTrigger => Sys2Proof.Machine.execShotTrigger s
  | .shotPair tag => Sys2Proof.Machine.execShotPair tag s
  | .shotDirection o => Sys2Proof.Machine.execShotDirection o s
  | .pumpSlow lines mv => Sys2Proof.Machine.execPumpSlow lines mv s
  | .pllLockTimeout lines mv => Sys2Proof.Machine.execPllLockTimeout lines mv s
  | .pllUnlockInWindow c => Sys2Proof.Machine.execPllUnlockInWindow c s
  | .echoWindowClose c => Sys2Proof.Machine.execEchoWindowClose c s
  | .noiseRetry => Sys2Proof.Machine.execNoiseRetry s
  | .flow tag => Sys2Proof.Machine.execFlow tag s
  | .plumbRequest tag => Sys2Proof.Machine.execPlumbRequest tag s
  | .orientCheck tag => Sys2Proof.Machine.execOrientCheck tag s
  | .lineCheck tag o => Sys2Proof.Machine.execLineCheck tag o s
  | .peakProbe tag o => Sys2Proof.Machine.execPeakProbe tag o s
  | .rawCapture tag => Sys2Proof.Machine.execRawCapture tag s
  | .calibrate tag taps escaped => Sys2Proof.Machine.execCalibrate tag taps escaped s
  | .density tag counts => Sys2Proof.Machine.execDensity tag counts s
  | .scaleMeasure count => Sys2Proof.Machine.execScaleMeasure count s
  | .scaleStale => Sys2Proof.Machine.execScaleStale s
  | .tempTrigger => Sys2Proof.Machine.execTempTrigger s
  | .tempSet tag => Sys2Proof.Machine.execTempSet tag s
  | .excSettleEnd => Sys2Proof.Machine.execExcSettleEnd s
  | .conversionEnd vin vref limit ua => Sys2Proof.Machine.execConversionEnd vin vref limit ua s
  | .chProbe tag => Sys2Proof.Machine.execChProbe tag s
  | .step tag => Sys2Proof.Machine.execStep tag s
  | .accReset tag => Sys2Proof.Machine.execAccReset tag s
  | .errorRun => Sys2Proof.Machine.execErrorRun s
  | .calendarEvaluate => Sys2Proof.Machine.execCalendarEvaluate s
  | .snapRequest tag => Sys2Proof.Machine.execSnapRequest tag s
  | .billCommit tag => Sys2Proof.Machine.execBillCommit tag s
  | .tarInChange run => Sys2Proof.Machine.execTarInChange run s
  | .tamperInputChange n level => Sys2Proof.Machine.execTamperInputChange n level s
  | .tamperDebounceEnd n => Sys2Proof.Machine.execTamperDebounceEnd n s
  | .pulseEdge n leading run => Sys2Proof.Machine.execPulseEdge n leading run s
  | .bypassWindow => Sys2Proof.Machine.execBypassWindow s
  | .tamperAck tag => Sys2Proof.Machine.execTamperAck tag s
  | .write tag mv => Sys2Proof.Machine.execWrite tag mv s
  | .flashOpReady o => Sys2Proof.Machine.execFlashOpReady o s
  | .commitSettleEnd mv => Sys2Proof.Machine.execCommitSettleEnd mv s
  | .brownoutRewrite mv => Sys2Proof.Machine.execBrownoutRewrite mv s
  | .flashBusyTimeout => Sys2Proof.Machine.execFlashBusyTimeout s
  | .flashIdlePowerDown => Sys2Proof.Machine.execFlashIdlePowerDown s
  | .read tag => Sys2Proof.Machine.execRead tag s
  | .rawRead tag => Sys2Proof.Machine.execRawRead tag s
  | .reclaim tag mv => Sys2Proof.Machine.execReclaim tag mv s
  | .relocate tag mv => Sys2Proof.Machine.execRelocate tag mv s
  | .journalRefresh tag mv => Sys2Proof.Machine.execJournalRefresh tag mv s
  | .mount tag mv ms => Sys2Proof.Machine.execMount tag mv ms s
  | .telegramDue => Sys2Proof.Machine.execTelegramDue s
  | .wmbBuild tag => Sys2Proof.Machine.execWmbBuild tag s
  | .ctrReserveCommit => Sys2Proof.Machine.execCtrReserveCommit s
  | .wmbSend tag => Sys2Proof.Machine.execWmbSend tag s
  | .jitterPoint tag => Sys2Proof.Machine.execJitterPoint tag s
  | .synthLock xo lateUs => Sys2Proof.Machine.execSynthLock xo lateUs s
  | .synthTimeout lateUs => Sys2Proof.Machine.execSynthTimeout lateUs s
  | .lockLostInFrame => Sys2Proof.Machine.execLockLostInFrame s
  | .lbtListenEnd rssi lateUs => Sys2Proof.Machine.execLbtListenEnd rssi lateUs s
  | .lbtBackoffEnd => Sys2Proof.Machine.execLbtBackoffEnd s
  | .sendRetry tag => Sys2Proof.Machine.execSendRetry tag s
  | .txEnd rl low airUs minMv => Sys2Proof.Machine.execTxEnd rl low airUs minMv s
  | .watchProbeDue => Sys2Proof.Machine.execWatchProbeDue s
  | .watchProbe tag => Sys2Proof.Machine.execWatchProbe tag s
  | .rfTest tag => Sys2Proof.Machine.execRfTest tag s
  | .slotTx tag => Sys2Proof.Machine.execSlotTx tag s
  | .slotRx tag => Sys2Proof.Machine.execSlotRx tag s
  | .rxInterferenceAbort => Sys2Proof.Machine.execRxInterferenceAbort s
  | .rxFrameEnd obs => Sys2Proof.Machine.execRxFrameEnd obs s
  | .rxWindowOpen => Sys2Proof.Machine.execRxWindowOpen s
  | .rxWindowClose => Sys2Proof.Machine.execRxWindowClose s
  | .commandHoldEnd rivals o => Sys2Proof.Machine.execCommandHoldEnd rivals o s
  | .commandAnswer => Sys2Proof.Machine.execCommandAnswer s
  | .sniff rssi rateOk => Sys2Proof.Machine.execSniff rssi rateOk s
  | .gyaleBeaconRx x ch => Sys2Proof.Machine.execGyaleBeaconRx x ch s
  | .gyaleConnReqRx x ch => Sys2Proof.Machine.execGyaleConnReqRx x ch s
  | .gyaleConnRspRx x => Sys2Proof.Machine.execGyaleConnRspRx x s
  | .gyaleDataRx x => Sys2Proof.Machine.execGyaleDataRx x s
  | .gyaleAckRx x => Sys2Proof.Machine.execGyaleAckRx x s
  | .gyaleFloodRx x => Sys2Proof.Machine.execGyaleFloodRx x s
  | .gyaleUplinkRx x => Sys2Proof.Machine.execGyaleUplinkRx x s
  | .gyaleTermRx x => Sys2Proof.Machine.execGyaleTermRx x s
  | .scanListen => Sys2Proof.Machine.execScanListen s
  | .connReqSend => Sys2Proof.Machine.execConnReqSend s
  | .connRspTimeout => Sys2Proof.Machine.execConnRspTimeout s
  | .beaconSend => Sys2Proof.Machine.execBeaconSend s
  | .connectionEvent c => Sys2Proof.Machine.execConnectionEvent c s
  | .eventAnswerTimeout c => Sys2Proof.Machine.execEventAnswerTimeout c s
  | .sleepySlot c => Sys2Proof.Machine.execSleepySlot c s
  | .guardListenTimeout c => Sys2Proof.Machine.execGuardListenTimeout c s
  | .supervisionTimeout c => Sys2Proof.Machine.execSupervisionTimeout c s
  | .relayForward => Sys2Proof.Machine.execRelayForward s
  | .reassemblyTimeout => Sys2Proof.Machine.execReassemblyTimeout s
  | .orphanTimeout => Sys2Proof.Machine.execOrphanTimeout s
  | .linkSend tag => Sys2Proof.Machine.execLinkSend tag s
  | .linkLeave tag => Sys2Proof.Machine.execLinkLeave tag s
  | .linkRescan tag => Sys2Proof.Machine.execLinkRescan tag s
  | .ccmSeal tag fi => Sys2Proof.Machine.execCcmSeal tag fi s
  | .ccmOpen tag fi => Sys2Proof.Machine.execCcmOpen tag fi s
  | .ctr tag fi => Sys2Proof.Machine.execCtr tag fi s
  | .cbcEnc tag fi => Sys2Proof.Machine.execCbcEnc tag fi s
  | .cbcDec tag fi => Sys2Proof.Machine.execCbcDec tag fi s
  | .cmacGen tag fi => Sys2Proof.Machine.execCmacGen tag fi s
  | .cmacVer tag fi => Sys2Proof.Machine.execCmacVer tag fi s
  | .zeroize tag ns repeats => Sys2Proof.Machine.execZeroize tag ns repeats s
  | .eraseCmd w key ns repeats => Sys2Proof.Machine.execEraseCmd w key ns repeats s
  | .alarm source ns repeats => Sys2Proof.Machine.execAlarm source ns repeats s
  | .eraseRepeat failing ns => Sys2Proof.Machine.execEraseRepeat failing ns s
  | .random tag => Sys2Proof.Machine.execRandom tag s
  | .rawSamples tag raw => Sys2Proof.Machine.execRawSamples tag raw s
  | .entropyWaitTimeout w => Sys2Proof.Machine.execEntropyWaitTimeout w s
  | .conditionedBlock raw => Sys2Proof.Machine.execConditionedBlock raw s
  | .startupTestPass raw => Sys2Proof.Machine.execStartupTestPass raw s
  | .healthTestFail raw => Sys2Proof.Machine.execHealthTestFail raw s
  | .maskStale => Sys2Proof.Machine.execMaskStale s
  | .authBegin via => Sys2Proof.Machine.execAuthBegin via s
  | .authFinish via => Sys2Proof.Machine.execAuthFinish via s
  | .sessionEnd via => Sys2Proof.Machine.execSessionEnd via s
  | .sessionIdleTimeout k => Sys2Proof.Machine.execSessionIdleTimeout k s
  | .sessionMaxTimeout k => Sys2Proof.Machine.execSessionMaxTimeout k s
  | .challengeExpiry k => Sys2Proof.Machine.execChallengeExpiry k s
  | .lockoutEnd => Sys2Proof.Machine.execLockoutEnd s
  | .consentPropose tag => Sys2Proof.Machine.execConsentPropose tag s
  | .consentSign tag => Sys2Proof.Machine.execConsentSign tag s
  | .consentWithdraw tag => Sys2Proof.Machine.execConsentWithdraw tag s
  | .consentSignExpiry e => Sys2Proof.Machine.execConsentSignExpiry e s
  | .consentUseExpiry e => Sys2Proof.Machine.execConsentUseExpiry e s
  | .debugHoursExpiry => Sys2Proof.Machine.execDebugHoursExpiry s
  | .faultStatusClear w b mask => Sys2Proof.Machine.execFaultStatusClear w b mask s
  | .faultForce w b forced => Sys2Proof.Machine.execFaultForce w b forced s
  | .aliveToggle => Sys2Proof.Machine.execAliveToggle s
  | .lcdFrameStart => Sys2Proof.Machine.execLcdFrameStart s
  | .displayRefresh tag => Sys2Proof.Machine.execDisplayRefresh tag s
  | .segCheck tag short => Sys2Proof.Machine.execSegCheck tag short s
  | .contrastUpdate tDie mv => Sys2Proof.Machine.execContrastUpdate tDie mv s
  | .vlcdRangeTimer mv => Sys2Proof.Machine.execVlcdRangeTimer mv s
  | .pageSelect w page hold => Sys2Proof.Machine.execPageSelect w page hold s
  | .pageHold w page hold => Sys2Proof.Machine.execPageHold w page hold s
  | .pageDwellEnd => Sys2Proof.Machine.execPageDwellEnd s
  | .holdTimeout => Sys2Proof.Machine.execHoldTimeout s
  | .spRead b ready popped => Sys2Proof.Machine.execSpRead b ready popped s
  | .spWrite b rivals o ready => Sys2Proof.Machine.execSpWrite b rivals o ready s
  | .spFrameError b => Sys2Proof.Machine.execSpFrameError b s
  | .registerWrite w addr v o => Sys2Proof.Machine.execRegisterWrite w addr v o s
  | .resetCauseRead => Sys2Proof.Machine.execResetCauseRead s
  | .latchedWordRead master addr => Sys2Proof.Machine.execLatchedWordRead master addr s
  | .granAllocC w => Sys2Proof.Machine.execGranAllocC w s
  | .granAllocH w => Sys2Proof.Machine.execGranAllocH w s
  | .granFree w g => Sys2Proof.Machine.execGranFree w g s
  | .portGranuleIdleFree master => Sys2Proof.Machine.execPortGranuleIdleFree master s
  | .msgIdent f => Sys2Proof.Machine.execMsgIdent f s
  | .msgRead f => Sys2Proof.Machine.execMsgRead f s
  | .msgWrite f rivals o => Sys2Proof.Machine.execMsgWrite f rivals o s
  | .msgSubmit f => Sys2Proof.Machine.execMsgSubmit f s
  | .msgPoll f => Sys2Proof.Machine.execMsgPoll f s
  | .msgGranuleAllocC f => Sys2Proof.Machine.execMsgGranuleAllocC f s
  | .msgGranuleAllocH f => Sys2Proof.Machine.execMsgGranuleAllocH f s
  | .msgGranuleFree f => Sys2Proof.Machine.execMsgGranuleFree f s
  | .msgGranuleWrite f => Sys2Proof.Machine.execMsgGranuleWrite f s
  | .msgPage f => Sys2Proof.Machine.execMsgPage f s
  | .msgAuthBegin f => Sys2Proof.Machine.execMsgAuthBegin f s
  | .msgAuthFinish f => Sys2Proof.Machine.execMsgAuthFinish f s
  | .msgAuthEnd f => Sys2Proof.Machine.execMsgAuthEnd f s
  | .msgRate f => Sys2Proof.Machine.execMsgRate f s
  | .optCharGapTimeout => Sys2Proof.Machine.execOptCharGapTimeout s
  | .optReply => Sys2Proof.Machine.execOptReply s
  | .optRateSwitch => Sys2Proof.Machine.execOptRateSwitch s
  | .optWakeDetect => Sys2Proof.Machine.execOptWakeDetect s
  | .optWakeListenTimeout => Sys2Proof.Machine.execOptWakeListenTimeout s
  | .optIdleTimeout => Sys2Proof.Machine.execOptIdleTimeout s
  | .dbgPeek p staged => Sys2Proof.Machine.execDbgPeek p staged s
  | .dbgPoke p data rivals o => Sys2Proof.Machine.execDbgPoke p data rivals o s
  | .dbgPop p staged contended => Sys2Proof.Machine.execDbgPop p staged contended s
  | .dbgStatus p => Sys2Proof.Machine.execDbgStatus p s
  | .dbgHalt p => Sys2Proof.Machine.execDbgHalt p s
  | .dbgHaltForced p cut o => Sys2Proof.Machine.execDbgHaltForced p cut o s
  | .haltPendingEffect => Sys2Proof.Machine.execHaltPendingEffect s
  | .dbgResume p => Sys2Proof.Machine.execDbgResume p s
  | .dbgStep p rivals o => Sys2Proof.Machine.execDbgStep p rivals o s
  | .dbgFreeze p => Sys2Proof.Machine.execDbgFreeze p s
  | .dbgThaw p => Sys2Proof.Machine.execDbgThaw p s
  | .freezeMaxExpiry => Sys2Proof.Machine.execFreezeMaxExpiry s
  | .dbgIdleReset => Sys2Proof.Machine.execDbgIdleReset s
  | .vioRise mv o => Sys2Proof.Machine.execVioRise mv o s
  | .vaonPowerOn => Sys2Proof.Machine.execVaonPowerOn s
  | .syncWordDetect => Sys2Proof.Machine.execSyncWordDetect s
  | .xo39RunOnExpiry => Sys2Proof.Machine.execXo39RunOnExpiry s
  | .testEnChange level runs => Sys2Proof.Machine.execTestEnChange level runs s
  | .clockMonitorFail d06 => Sys2Proof.Machine.execClockMonitorFail d06 s

end Sys2Proof.Machine
end

