-- ==== Sys2Proof/Laws/Mem.lean ====
section
/-! SUPPORT. Byte memory: what a write leaves elsewhere, and that every operation keeps the canonical form. -/

namespace Sys2Proof.Machine

/-- Every listed address lies above `k`. -/
def Mem.above (k : Nat) (m : Mem) : Bool := m.all fun c => decide (k < c.1)

theorem Mem.above_cons {k b : Nat} {w : Byte} {rest : Mem} :
    Mem.above k ((b, w) :: rest) = true ↔ k < b ∧ Mem.above k rest = true := by
  simp only [Mem.above, List.all_cons, Bool.and_eq_true, decide_eq_true_eq]

theorem Mem.above_set {k a : Nat} {d v : Byte} (m : Mem) (h : Mem.above k m = true) (ha : k < a) :
    Mem.above k (Mem.set d m a v) = true := by
  induction m with
  | nil => simp only [Mem.set]; split <;> simp [Mem.above, ha]
  | cons c rest ih =>
    obtain ⟨b, w⟩ := c
    obtain ⟨hb, hr⟩ := Mem.above_cons.mp h
    simp only [Mem.set]
    split
    · split
      · exact h
      · exact Mem.above_cons.mpr ⟨ha, h⟩
    · split
      · split
        · exact hr
        · exact Mem.above_cons.mpr ⟨ha, hr⟩
      · exact Mem.above_cons.mpr ⟨hb, ih hr⟩

theorem Mem.above_mono {j k : Nat} (m : Mem) (h : Mem.above k m = true) (hj : j ≤ k) : Mem.above j m = true := by
  simp only [Mem.above, List.all_eq_true, decide_eq_true_eq] at h ⊢
  exact fun c hc => Nat.lt_of_le_of_lt hj (h c hc)

/-- A canonical list is one whose head says something, lies below the rest, and whose rest is canonical. -/
theorem Mem.wf_cons {d w : Byte} {b : Nat} {rest : Mem} :
    Mem.wf d ((b, w) :: rest) = true ↔ w ≠ d ∧ Mem.above b rest = true ∧ Mem.wf d rest = true := by
  simp [Mem.wf, Mem.above, and_assoc]

theorem Mem.wf_set {d v : Byte} {a : Nat} (m : Mem) (h : Mem.wf d m = true) : Mem.wf d (Mem.set d m a v) = true := by
  induction m with
  | nil => simp only [Mem.set]; split <;> simp_all [Mem.wf]
  | cons c rest ih =>
    obtain ⟨b, w⟩ := c
    obtain ⟨hw, hb, hr⟩ := Mem.wf_cons.mp h
    simp only [Mem.set]
    split
    · rename_i hab
      split
      · exact h
      · rename_i hv
        refine Mem.wf_cons.mpr ⟨hv, ?_, h⟩
        exact Mem.above_cons.mpr ⟨hab, Mem.above_mono rest hb (Nat.le_of_lt hab)⟩
    · split
      · rename_i hab
        subst hab
        split
        · exact hr
        · rename_i hv
          exact Mem.wf_cons.mpr ⟨hv, hb, hr⟩
      · rename_i h1 h2
        exact Mem.wf_cons.mpr ⟨hw, Mem.above_set rest hb (by omega), ih hr⟩

theorem Mem.wf_write {d : Byte} (bs : List Byte) : ∀ (m : Mem) (a : Nat), Mem.wf d m = true →
    Mem.wf d (Mem.write d m a bs) = true := by
  induction bs with
  | nil => exact fun _ _ h => h
  | cons b rest ih => exact fun m a h => ih _ _ (Mem.wf_set m h)

theorem Mem.above_filter {k : Nat} {p : Host.Cell → Bool} (m : Mem) (h : Mem.above k m = true) :
    Mem.above k (m.filter p) = true := by
  simp only [Mem.above, List.all_eq_true] at h ⊢
  exact fun c hc => h c (List.mem_filter.mp hc).1

theorem Mem.wf_filter {d : Byte} {p : Host.Cell → Bool} (m : Mem) (h : Mem.wf d m = true) :
    Mem.wf d (m.filter p) = true := by
  induction m with
  | nil => rfl
  | cons c rest ih =>
    obtain ⟨b, w⟩ := c
    obtain ⟨hw, hb, hr⟩ := Mem.wf_cons.mp h
    simp only [List.filter]
    split
    · exact Mem.wf_cons.mpr ⟨hw, Mem.above_filter rest hb, ih hr⟩
    · exact ih hr

theorem Mem.wf_clear {d : Byte} {a k : Nat} (m : Mem) (h : Mem.wf d m = true) : Mem.wf d (Mem.clear m a k) = true :=
  Mem.wf_filter m h

theorem Mem.get_above {d : Byte} {k : Nat} (m : Mem) (h : Mem.above k m = true) : Mem.get d m k = d := by
  induction m with
  | nil => rfl
  | cons c rest ih =>
    obtain ⟨b, w⟩ := c
    simp only [Mem.above, List.all_cons, Bool.and_eq_true, decide_eq_true_eq] at h ih
    have hk : ¬ k = b := by omega
    simp [Mem.get, hk, ih h.2]

/-- Read after write, at the address written. -/
theorem Mem.get_set_same {d v : Byte} {a : Nat} (m : Mem) (h : Mem.wf d m = true) :
    Mem.get d (Mem.set d m a v) a = v := by
  induction m with
  | nil => simp only [Mem.set]; split <;> simp_all [Mem.get]
  | cons c rest ih =>
    obtain ⟨b, w⟩ := c
    obtain ⟨-, hb, hr⟩ := Mem.wf_cons.mp h
    simp only [Mem.set]
    split
    · rename_i hab
      split
      · rename_i hv
        have : ¬ a = b := by omega
        simp [Mem.get, this, Mem.get_above rest (Mem.above_mono rest hb (Nat.le_of_lt hab)), hv]
      · simp [Mem.get]
    · split
      · rename_i hab
        split
        · rename_i hv
          rw [hab, Mem.get_above rest hb, hv]
        · simp [Mem.get]
      · rename_i h2
        simp [Mem.get, h2, ih hr]

/-- Read after write, at every other address. -/
theorem Mem.get_set_ne {d v : Byte} {a b : Nat} (m : Mem) (hne : b ≠ a) :
    Mem.get d (Mem.set d m a v) b = Mem.get d m b := by
  induction m with
  | nil => simp only [Mem.set]; split <;> simp [Mem.get, hne]
  | cons c rest ih =>
    obtain ⟨e, w⟩ := c
    simp only [Mem.set]
    split
    · split <;> simp [Mem.get, hne]
    · split
      · rename_i hab
        subst hab
        split <;> simp [Mem.get, hne]
      · simp only [Mem.get]
        split
        · rfl
        · exact ih

/-- Read after write of a byte that an unlisted address does not read as, in canonical form or not. -/
theorem Mem.get_set_ne_default {d v : Byte} {a : Nat} (m : Mem) (hv : v ≠ d) : Mem.get d (Mem.set d m a v) a = v := by
  induction m with
  | nil => simp [Mem.set, hv, Mem.get]
  | cons c rest ih =>
    obtain ⟨b, w⟩ := c
    simp only [Mem.set]
    split
    · simp [Mem.get]
    · split
      · simp [Mem.get]
      · rename_i h2
        simp [Mem.get, h2, ih]

/-- A write that only adds bits leaves every bit that was 1. -/
theorem Mem.get_set_or {b : Byte} {a c i : Nat} (m : Mem) (h : (Mem.get 0 m c).getLsbD i = true) :
    (Mem.get 0 (Mem.set 0 m a (Mem.get 0 m a ||| b)) c).getLsbD i = true := by
  by_cases hc : c = a
  · subst hc
    by_cases hv : (Mem.get 0 m c ||| b) = 0
    · have : (Mem.get 0 m c ||| b).getLsbD i = true := by rw [BitVec.getLsbD_or, h, Bool.true_or]
      rw [hv] at this
      simp at this
    · rw [Mem.get_set_ne_default m hv, BitVec.getLsbD_or, h, Bool.true_or]
  · rw [Mem.get_set_ne m hc]
    exact h

end Sys2Proof.Machine
end

