-- ==== Sys2Proof/Laws/Kept.lean ====
section
/-! SUPPORT. What an effect keeps: the command queue, the canonical form of the memories, every programmed OTP bit, and, as
far as the caller asks for them, device time, the grave latch, the running image, RETLOST and the fences. One lemma per
operation says that it keeps them; the operations that change one of the five name it in a hypothesis. -/

namespace Sys2Proof.Machine

set_option linter.all false

/-- Which of the five are asked for: device time, the grave latch, the running image, RETLOST, the fences. -/
structure Guard where
  dt : Bool := false
  grave : Bool := false
  img : Bool := false
  lost : Bool := false
  fence : Bool := false
  deriving DecidableEq, Repr

/-- `s` keeps of `s0` what every command keeps, and what the guard asks for. -/
structure Kept (k : Guard) (s0 s : State) : Prop where
  pending : s.pending = s0.pending
  otp : ∀ a i, (s0.otp.get 0 a).getLsbD i = true → (s.otp.get 0 a).getLsbD i = true
  otpWf : Mem.wf 0 s0.otp = true → Mem.wf 0 s.otp = true
  crcWf : Mem.wf 0 s0.otpCrc = true → Mem.wf 0 s.otpCrc = true
  flashWf : Mem.wf 0xFF s0.flash = true → Mem.wf 0xFF s.flash = true
  sramWf : Mem.wf 0 s0.sram = true → Mem.wf 0 s.sram = true
  dt : k.dt = true → s.time.dt = s0.time.dt
  grave : k.grave = true → s0.faults.grave = true → s.faults.grave = true
  bare : (k.img || k.fence) = true → s0.boot.bare = false → s.boot.bare = false
  img : k.img = true → s0.boot.bare = false → s.boot.img = s0.boot.img
  lost : k.lost = true → s0.lintel.retlost = true → s.lintel.retlost = true
  fence : k.fence = true → s0.boot.bare = false → ∀ i, (nth s0.faults.win i).fenced = true → (nth s.faults.win i).fenced = true

variable {k : Guard} {s0 s : State}

theorem Kept.refl (k : Guard) (s : State) : Kept k s s :=
  ⟨rfl, fun _ _ h => h, id, id, id, id, fun _ => rfl, fun _ h => h, fun _ h => h, fun _ _ => rfl, fun _ h => h,
    fun _ _ _ h => h⟩

theorem Kept.trans {t : State} (h1 : Kept k s0 s) (h2 : Kept k s t) : Kept k s0 t where
  pending := h2.pending.trans h1.pending
  otp a i h := h2.otp a i (h1.otp a i h)
  otpWf h := h2.otpWf (h1.otpWf h)
  crcWf h := h2.crcWf (h1.crcWf h)
  flashWf h := h2.flashWf (h1.flashWf h)
  sramWf h := h2.sramWf (h1.sramWf h)
  dt h := (h2.dt h).trans (h1.dt h)
  grave g h := h2.grave g (h1.grave g h)
  bare g h := h2.bare g (h1.bare g h)
  img g h := (h2.img g (h1.bare (by simp [g]) h)).trans (h1.img g h)
  lost g h := h2.lost g (h1.lost g h)
  fence g b i h := h2.fence g (h1.bare (by simp [g]) b) i (h1.fence g b i h)

/-- A change that leaves the kept parts as they are. -/
theorem Kept.same {t : State} (h : Kept k s0 s) (h1 : t.pending = s.pending) (h2 : t.otp = s.otp)
    (h3 : t.otpCrc = s.otpCrc) (h4 : t.flash = s.flash) (h5 : t.sram = s.sram) (h6 : t.time.dt = s.time.dt)
    (h7 : t.faults.grave = s.faults.grave) (h8 : t.boot = s.boot)
    (h9 : t.lintel.retlost = s.lintel.retlost) (h10 : t.faults.win = s.faults.win) : Kept k s0 t where
  pending := h1.trans h.pending
  otp a i x := by rw [h2]; exact h.otp a i x
  otpWf x := by rw [h2]; exact h.otpWf x
  crcWf x := by rw [h3]; exact h.crcWf x
  flashWf x := by rw [h4]; exact h.flashWf x
  sramWf x := by rw [h5]; exact h.sramWf x
  dt x := h6.trans (h.dt x)
  grave g x := by rw [h7]; exact h.grave g x
  bare g x := by rw [h8]; exact h.bare g x
  img g x := by rw [h8]; exact h.img g x
  lost g x := by rw [h9]; exact h.lost g x
  fence g b i x := by rw [h10]; exact h.fence g b i x

/-- A change of the work SRAM that keeps its canonical form, beside parts that are not kept. -/
theorem Kept.sram_of {t : State} (h : Kept k s0 s) (h5 : Mem.wf 0 s.sram = true → Mem.wf 0 t.sram = true)
    (h1 : t.pending = s.pending) (h2 : t.otp = s.otp)
    (h3 : t.otpCrc = s.otpCrc) (h4 : t.flash = s.flash) (h6 : t.time.dt = s.time.dt)
    (h7 : t.faults.grave = s.faults.grave) (h8 : t.boot = s.boot)
    (h9 : t.lintel.retlost = s.lintel.retlost) (h10 : t.faults.win = s.faults.win) : Kept k s0 t :=
  let u := h.same (t := { t with sram := s.sram }) h1 h2 h3 h4 rfl h6 h7 h8 h9 h10
  ⟨u.pending, u.otp, u.otpWf, u.crcWf, u.flashWf, fun x => h5 (h.sramWf x), u.dt, u.grave, u.bare, u.img, u.lost, u.fence⟩

theorem Kept.flash_of {m : Mem} (h : Kept k s0 s) (h5 : Mem.wf 0xFF s.flash = true → Mem.wf 0xFF m = true) :
    Kept k s0 { s with flash := m } :=
  ⟨h.pending, h.otp, h.otpWf, h.crcWf, fun x => h5 (h.flashWf x), h.sramWf, h.dt, h.grave, h.bare, h.img, h.lost, h.fence⟩

theorem Kept.otp_of {m : Mem} (h : Kept k s0 s)
    (h1 : ∀ a i, (s.otp.get 0 a).getLsbD i = true → (m.get 0 a).getLsbD i = true)
    (h2 : Mem.wf 0 s.otp = true → Mem.wf 0 m = true) : Kept k s0 { s with otp := m } :=
  ⟨h.pending, fun a i x => h1 a i (h.otp a i x), fun x => h2 (h.otpWf x), h.crcWf, h.flashWf, h.sramWf, h.dt, h.grave,
    h.bare, h.img, h.lost, h.fence⟩

theorem Kept.crc_of {m : Mem} (h : Kept k s0 s) (h2 : Mem.wf 0 s.otpCrc = true → Mem.wf 0 m = true) :
    Kept k s0 { s with otpCrc := m } :=
  ⟨h.pending, h.otp, h.otpWf, fun x => h2 (h.crcWf x), h.flashWf, h.sramWf, h.dt, h.grave, h.bare, h.img, h.lost, h.fence⟩

theorem kept_ite {c : Prop} [Decidable c] {a b : State} (h1 : Kept k s0 a) (h2 : Kept k s0 b) :
    Kept k s0 (if c then a else b) := by split <;> assumption

theorem kept_foldl {α : Type} {f : State → α → State} {l : List α} (h : Kept k s0 s)
    (hf : ∀ t x, Kept k s0 t → Kept k s0 (f t x)) : Kept k s0 (l.foldl f s) := by
  induction l generalizing s with
  | nil => exact h
  | cons x rest ih => exact ih (hf s x h)

theorem kept_foldl_mem {α : Type} {f : State → α → State} {l : List α} (h : Kept k s0 s)
    (hf : ∀ t x, x ∈ l → Kept k s0 t → Kept k s0 (f t x)) : Kept k s0 (l.foldl f s) := by
  induction l generalizing s with
  | nil => exact h
  | cons x rest ih => exact ih (hf s x (by simp) h) fun t y hy => hf t y (by simp [hy])

theorem kept_foldl1 {α β : Type} {f : State × β → α → State × β} {l : List α} {p : State × β} (h : Kept k s0 p.1)
    (hf : ∀ t x, Kept k s0 t.1 → Kept k s0 (f t x).1) : Kept k s0 (l.foldl f p).1 := by
  induction l generalizing p with
  | nil => exact h
  | cons x rest ih => exact ih (hf p x h)

theorem kept_foldl2 {α β : Type} {f : β × State → α → β × State} {l : List α} {p : β × State} (h : Kept k s0 p.2)
    (hf : ∀ t x, Kept k s0 t.2 → Kept k s0 (f t x).2) : Kept k s0 (l.foldl f p).2 := by
  induction l generalizing p with
  | nil => exact h
  | cons x rest ih => exact ih (hf p x h)

theorem kept_id (h : Kept k s0 s) : Kept k s0 (id s) := h

theorem kept_getD {o : Option State} (h1 : ∀ t, o = some t → Kept k s0 t) (h2 : Kept k s0 s) :
    Kept k s0 (o.getD s) := by
  cases o
  · exact h2
  · exact h1 _ rfl

theorem Kept.of_fst {β : Type} {p : State × β} {t : State} {b : β} (e : p = (t, b)) (h : Kept k s0 p.1) :
    Kept k s0 t := by subst e; exact h

theorem Kept.of_snd {β : Type} {p : β × State} {t : State} {b : β} (e : p = (b, t)) (h : Kept k s0 p.2) :
    Kept k s0 t := by subst e; exact h

theorem Kept.of_eq {t u : State} (e : u = t) (h : Kept k s0 u) : Kept k s0 t := e ▸ h

theorem modClock_kept {f : Clock → Clock} (h : Kept k s0 s) : Kept k s0 (modClock f s) :=
  h.same rfl rfl rfl rfl rfl rfl rfl rfl rfl rfl

theorem modFabric_kept {f : Fabric → Fabric} (h : Kept k s0 s) : Kept k s0 (modFabric f s) :=
  h.same rfl rfl rfl rfl rfl rfl rfl rfl rfl rfl

theorem modMason_kept {f : Mason → Mason} (h : Kept k s0 s) : Kept k s0 (modMason f s) :=
  h.same rfl rfl rfl rfl rfl rfl rfl rfl rfl rfl

theorem modFront_kept {f : Front → Front} (h : Kept k s0 s) : Kept k s0 (modFront f s) :=
  h.same rfl rfl rfl rfl rfl rfl rfl rfl rfl rfl

theorem modScribe_kept {f : Scribe → Scribe} (h : Kept k s0 s) : Kept k s0 (modScribe f s) :=
  h.same rfl rfl rfl rfl rfl rfl rfl rfl rfl rfl

theorem modFtu_kept {f : Ftu → Ftu} (h : Kept k s0 s) : Kept k s0 (modFtu f s) :=
  h.same rfl rfl rfl rfl rfl rfl rfl rfl rfl rfl

theorem modShot_kept {f : Shot → Shot} (h : Kept k s0 s) : Kept k s0 (modShot f s) :=
  h.same rfl rfl rfl rfl rfl rfl rfl rfl rfl rfl

theorem modTemp_kept {f : Temp → Temp} (h : Kept k s0 s) : Kept k s0 (modTemp f s) :=
  h.same rfl rfl rfl rfl rfl rfl rfl rfl rfl rfl

theorem modInteg_kept {f : Integ → Integ} (h : Kept k s0 s) : Kept k s0 (modInteg f s) :=
  h.same rfl rfl rfl rfl rfl rfl rfl rfl rfl rfl

theorem modBill_kept {f : Bill → Bill} (h : Kept k s0 s) : Kept k s0 (modBill f s) :=
  h.same rfl rfl rfl rfl rfl rfl rfl rfl rfl rfl

theorem modTamper_kept {f : Tamper → Tamper} (h : Kept k s0 s) : Kept k s0 (modTamper f s) :=
  h.same rfl rfl rfl rfl rfl rfl rfl rfl rfl rfl

theorem modJournal_kept {f : Journal → Journal} (h : Kept k s0 s) : Kept k s0 (modJournal f s) :=
  h.same rfl rfl rfl rfl rfl rfl rfl rfl rfl rfl

theorem modRadio_kept {f : Radio → Radio} (h : Kept k s0 s) : Kept k s0 (modRadio f s) :=
  h.same rfl rfl rfl rfl rfl rfl rfl rfl rfl rfl

theorem modLink_kept {f : Link → Link} (h : Kept k s0 s) : Kept k s0 (modLink f s) :=
  h.same rfl rfl rfl rfl rfl rfl rfl rfl rfl rfl

theorem modCipher_kept {f : CipherSt → CipherSt} (h : Kept k s0 s) : Kept k s0 (modCipher f s) :=
  h.same rfl rfl rfl rfl rfl rfl rfl rfl rfl rfl

theorem modKeys_kept {f : Keys → Keys} (h : Kept k s0 s) : Kept k s0 (modKeys f s) :=
  h.same rfl rfl rfl rfl rfl rfl rfl rfl rfl rfl

theorem modRoles_kept {f : Roles → Roles} (h : Kept k s0 s) : Kept k s0 (modRoles f s) :=
  h.same rfl rfl rfl rfl rfl rfl rfl rfl rfl rfl

theorem modEntropy_kept {f : Entropy → Entropy} (h : Kept k s0 s) : Kept k s0 (modEntropy f s) :=
  h.same rfl rfl rfl rfl rfl rfl rfl rfl rfl rfl

theorem modLcd_kept {f : Lcd → Lcd} (h : Kept k s0 s) : Kept k s0 (modLcd f s) :=
  h.same rfl rfl rfl rfl rfl rfl rfl rfl rfl rfl

theorem modPorts_kept {f : Ports → Ports} (h : Kept k s0 s) : Kept k s0 (modPorts f s) :=
  h.same rfl rfl rfl rfl rfl rfl rfl rfl rfl rfl

theorem modProbe_kept {f : Debug → Debug} (h : Kept k s0 s) : Kept k s0 (modProbe f s) :=
  h.same rfl rfl rfl rfl rfl rfl rfl rfl rfl rfl

theorem modTime_kept {f : TimeState → TimeState} (hf : ∀ x, (f x).dt = x.dt) (h : Kept k s0 s) :
    Kept k s0 (modTime f s) :=
  h.same rfl rfl rfl rfl rfl (hf _) rfl rfl rfl rfl

theorem modTime_kept_dt {f : TimeState → TimeState} (hk : k.dt = false) (h : Kept k s0 s) : Kept k s0 (modTime f s) :=
  ⟨h.pending, h.otp, h.otpWf, h.crcWf, h.flashWf, h.sramWf, fun x => by simp [hk] at x, h.grave, h.bare, h.img, h.lost, h.fence⟩

theorem modBoot_kept {f : Boot → Boot} (hf : ∀ x, (f x).img = x.img) (hb : ∀ x, x.bare = false → (f x).bare = false)
    (h : Kept k s0 s) : Kept k s0 (modBoot f s) :=
  ⟨h.pending, h.otp, h.otpWf, h.crcWf, h.flashWf, h.sramWf, h.dt, h.grave, fun g x => hb _ (h.bare g x),
    fun g x => (hf _).trans (h.img g x), h.lost, h.fence⟩

theorem modBoot_kept_img {f : Boot → Boot} (hk : k.img = false) (hb : ∀ x, x.bare = false → (f x).bare = false)
    (h : Kept k s0 s) : Kept k s0 (modBoot f s) :=
  ⟨h.pending, h.otp, h.otpWf, h.crcWf, h.flashWf, h.sramWf, h.dt, h.grave, fun g x => hb _ (h.bare g x),
    fun x => by simp [hk] at x, h.lost, h.fence⟩

theorem modBoot_kept_bare {f : Boot → Boot} (hk : k.img = false) (hf : k.fence = false) (h : Kept k s0 s) :
    Kept k s0 (modBoot f s) :=
  ⟨h.pending, h.otp, h.otpWf, h.crcWf, h.flashWf, h.sramWf, h.dt, h.grave, fun x => by simp [hk, hf] at x,
    fun x => by simp [hk] at x, h.lost, fun x => by simp [hf] at x⟩

/-- From the bare state on, the image and the fences are not asked for. -/
theorem Kept.of_bare {t : State} (h : Kept k s0 s) (hb : s.boot.bare = true)
    (h' : Kept { k with img := false, fence := false } s0 t) : Kept k s0 t :=
  ⟨h'.pending, h'.otp, h'.otpWf, h'.crcWf, h'.flashWf, h'.sramWf, h'.dt, h'.grave,
    fun g x => absurd (h.bare g x) (by simp [hb]), fun g x => absurd (h.bare (by simp [g]) x) (by simp [hb]), h'.lost,
    fun g x => absurd (h.bare (by simp [g]) x) (by simp [hb])⟩

theorem Kept.weaken (h : Kept k s0 s) : Kept { k with img := false, fence := false } s0 s :=
  ⟨h.pending, h.otp, h.otpWf, h.crcWf, h.flashWf, h.sramWf, h.dt, h.grave, fun g => by simp at g, fun g => by simp at g,
    h.lost, fun g => by simp at g⟩

theorem modLintel_kept {f : Lintel → Lintel} (hf : ∀ x, x.retlost = true → (f x).retlost = true) (h : Kept k s0 s) :
    Kept k s0 (modLintel f s) :=
  ⟨h.pending, h.otp, h.otpWf, h.crcWf, h.flashWf, h.sramWf, h.dt, h.grave, h.bare, h.img, fun g x => hf _ (h.lost g x), h.fence⟩

theorem modLintel_kept_lost {f : Lintel → Lintel} (hk : k.lost = false) (h : Kept k s0 s) :
    Kept k s0 (modLintel f s) :=
  ⟨h.pending, h.otp, h.otpWf, h.crcWf, h.flashWf, h.sramWf, h.dt, h.grave, h.bare, h.img, fun x => by simp [hk] at x, h.fence⟩

theorem modGov_kept {f : Governor → Governor} (h : Kept k s0 s) : Kept k s0 (modGov f s) :=
  modLintel_kept (fun _ x => x) h

theorem modFaults_kept {f : Faults → Faults} (hg : ∀ x, x.grave = true → (f x).grave = true)
    (hw : ∀ x, (f x).win = x.win) (h : Kept k s0 s) : Kept k s0 (modFaults f s) :=
  ⟨h.pending, h.otp, h.otpWf, h.crcWf, h.flashWf, h.sramWf, h.dt, fun g x => hg _ (h.grave g x), h.bare, h.img, h.lost,
    fun g b i x => by simpa [modFaults, hw] using h.fence g b i x⟩

theorem nth_upd_keeps {n : Nat} (v : Vector FaultWin n) (i j : Nat) (f : FaultWin → FaultWin)
    (hf : ∀ w, w.fenced = true → (f w).fenced = true) (h : (nth v j).fenced = true) :
    (nth (upd v i f) j).fenced = true := by
  unfold upd
  split
  · rename_i hi
    unfold nth at *
    rw [Vector.getElem?_set]
    split
    · rename_i hij
      subst hij
      simp only [hi, Vector.getElem?_eq_getElem, Option.getD_some] at h
      simpa using hf _ h
    · exact h
  · exact h

theorem modWin_kept {b : Block} {f : FaultWin → FaultWin} (hf : ∀ w, w.fenced = true → (f w).fenced = true)
    (h : Kept k s0 s) : Kept k s0 (modWin b f s) :=
  ⟨h.pending, h.otp, h.otpWf, h.crcWf, h.flashWf, h.sramWf, h.dt, h.grave, h.bare, h.img, h.lost,
    fun g b i x => nth_upd_keeps _ _ _ _ hf (h.fence g b i x)⟩

theorem drew_kept {n : Nat} (h : Kept k s0 s) : Kept k s0 (drew n s) :=
  h.same rfl rfl rfl rfl rfl rfl rfl rfl rfl rfl

theorem kept_faultsR {F : Faults} (hg : s.faults.grave = true → F.grave = true) (hw : F.win = s.faults.win)
    (h : Kept k s0 s) : Kept k s0 { s with faults := F } :=
  ⟨h.pending, h.otp, h.otpWf, h.crcWf, h.flashWf, h.sramWf, h.dt, fun g x => hg (h.grave g x), h.bare, h.img, h.lost,
    fun g b i x => by rw [hw]; exact h.fence g b i x⟩

theorem kept_faultsF {F : Faults} (hk : k.fence = false) (hg : s.faults.grave = true → F.grave = true)
    (h : Kept k s0 s) : Kept k s0 { s with faults := F } :=
  ⟨h.pending, h.otp, h.otpWf, h.crcWf, h.flashWf, h.sramWf, h.dt, fun g x => hg (h.grave g x), h.bare, h.img, h.lost,
    fun g => by simp [hk] at g⟩

theorem kept_sramR {m : Mem} (hm : Mem.wf 0 s.sram = true → Mem.wf 0 m = true) (h : Kept k s0 s) :
    Kept k s0 { s with sram := m } :=
  ⟨h.pending, h.otp, h.otpWf, h.crcWf, h.flashWf, fun x => hm (h.sramWf x), h.dt, h.grave, h.bare, h.img, h.lost, h.fence⟩

theorem kept_flashR {m : Mem} (hm : Mem.wf 0xFF s.flash = true → Mem.wf 0xFF m = true) (h : Kept k s0 s) :
    Kept k s0 { s with flash := m } :=
  h.flash_of hm

theorem kept_drawsR {n : Nat} (h : Kept k s0 s) : Kept k s0 { s with draws := n } :=
  h.same rfl rfl rfl rfl rfl rfl rfl rfl rfl rfl

theorem wf_setAll {d : Byte} {l : List (Nat × Byte)} {b : Nat} (m : Mem) (h : Mem.wf d m = true) :
    Mem.wf d (l.foldl (fun m x => m.set d (b + x.1) x.2) m) = true := by
  induction l generalizing m with
  | nil => exact h
  | cons x rest ih => exact ih _ (Mem.wf_set m h)

end Sys2Proof.Machine
end

