-- ==== Sys2Proof/Laws/KeptFabric.lean ====
section
/-! SUPPORT. What each operation of the fabric, the journal pages and the end of a command keeps. -/

namespace Sys2Proof.Machine

set_option linter.all false

theorem capture_fenced {s : State} {src : FaultSrc} {c : Cause} {dt : DWord} {w : FaultWin} :
    (capture s src c dt w).fenced = w.fenced := by
  unfold capture
  split <;> rfl

theorem raiseAt_kept {k : Guard} {s0 : State} {src : FaultSrc} {c : Cause} {dt : DWord} {s : State}
    (hs : Kept k s0 s) : Kept k s0 (raiseAt src c dt s) := by
  unfold raiseAt
  split
  · exact modWin_kept (fun _ h => h) hs
  · exact kept_faultsR (fun h => h) rfl (modWin_kept (fun _ h => capture_fenced.trans h) hs)

theorem raiseBy_kept {k : Guard} {s0 : State} {src : FaultSrc} {c : Cause} {s : State}
    (hs : Kept k s0 s) : Kept k s0 (raiseBy src c s) := by
  unfold raiseBy
  refine kept_ite (raiseAt_kept hs) (kept_ite hs ?_)
  exact kept_faultsR (fun h => h) rfl hs

theorem raise_kept {kg : Guard} {sk : State} {src : FaultSrc} {s : State} (hs : Kept kg sk s) : Kept kg sk
    (raise src s) := by
  unfold raise
  repeat' (with_reducible first | assumption | refine raiseBy_kept ?_ | dsimp only)

theorem raiseIf_kept {kg : Guard} {sk : State} {b : Bool} {src : FaultSrc} {s : State} (hs : Kept kg sk s) : Kept kg
    sk (raiseIf b src s) := by
  unfold raiseIf
  repeat' (with_reducible first | assumption | refine kept_ite ?_ ?_ | refine raise_kept ?_ | split | dsimp only)

theorem lower_kept {k : Guard} {s0 : State} {src : FaultSrc} {s : State} (hs : Kept k s0 s) :
    Kept k s0 (lower src s) := by
  unfold lower
  refine kept_ite ?_ hs
  exact kept_faultsR (fun h => h) rfl (modWin_kept (fun _ h => h) hs)

theorem setLevel_kept {kg : Guard} {sk : State} {src : FaultSrc} {holds : Bool} {s : State} (hs : Kept kg sk s) :
    Kept kg sk (setLevel src holds s) := by
  unfold setLevel
  repeat' (with_reducible first
    | assumption | refine kept_ite ?_ ?_ | refine modWin_kept (fun _ h => h) ?_ | refine raise_kept ?_
    | refine lower_kept ?_ | intro _ | split | dsimp only)

theorem pinSource_kept {kg : Guard} {sk : State} {src : FaultSrc} {s : State} (hs : Kept kg sk s) : Kept kg sk
    (pinSource src s) := by
  unfold pinSource
  repeat' (with_reducible first | assumption | refine modWin_kept (fun _ h => h) ?_ | intro _ | split | dsimp only)

theorem clearStatus_kept {kg : Guard} {sk : State} {b : Block} {mask : Nat} {s : State} (hs : Kept kg sk s) : Kept kg
    sk (clearStatus b mask s) := by
  unfold clearStatus
  repeat' (with_reducible first
    | assumption | refine kept_ite ?_ ?_ | refine lower_kept ?_
    | refine modWin_kept (by first | exact fun _ => rfl | exact fun _ h => h | exact fun h => h | (intro _; intros; split <;> first | rfl | assumption) | (intro _; intros; first | rfl | assumption)) ?_
    | refine kept_foldl ?_ ?_ | refine kept_foldl1 ?_ ?_ | refine kept_foldl2 ?_ ?_ | intro _ | split | dsimp only)

theorem resetWindows_kept {k : Guard} {s0 s : State} (hkfence : k.fence = false) (hs : Kept k s0 s) :
    Kept k s0 (resetWindows s) :=
  kept_faultsF hkfence (fun h => h) hs

theorem modQueue_kept {kg : Guard} {sk : State} {q : Nat} {f : QueueSt → QueueSt} {s : State} (hs : Kept kg sk s) :
    Kept kg sk (modQueue q f s) := by
  unfold modQueue
  repeat' (with_reducible first | assumption | refine modFabric_kept ?_ | intro _ | split | dsimp only)

theorem modGran_kept {kg : Guard} {sk : State} {g : Nat} {f : Granule → Granule} {s : State} (hs : Kept kg sk s) :
    Kept kg sk (modGran g f s) := by
  unfold modGran
  repeat' (with_reducible first | assumption | refine modFabric_kept ?_ | intro _ | split | dsimp only)

theorem modJob_kept {kg : Guard} {sk : State} {id : Nat} {f : Job → Job} {s : State} (hs : Kept kg sk s) : Kept kg sk
    (modJob id f s) := by
  unfold modJob
  repeat' (with_reducible first
    | assumption | refine kept_ite ?_ ?_ | refine modFabric_kept ?_ | refine kept_id ?_ | intro _ | split
    | dsimp only)

theorem andThen_kept {k : Guard} {s0 : State} {r : Reaction} {s : State} (hs : Kept k s0 s) :
    Kept k s0 (andThen r s) :=
  kept_faultsR (fun h => h) rfl hs

theorem masonEvent_kept {kg : Guard} {sk : State} {kind : Nat} {param : Nat} {arg : Nat} {s : State}
    (hs : Kept kg sk s) : Kept kg sk (masonEvent kind param arg s) := by
  unfold masonEvent
  repeat' (with_reducible first | assumption | refine andThen_kept ?_ | dsimp only)

theorem onJob_kept {k : Guard} {s0 s : State} {tag e o : Nat} {f : Job → State → State}
    (hf : ∀ j t, Kept k s0 t → Kept k s0 (f j t)) (hs : Kept k s0 s) : Kept k s0 (onJob tag e o f s) := by
  unfold onJob
  split
  · exact hs
  · exact hf _ _ hs

theorem freeGran_kept {kg : Guard} {sk : State} {g : Nat} {s : State} (hs : Kept kg sk s) : Kept kg sk (freeGran g s)
    := by
  unfold freeGran
  repeat' (with_reducible first
    | assumption | refine kept_ite ?_ ?_ | refine modGran_kept ?_ | intro _ | split | dsimp only)

theorem releaseGran_kept {kg : Guard} {sk : State} {g : Nat} {s : State} (hs : Kept kg sk s) : Kept kg sk
    (releaseGran g s) := by
  unfold releaseGran
  repeat' (with_reducible first | assumption | refine kept_ite ?_ ?_ | refine freeGran_kept ?_ | split | dsimp only)

theorem releaseGrans_kept {kg : Guard} {sk : State} {gs : List Nat} {s : State} (hs : Kept kg sk s) : Kept kg sk
    (releaseGrans gs s) := by
  unfold releaseGrans
  repeat' (with_reducible first
    | assumption | refine releaseGran_kept ?_ | refine kept_foldl ?_ ?_ | refine kept_foldl1 ?_ ?_
    | refine kept_foldl2 ?_ ?_ | intro _ | split | dsimp only)

theorem unlend_kept {kg : Guard} {sk : State} {gs : List Nat} {s : State} (hs : Kept kg sk s) : Kept kg sk
    (unlend gs s) := by
  unfold unlend
  repeat' (with_reducible first
    | assumption | refine modGran_kept ?_ | refine kept_foldl ?_ ?_ | refine kept_foldl1 ?_ ?_
    | refine kept_foldl2 ?_ ?_ | intro _ | split | dsimp only)

theorem fillGrans_kept {k : Guard} {s0 : State} {gs : List Nat} {bs : List Byte} {s : State} (hs : Kept k s0 s) :
    Kept k s0 (fillGrans gs bs s) :=
  kept_foldl hs fun _ _ h => kept_sramR (Mem.wf_write _ _ _) h

theorem linkGrans_kept {kg : Guard} {sk : State} {gs : List Nat} {s : State} (hs : Kept kg sk s) : Kept kg sk
    (linkGrans gs s) := by
  unfold linkGrans
  repeat' (with_reducible first
    | assumption | refine modGran_kept ?_ | refine kept_getD ?_ ?_ | refine kept_foldl ?_ ?_
    | refine kept_foldl1 ?_ ?_ | refine kept_foldl2 ?_ ?_ | intro _ | split | dsimp only)

theorem pushRing_kept {kg : Guard} {sk : State} {c : Cpl} {s : State} (hs : Kept kg sk s) : Kept kg sk (pushRing c s)
    := by
  unfold pushRing
  repeat' (with_reducible first
    | assumption | refine kept_ite ?_ ?_ | refine modQueue_kept ?_ | refine raise_kept ?_
    | refine releaseGrans_kept ?_ | refine modFabric_kept ?_ | refine masonEvent_kept ?_ | refine kept_getD ?_ ?_
    | intro _ | split | dsimp only)

theorem popRing_kept {kg : Guard} {sk : State} {q : Nat} {s : State} (hs : Kept kg sk s) : Kept kg sk (popRing q s)
    := by
  unfold popRing
  repeat' (with_reducible first
    | assumption | refine releaseGrans_kept ?_ | refine modQueue_kept ?_ | intro _ | split
    | refine Kept.of_fst (by assumption) ?_ | refine Kept.of_snd (by assumption) ?_ | dsimp only)

theorem auditJob_kept {kg : Guard} {sk : State} {a : Actor} {q : Nat} {d : Desc} {c : Cpl} {s : State}
    (hs : Kept kg sk s) : Kept kg sk (auditJob a q d c s) := by
  unfold auditJob
  repeat' (with_reducible first
    | assumption | refine kept_ite ?_ ?_ | refine andThen_kept ?_ | intro _ | split | dsimp only)

theorem countEnding_kept {k : Guard} {s0 : State} {cls : Nat} {st : Status} {s : State} (hs : Kept k s0 s) :
    Kept k s0 (countEnding cls st s) := by
  unfold countEnding
  exact modGov_kept (modFabric_kept hs)

theorem noteCtx_kept {k : Guard} {s0 : State} {id : Nat} {st : Status} {s : State} (hs : Kept k s0 s) :
    Kept k s0 (endAlone.noteCtx id st s) :=
  modMason_kept hs

theorem endAlone_kept {kg : Guard} {sk : State} {j : Job} {st : Status} {beat : Nat} {retryS : Nat} {s : State}
    (hs : Kept kg sk s) : Kept kg sk (endAlone j st beat retryS s) := by
  unfold endAlone
  repeat' (with_reducible first
    | assumption | refine kept_ite ?_ ?_ | refine modFabric_kept ?_ | refine countEnding_kept ?_
    | refine auditJob_kept ?_ | refine pushRing_kept ?_ | refine releaseGrans_kept ?_ | refine unlend_kept ?_
    | refine modMason_kept ?_ | refine kept_id ?_ | refine noteCtx_kept ?_ | refine kept_getD ?_ ?_ | intro _
    | split | dsimp only)

theorem countStuck_kept {kg : Guard} {sk : State} {engine : Nat} {st : Status} {s : State} (hs : Kept kg sk s) : Kept
    kg sk (countStuck engine st s) := by
  unfold countStuck
  repeat' (with_reducible first
    | assumption | refine kept_ite ?_ ?_ | refine raise_kept ?_ | refine modFabric_kept ?_
    | refine andThen_kept ?_ | refine kept_foldl ?_ ?_ | refine kept_foldl1 ?_ ?_ | refine kept_foldl2 ?_ ?_
    | intro _ | split | refine Kept.of_fst (by assumption) ?_ | refine Kept.of_snd (by assumption) ?_ | dsimp only)

theorem completeOne_kept {kg : Guard} {sk : State} {j : Job} {r : JobResult} {inherited : Bool} {passed : Bool}
    {s : State} (hs : Kept kg sk s) : Kept kg sk (completeOne j r inherited passed s).1 := by
  unfold completeOne
  repeat' (with_reducible first
    | assumption | refine kept_ite ?_ ?_ | refine modFabric_kept ?_ | refine countEnding_kept ?_
    | refine raise_kept ?_ | refine modLintel_kept (fun _ h => h) ?_ | refine countStuck_kept ?_
    | refine linkGrans_kept ?_ | refine fillGrans_kept ?_ | refine unlend_kept ?_ | refine pushRing_kept ?_
    | refine endAlone_kept ?_ | refine releaseGrans_kept ?_ | refine andThen_kept ?_ | refine modMason_kept ?_
    | refine auditJob_kept ?_ | refine kept_id ?_ | refine noteCtx_kept ?_ | refine kept_getD ?_ ?_ | intro _
    | split | refine Kept.of_fst (by assumption) ?_ | refine Kept.of_snd (by assumption) ?_ | dsimp only)

theorem lendTemp_kept {kg : Guard} {sk : State} {id : Nat} {s : State} (hs : Kept kg sk s) : Kept kg sk
    (lendTemp id s) := by
  unfold lendTemp
  repeat' (with_reducible first
    | assumption | refine kept_ite ?_ ?_ | refine modGran_kept ?_ | refine modJob_kept ?_ | refine kept_id ?_
    | intro _ | split | refine Kept.of_fst (by assumption) ?_ | refine Kept.of_snd (by assumption) ?_ | dsimp only)

theorem lendGrans_kept {kg : Guard} {sk : State} {gs : List Nat} {s : State} (hs : Kept kg sk s) : Kept kg sk
    (lendGrans gs s) := by
  unfold lendGrans
  repeat' (with_reducible first
    | assumption | refine modGran_kept ?_ | refine kept_foldl ?_ ?_ | refine kept_foldl1 ?_ ?_
    | refine kept_foldl2 ?_ ?_ | intro _ | split | dsimp only)

theorem releaseHeld_kept {kg : Guard} {sk : State} {h : Job} {p : Pred} {s : State} (hs : Kept kg sk s) : Kept kg sk
    (releaseHeld h p s) := by
  unfold releaseHeld
  repeat' (with_reducible first
    | assumption | refine kept_ite ?_ ?_ | refine lendTemp_kept ?_ | refine modJob_kept ?_
    | refine lendGrans_kept ?_ | refine kept_id ?_ | intro _ | split | refine Kept.of_fst (by assumption) ?_
    | refine Kept.of_snd (by assumption) ?_ | dsimp only)

theorem complete_kept {k : Guard} {s0 : State} {fuel id : Nat} {r : JobResult} {inherited : Bool} {s : State}
    (hs : Kept k s0 s) : Kept k s0 (complete fuel id r inherited s) := by
  induction fuel generalizing id r inherited s with
  | zero => exact hs
  | succ n ih =>
    unfold complete
    repeat' (with_reducible first
      | assumption
      | refine kept_ite ?_ ?_
      | refine ih ?_
      | refine raise_kept ?_
      | refine releaseHeld_kept ?_
      | refine modJob_kept ?_
      | refine completeOne_kept ?_
      | split
      | refine Kept.of_fst (by assumption) ?_
      | dsimp only)

theorem completeJob_kept {kg : Guard} {sk : State} {id : Nat} {r : JobResult} {s : State} (hs : Kept kg sk s) : Kept
    kg sk (completeJob id r s) := by
  unfold completeJob
  repeat' (with_reducible first | assumption | refine complete_kept ?_ | refine kept_id ?_ | dsimp only)

theorem endEarly_kept {kg : Guard} {sk : State} {j : Job} {st : Status} {beat : Nat} {retryS : Nat} {s : State}
    (hs : Kept kg sk s) : Kept kg sk (endEarly j st beat retryS s) := by
  unfold endEarly
  repeat' (with_reducible first
    | assumption | refine kept_ite ?_ ?_ | refine endAlone_kept ?_ | refine raiseIf_kept ?_
    | refine complete_kept ?_ | refine releaseHeld_kept ?_ | refine kept_id ?_ | intro _ | split
    | refine Kept.of_fst (by assumption) ?_ | refine Kept.of_snd (by assumption) ?_ | dsimp only)

theorem completeWith_kept {kg : Guard} {sk : State} {id : Nat} {st : Status} {s : State} (hs : Kept kg sk s) : Kept
    kg sk (completeWith id st s) := by
  unfold completeWith
  repeat' (with_reducible first
    | assumption | refine kept_ite ?_ ?_ | refine endEarly_kept ?_ | refine completeJob_kept ?_
    | refine kept_id ?_ | intro _ | split | refine Kept.of_fst (by assumption) ?_
    | refine Kept.of_snd (by assumption) ?_ | dsimp only)

theorem endJob_kept {kg : Guard} {sk : State} {j : Job} {st : Status} {s : State} (hs : Kept kg sk s) : Kept kg sk
    (endJob j st s) := by
  unfold endJob
  repeat' (with_reducible first
    | assumption | refine kept_ite ?_ ?_ | refine endEarly_kept ?_ | refine completeWith_kept ?_
    | refine kept_id ?_ | intro _ | split | dsimp only)

theorem completeAll_kept {kg : Guard} {sk : State} {p : Job → Bool} {st : Status} {s : State} (hs : Kept kg sk s) :
    Kept kg sk (completeAll p st s) := by
  unfold completeAll
  repeat' (with_reducible first
    | assumption | refine endJob_kept ?_ | refine kept_foldl ?_ ?_ | refine kept_foldl1 ?_ ?_
    | refine kept_foldl2 ?_ ?_ | intro _ | split | dsimp only)

theorem engineEnds_kept {kg : Guard} {sk : State} {id : Nat} {r : JobResult} {s : State} (hs : Kept kg sk s) : Kept
    kg sk (engineEnds id r s) := by
  unfold engineEnds
  repeat' (with_reducible first
    | assumption | refine modJob_kept ?_ | refine kept_id ?_ | intro _ | split | dsimp only)

theorem tryAdmit_kept {k : Guard} {s0 : State} {id : Nat} {s t : State} (hh : tryAdmit id s = some t)
    (hs : Kept k s0 s) : Kept k s0 t := by
  unfold tryAdmit at hh
  split at hh
  · cases hh
  · dsimp only at hh
    split at hh
    · cases hh
      refine kept_drawsR (lendTemp_kept (modJob_kept ?_))
      exact kept_foldl (kept_foldl (kept_foldl hs fun _ _ h => modGran_kept h) fun _ _ h => modGran_kept h)
        fun _ _ h => modGran_kept h
    · cases hh

theorem evictFor_kept {k : Guard} {s0 : State} {fuel id : Nat} {s : State} (hs : Kept k s0 s) :
    Kept k s0 (evictFor fuel id s) := by
  induction fuel generalizing s with
  | zero => exact hs
  | succ n ih =>
    unfold evictFor
    split
    · exact hs
    · split
      · exact hs
      · exact ih (modJob_kept (endEarly_kept (modFabric_kept hs)))

theorem admitJob_kept {kg : Guard} {sk : State} {j : Job} {s : State} (hs : Kept kg sk s) : Kept kg sk
    (admitJob j s).1 := by
  unfold admitJob
  repeat' (with_reducible first
    | assumption | refine kept_ite ?_ ?_ | refine evictFor_kept ?_ | refine tryAdmit_kept (by assumption) ?_
    | refine kept_id ?_ | split | refine Kept.of_fst (by assumption) ?_ | refine Kept.of_snd (by assumption) ?_
    | dsimp only)

theorem enterFifo_kept {kg : Guard} {sk : State} {j : Job} {s : State} (hs : Kept kg sk s) : Kept kg sk
    (enterFifo j s) := by
  unfold enterFifo
  repeat' (with_reducible first
    | assumption | refine kept_ite ?_ ?_ | refine modFabric_kept ?_ | refine admitJob_kept ?_
    | refine modJob_kept ?_ | refine kept_id ?_ | intro _ | split | dsimp only)

theorem takeStalled_kept {kg : Guard} {sk : State} {s : State} (hs : Kept kg sk s) : Kept kg sk (takeStalled s) := by
  unfold takeStalled
  repeat' (with_reducible first
    | assumption | refine enterFifo_kept ?_ | refine modFabric_kept ?_ | refine kept_id ?_ | intro _ | split
    | refine Kept.of_fst (by assumption) ?_ | refine Kept.of_snd (by assumption) ?_ | dsimp only)

theorem admitFirst_kept {k : Guard} {s0 : State} {fuel : Nat} {l : List Job} {s : State} (hs : Kept k s0 s) :
    Kept k s0 (admitFirst fuel l s).1 := by
  induction fuel generalizing l s with
  | zero => exact hs
  | succ n ih =>
    unfold admitFirst
    split
    · exact hs
    · have h := admitJob_kept (j := by assumption) hs
      split <;> simp_all

theorem admitNext_kept {kg : Guard} {sk : State} {s : State} (hs : Kept kg sk s) : Kept kg sk (admitNext s).1 := by
  unfold admitNext
  repeat' (with_reducible first | assumption | refine takeStalled_kept ?_ | refine admitFirst_kept ?_ | dsimp only)

theorem admitWaiting_kept {k : Guard} {s0 : State} {fuel : Nat} {s : State} (hs : Kept k s0 s) :
    Kept k s0 (admitWaiting fuel s) := by
  induction fuel generalizing s with
  | zero => exact hs
  | succ n ih =>
    unfold admitWaiting
    have h := admitNext_kept hs
    split
    · split <;> simp_all
    · exact hs

theorem expireWaits_kept {kg : Guard} {sk : State} {q : Nat} {s : State} (hs : Kept kg sk s) : Kept kg sk
    (expireWaits q s) := by
  unfold expireWaits
  repeat' (with_reducible first
    | assumption | refine endEarly_kept ?_ | refine kept_foldl ?_ ?_ | refine kept_foldl1 ?_ ?_
    | refine kept_foldl2 ?_ ?_ | intro _ | split | dsimp only)

theorem submitJob_kept {kg : Guard} {sk : State} {a : Actor} {q : Nat} {d : Desc} {payload : List Byte}
    {ctx : Option Nat} {final : Bool} {s : State} (hs : Kept kg sk s) : Kept kg sk
    (submitJob a q d payload ctx final s) := by
  unfold submitJob
  repeat' (with_reducible first
    | assumption | refine kept_ite ?_ ?_ | refine admitWaiting_kept ?_ | refine expireWaits_kept ?_
    | refine modQueue_kept ?_ | refine modFabric_kept ?_ | refine endEarly_kept ?_ | refine modGov_kept ?_
    | refine enterFifo_kept ?_ | refine kept_id ?_ | intro _ | split | refine Kept.of_fst (by assumption) ?_
    | refine Kept.of_snd (by assumption) ?_ | dsimp only)

theorem chipJob_kept {kg : Guard} {sk : State} {master : Nat} {q : Nat} {d : Desc} {payload : List Byte} {s : State}
    (hs : Kept kg sk s) : Kept kg sk (chipJob master q d payload s) := by
  unfold chipJob
  repeat' (with_reducible first | assumption | refine submitJob_kept ?_ | dsimp only)

theorem enqueueEvent_kept {kg : Guard} {sk : State} {kind : Nat} {param : Nat} {arg : Nat} {s : State}
    (hs : Kept kg sk s) : Kept kg sk (enqueueEvent kind param arg s) := by
  unfold enqueueEvent
  repeat' (with_reducible first
    | assumption | refine kept_ite ?_ ?_ | refine modMason_kept ?_ | refine raise_kept ?_
    | refine kept_foldl ?_ ?_ | refine kept_foldl1 ?_ ?_ | refine kept_foldl2 ?_ ?_ | intro _ | split
    | refine Kept.of_fst (by assumption) ?_ | refine Kept.of_snd (by assumption) ?_ | dsimp only)

theorem submitTrigger_kept {kg : Guard} {sk : State} {n : Nat} {s : State} (hs : Kept kg sk s) : Kept kg sk
    (submitTrigger n s) := by
  unfold submitTrigger
  repeat' (with_reducible first | assumption | refine submitJob_kept ?_ | dsimp only)

theorem fireTrigger_kept {kg : Guard} {sk : State} {n : Nat} {period : Nat} {s : State} (hs : Kept kg sk s) : Kept kg
    sk (fireTrigger n period s) := by
  unfold fireTrigger
  repeat' (with_reducible first
    | assumption | refine submitTrigger_kept ?_ | refine modFabric_kept ?_ | intro _ | split | dsimp only)

theorem clearStepSum_kept {kg : Guard} {sk : State} {stream : Nat} {s : State} (hs : Kept kg sk s) : Kept kg sk
    (clearStepSum stream s) := by
  unfold clearStepSum
  repeat' (with_reducible first | assumption | refine modTime_kept (fun _ => rfl) ?_ | intro _ | split | dsimp only)

theorem submitRecord_kept {kg : Guard} {sk : State} {master : Nat} {stream : Nat} {rec : List Byte} {s : State}
    (hs : Kept kg sk s) : Kept kg sk (submitRecord master stream rec s) := by
  unfold submitRecord
  repeat' (with_reducible first | assumption | refine kept_ite ?_ ?_ | refine chipJob_kept ?_ | split | dsimp only)

theorem writeEvent_kept {kg : Guard} {sk : State} {master : Nat} {type : Nat} {body : List Byte} {s : State}
    (hs : Kept kg sk s) : Kept kg sk (writeEvent master type body s) := by
  unfold writeEvent
  repeat' (with_reducible first | assumption | refine submitRecord_kept ?_ | refine clearStepSum_kept ?_ | dsimp only)

theorem writeCounter_kept {kg : Guard} {sk : State} {master : Nat} {kind : Nat} {slot : Nat} {counter : Nat}
    {peer : List Byte} {s : State} (hs : Kept kg sk s) : Kept kg sk (writeCounter master kind slot counter peer s) :=
    by
  unfold writeCounter
  repeat' (with_reducible first | assumption | refine submitRecord_kept ?_ | refine clearStepSum_kept ?_ | dsimp only)

theorem writeAmendment_kept {kg : Guard} {sk : State} {header : List Byte} {mac : List Byte} {status : Status}
    {port : Nat} {kind : Nat} {s : State} (hs : Kept kg sk s) : Kept kg sk
    (writeAmendment header mac status port kind s) := by
  unfold writeAmendment
  repeat' (with_reducible first
    | assumption | refine kept_ite ?_ ?_ | refine submitRecord_kept ?_ | refine clearStepSum_kept ?_ | split
    | dsimp only)

theorem writeHistory_kept {kg : Guard} {sk : State} {src : FaultSrc} {set : Bool} {s : State} (hs : Kept kg sk s) :
    Kept kg sk (writeHistory src set s) := by
  unfold writeHistory
  repeat' (with_reducible first
    | assumption | refine kept_ite ?_ ?_ | refine clearStepSum_kept ?_ | refine submitRecord_kept ?_
    | refine modFaults_kept (fun _ h => h) (fun _ => rfl) ?_ | refine modWin_kept (fun _ h => h) ?_
    | refine kept_getD ?_ ?_ | intro _ | split | dsimp only)

theorem writeAudit_kept {kg : Guard} {sk : State} {a : AuditReq} {s : State} (hs : Kept kg sk s) : Kept kg sk
    (writeAudit a s) := by
  unfold writeAudit
  repeat' (with_reducible first
    | assumption | refine kept_ite ?_ ?_ | refine setLevel_kept ?_ | refine modRoles_kept ?_
    | refine clearStepSum_kept ?_ | refine raise_kept ?_ | refine submitRecord_kept ?_ | intro _ | split
    | dsimp only)

theorem audit_kept {kg : Guard} {sk : State} {a : AuditReq} {s : State} (hs : Kept kg sk s) : Kept kg sk (audit a s)
    := by
  unfold audit
  repeat' (with_reducible first | assumption | refine andThen_kept ?_ | dsimp only)

theorem drawMask_kept {kg : Guard} {sk : State} {n : Nat} {s : State} (hs : Kept kg sk s) : Kept kg sk
    (drawMask n s).2 := by
  unfold drawMask
  repeat' (with_reducible first | assumption | refine modCipher_kept ?_ | intro _ | split | dsimp only)

theorem drawUpTo_kept {kg : Guard} {sk : State} {k : Nat} {s : State} (hs : Kept kg sk s) : Kept kg sk
    (drawUpTo k s).2 := by
  unfold drawUpTo
  repeat' (with_reducible first | assumption | refine drawMask_kept ?_ | dsimp only)

theorem noteStale_kept {kg : Guard} {sk : State} {s : State} (hs : Kept kg sk s) : Kept kg sk (noteStale s) := by
  unfold noteStale
  repeat' (with_reducible first
    | assumption | refine kept_ite ?_ ?_ | refine setLevel_kept ?_ | refine modCipher_kept ?_ | intro _ | split
    | dsimp only)

theorem spendMask_kept {kg : Guard} {sk : State} {n : Nat} {s : State} (hs : Kept kg sk s) : Kept kg sk
    (spendMask n s) := by
  unfold spendMask
  repeat' (with_reducible first | assumption | refine modCipher_kept ?_ | intro _ | split | dsimp only)

theorem plainCycles_kept {k : Guard} {s0 : State} {n : Nat} {s : State} (hs : Kept k s0 s) :
    Kept k s0 (plainCycles n s).2 := by
  induction n generalizing s with
  | zero => exact hs
  | succ n ih =>
    unfold plainCycles
    exact ih (spendMask_kept (drawMask_kept hs))

theorem cipherCycles_kept {kg : Guard} {sk : State} {mode : Nat} {n : Nat} {s : State} (hs : Kept kg sk s) : Kept kg
    sk (cipherCycles mode n s).2 := by
  unfold cipherCycles
  repeat' (with_reducible first
    | assumption | refine kept_ite ?_ ?_ | refine spendMask_kept ?_ | refine plainCycles_kept ?_ | intro _ | split
    | dsimp only)

theorem runBlocks_kept {kg : Guard} {sk : State} {mode : Nat} {count : Nat} {s : State} (hs : Kept kg sk s) : Kept kg
    sk (runBlocks mode count s).2 := by
  unfold runBlocks
  repeat' (with_reducible first
    | assumption | refine kept_ite ?_ ?_ | refine cipherCycles_kept ?_ | refine noteStale_kept ?_
    | refine modCipher_kept ?_ | intro _ | split | refine Kept.of_fst (by assumption) ?_
    | refine Kept.of_snd (by assumption) ?_ | dsimp only)

theorem runCmac_kept {kg : Guard} {sk : State} {slot : Nat} {len : Nat} {s : State} (hs : Kept kg sk s) : Kept kg sk
    (runCmac slot len s) := by
  unfold runCmac
  repeat' (with_reducible first | assumption | refine runBlocks_kept ?_ | dsimp only)

theorem maskedBlocks_kept {kg : Guard} {sk : State} {n : Nat} {s : State} (hs : Kept kg sk s) : Kept kg sk
    (maskedBlocks n s) := by
  unfold maskedBlocks
  repeat' (with_reducible first
    | assumption | refine noteStale_kept ?_ | refine modCipher_kept ?_ | refine cipherCycles_kept ?_ | intro _
    | split | dsimp only)

theorem modSlot_kept {kg : Guard} {sk : State} {n : Nat} {f : Slot → Slot} {s : State} (hs : Kept kg sk s) : Kept kg
    sk (modSlot n f s) := by
  unfold modSlot
  repeat' (with_reducible first | assumption | refine modKeys_kept ?_ | intro _ | split | dsimp only)

theorem emptySlot_kept {kg : Guard} {sk : State} {n : Nat} {s : State} (hs : Kept kg sk s) : Kept kg sk
    (emptySlot n s) := by
  unfold emptySlot
  repeat' (with_reducible first | assumption | refine modSlot_kept ?_ | intro _ | split | dsimp only)

theorem setAttr_kept {kg : Guard} {sk : State} {n : Nat} {attr : SlotAttr} {s : State} (hs : Kept kg sk s) : Kept kg
    sk (setAttr n attr s) := by
  unfold setAttr
  repeat' (with_reducible first
    | assumption | refine kept_ite ?_ ?_ | refine modSlot_kept ?_ | intro _ | split | dsimp only)

theorem beginLoad_kept {kg : Guard} {sk : State} {n : Nat} {s : State} (hs : Kept kg sk s) : Kept kg sk
    (beginLoad n s) := by
  unfold beginLoad
  repeat' (with_reducible first
    | assumption | refine modMason_kept ?_ | refine modSlot_kept ?_ | refine emptySlot_kept ?_ | intro _ | split
    | refine Kept.of_fst (by assumption) ?_ | refine Kept.of_snd (by assumption) ?_ | dsimp only)

theorem endLoadLock_kept {kg : Guard} {sk : State} {us : Nat} {s : State} (hs : Kept kg sk s) : Kept kg sk
    (endLoadLock us s) := by
  unfold endLoadLock
  repeat' (with_reducible first
    | assumption | refine kept_ite ?_ ?_ | refine modMason_kept ?_ | intro _ | split
    | refine Kept.of_fst (by assumption) ?_ | refine Kept.of_snd (by assumption) ?_ | dsimp only)

theorem countAbort_kept {kg : Guard} {sk : State} {s : State} (hs : Kept kg sk s) : Kept kg sk (countAbort s) := by
  unfold countAbort
  repeat' (with_reducible first
    | assumption | refine raise_kept ?_ | refine endLoadLock_kept ?_ | refine modKeys_kept ?_ | intro _ | split
    | dsimp only)

theorem abortLoads_kept {kg : Guard} {sk : State} {s : State} (hs : Kept kg sk s) : Kept kg sk (abortLoads s) := by
  unfold abortLoads
  repeat' (with_reducible first
    | assumption | refine kept_ite ?_ ?_ | refine countAbort_kept ?_ | refine emptySlot_kept ?_
    | refine kept_foldl ?_ ?_ | refine kept_foldl1 ?_ ?_ | refine kept_foldl2 ?_ ?_ | intro _ | split | dsimp only)

theorem fillSlot_kept {kg : Guard} {sk : State} {n : Nat} {key : List Byte} {attr : SlotAttr} {s : State}
    (hs : Kept kg sk s) : Kept kg sk (fillSlot n key attr s) := by
  unfold fillSlot
  repeat' (with_reducible first
    | assumption | refine modKeys_kept ?_ | refine modSlot_kept ?_ | refine maskedBlocks_kept ?_ | intro _ | split
    | dsimp only)

theorem freePeers_kept {kg : Guard} {sk : State} {n : Nat} {s : State} (hs : Kept kg sk s) : Kept kg sk
    (freePeers n s) := by
  unfold freePeers
  repeat' (with_reducible first
    | assumption | refine kept_ite ?_ ?_ | refine modRadio_kept ?_ | intro _ | split | dsimp only)

theorem modSess_kept {kg : Guard} {sk : State} {i : Nat} {f : Session → Session} {s : State} (hs : Kept kg sk s) :
    Kept kg sk (modSess i f s) := by
  unfold modSess
  repeat' (with_reducible first | assumption | refine modRoles_kept ?_ | intro _ | split | dsimp only)

theorem dropPortGran_kept {kg : Guard} {sk : State} {g : Nat} {s : State} (hs : Kept kg sk s) : Kept kg sk
    (dropPortGran g s) := by
  unfold dropPortGran
  repeat' (with_reducible first
    | assumption | refine releaseGran_kept ?_ | refine modGran_kept ?_ | intro _ | split | dsimp only)

theorem freePortGrans_kept {kg : Guard} {sk : State} {master : Nat} {s : State} (hs : Kept kg sk s) : Kept kg sk
    (freePortGrans master s) := by
  unfold freePortGrans
  repeat' (with_reducible first
    | assumption | refine dropPortGran_kept ?_ | refine kept_foldl ?_ ?_ | refine kept_foldl1 ?_ ?_
    | refine kept_foldl2 ?_ ?_ | intro _ | split | dsimp only)

theorem endSession_kept {kg : Guard} {sk : State} {i : Nat} {s : State} (hs : Kept kg sk s) : Kept kg sk
    (endSession i s) := by
  unfold endSession
  repeat' (with_reducible first
    | assumption | refine kept_ite ?_ ?_ | refine modSess_kept ?_ | refine freePortGrans_kept ?_
    | refine emptySlot_kept ?_ | refine audit_kept ?_ | refine modRoles_kept ?_ | refine setLevel_kept ?_
    | intro _ | split | dsimp only)

theorem endSessions_kept {kg : Guard} {sk : State} {s : State} (hs : Kept kg sk s) : Kept kg sk (endSessions s) := by
  unfold endSessions
  repeat' (with_reducible first
    | assumption | refine endSession_kept ?_ | refine kept_foldl ?_ ?_ | refine kept_foldl1 ?_ ?_
    | refine kept_foldl2 ?_ ?_ | intro _ | split | dsimp only)

theorem touchSession_kept {kg : Guard} {sk : State} {master : Nat} {s : State} (hs : Kept kg sk s) : Kept kg sk
    (touchSession master s) := by
  unfold touchSession
  repeat' (with_reducible first
    | assumption | refine kept_ite ?_ ?_ | refine modSess_kept ?_ | intro _ | split
    | refine Kept.of_fst (by assumption) ?_ | refine Kept.of_snd (by assumption) ?_ | dsimp only)

theorem eraseSlot_kept {kg : Guard} {sk : State} {n : Nat} {s : State} (hs : Kept kg sk s) : Kept kg sk
    (eraseSlot n s) := by
  unfold eraseSlot
  repeat' (with_reducible first
    | assumption | refine kept_ite ?_ ?_ | refine modSlot_kept ?_ | refine countAbort_kept ?_
    | refine endSession_kept ?_ | refine kept_foldl ?_ ?_ | refine kept_foldl1 ?_ ?_ | refine kept_foldl2 ?_ ?_
    | intro _ | split | dsimp only)

theorem zeroSecrets_kept {k : Guard} {s0 s : State} (hs : Kept k s0 s) : Kept k s0 (zeroSecrets s) := by
  unfold zeroSecrets
  exact modFabric_kept (kept_foldl hs fun _ _ h => kept_ite (kept_sramR (Mem.wf_clear _) h) h)

theorem endSlotJobs_kept {kg : Guard} {sk : State} {mask : Nat} {s : State} (hs : Kept kg sk s) : Kept kg sk
    (endSlotJobs mask s) := by
  unfold endSlotJobs
  repeat' (with_reducible first
    | assumption | refine engineEnds_kept ?_ | refine kept_id ?_ | refine kept_foldl ?_ ?_
    | refine kept_foldl1 ?_ ?_ | refine kept_foldl2 ?_ ?_ | intro _ | split
    | refine Kept.of_fst (by assumption) ?_ | refine Kept.of_snd (by assumption) ?_ | dsimp only)

theorem alarm_kept {kg : Guard} {sk : State} {source : Nat} {named : Nat} {cause : Bool} {ns : Nat} {repeats : Nat}
    {s : State} (hs : Kept kg sk s) : Kept kg sk (alarm source named cause ns repeats s) := by
  unfold alarm
  repeat' (with_reducible first
    | assumption | refine kept_ite ?_ ?_ | refine modKeys_kept ?_ | refine eraseSlot_kept ?_
    | refine zeroSecrets_kept ?_ | refine endSlotJobs_kept ?_ | refine modCipher_kept ?_ | refine raise_kept ?_
    | refine kept_foldl ?_ ?_ | refine kept_foldl1 ?_ ?_ | refine kept_foldl2 ?_ ?_ | intro _ | split | dsimp only)

theorem alarmBy_kept {kg : Guard} {sk : State} {source : Nat} {s : State} (hs : Kept kg sk s) : Kept kg sk
    (alarmBy source s) := by
  unfold alarmBy
  repeat' (with_reducible first | assumption | refine alarm_kept ?_ | refine drew_kept ?_ | dsimp only)

theorem faultInject_kept {kg : Guard} {sk : State} {s : State} (hs : Kept kg sk s) : Kept kg sk (faultInject s) := by
  unfold faultInject
  repeat' (with_reducible first
    | assumption | refine alarmBy_kept ?_ | refine raise_kept ?_ | refine modCipher_kept ?_ | intro _ | split
    | dsimp only)

theorem loadWrapped_kept {kg : Guard} {sk : State} {n : Nat} {kek : Option (List Byte)} {wrapped : List Byte}
    {attr : SlotAttr} {fi : Bool} {s : State} (hs : Kept kg sk s) : Kept kg sk (loadWrapped n kek wrapped attr fi s)
    := by
  unfold loadWrapped
  repeat' (with_reducible first
    | assumption | refine kept_ite ?_ ?_ | refine abortLoads_kept ?_ | refine faultInject_kept ?_
    | refine modSlot_kept ?_ | refine emptySlot_kept ?_ | refine fillSlot_kept ?_ | refine maskedBlocks_kept ?_
    | refine raise_kept ?_ | refine setAttr_kept ?_ | intro _ | split | refine Kept.of_fst (by assumption) ?_
    | refine Kept.of_snd (by assumption) ?_ | dsimp only)

theorem loadSlot0_kept {kg : Guard} {sk : State} {fi : Bool} {s : State} (hs : Kept kg sk s) : Kept kg sk
    (loadSlot0 fi s) := by
  unfold loadSlot0
  repeat' (with_reducible first | assumption | refine loadWrapped_kept ?_ | dsimp only)

theorem loadEntry_kept {kg : Guard} {sk : State} {fi : Bool} {e : SlotEntry} {s : State} (hs : Kept kg sk s) : Kept
    kg sk (loadEntry fi e s) := by
  unfold loadEntry
  repeat' (with_reducible first
    | assumption | refine kept_ite ?_ ?_ | refine setAttr_kept ?_ | refine loadWrapped_kept ?_ | split
    | dsimp only)

theorem lockedLoad_kept {kg : Guard} {sk : State} {e : SlotEntry} {s : State} (hs : Kept kg sk s) : Kept kg sk
    (lockedLoad e s) := by
  unfold lockedLoad
  repeat' (with_reducible first
    | assumption | refine kept_ite ?_ ?_ | refine endLoadLock_kept ?_ | refine loadEntry_kept ?_
    | refine beginLoad_kept ?_ | split | dsimp only)

theorem lockedFill_kept {kg : Guard} {sk : State} {n : Nat} {key : List Byte} {attr : SlotAttr} {s : State}
    (hs : Kept kg sk s) : Kept kg sk (lockedFill n key attr s) := by
  unfold lockedFill
  repeat' (with_reducible first
    | assumption | refine endLoadLock_kept ?_ | refine fillSlot_kept ?_ | refine beginLoad_kept ?_ | dsimp only)

theorem takeRandom_kept {kg : Guard} {sk : State} {n : Nat} {s : State} {kr : State} {kb : List Byte}
    (hh : takeRandom n s = some (kb, kr)) (hs : Kept kg sk s) : Kept kg sk kr := by
  unfold takeRandom at hh
  (repeat' (first | (cases hh; done) | (obtain ⟨rfl, rfl⟩ := hh) | split at hh | (injection hh with hh) | dsimp only at hh))
  repeat' (with_reducible first
    | assumption | refine kept_ite ?_ ?_ | refine modEntropy_kept ?_ | intro _ | split | dsimp only)

theorem healthFail_kept {kg : Guard} {sk : State} {rct : Bool} {s : State} (hs : Kept kg sk s) : Kept kg sk
    (healthFail rct s) := by
  unfold healthFail
  repeat' (with_reducible first
    | assumption | refine kept_ite ?_ ?_ | refine modEntropy_kept ?_ | refine raise_kept ?_
    | refine setLevel_kept ?_ | intro _ | split | dsimp only)

theorem seedMask_kept {kg : Guard} {sk : State} {block : List Byte} {s : State} (hs : Kept kg sk s) : Kept kg sk
    (seedMask block s) := by
  unfold seedMask
  repeat' (with_reducible first
    | assumption | refine setLevel_kept ?_ | refine modCipher_kept ?_ | intro _ | split | dsimp only)

theorem modAct_kept {kg : Guard} {sk : State} {f : Activity → Activity} {s : State} (hs : Kept kg sk s) : Kept kg sk
    (modAct f s) := by
  unfold modAct
  repeat' (with_reducible first | assumption | refine modRadio_kept ?_ | intro _ | split | dsimp only)

theorem modCtx_kept {kg : Guard} {sk : State} {job : Nat} {f : RadioCtx → RadioCtx} {s : State} (hs : Kept kg sk s) :
    Kept kg sk (modCtx job f s) := by
  unfold modCtx
  repeat' (with_reducible first
    | assumption | refine kept_ite ?_ ?_ | refine modRadio_kept ?_ | intro _ | split | dsimp only)

theorem leaveCtx_kept {kg : Guard} {sk : State} {job : Nat} {r : JobResult} {s : State} (hs : Kept kg sk s) : Kept kg
    sk (leaveCtx job r s) := by
  unfold leaveCtx
  repeat' (with_reducible first
    | assumption | refine engineEnds_kept ?_ | refine modRadio_kept ?_ | intro _ | split | dsimp only)

theorem endAct_kept {kg : Guard} {sk : State} {s : State} (hs : Kept kg sk s) : Kept kg sk (endAct s) := by
  unfold endAct
  repeat' (with_reducible first
    | assumption | refine kept_ite ?_ ?_ | refine modRadio_kept ?_ | refine modLintel_kept (fun _ h => h) ?_
    | refine andThen_kept ?_ | intro _ | split | refine Kept.of_fst (by assumption) ?_
    | refine Kept.of_snd (by assumption) ?_ | dsimp only)

theorem radioDrop_kept {kg : Guard} {sk : State} {job : Nat} {s : State} (hs : Kept kg sk s) : Kept kg sk
    (radioDrop job s) := by
  unfold radioDrop
  repeat' (with_reducible first
    | assumption | refine kept_ite ?_ ?_ | refine endAct_kept ?_ | refine modRadio_kept ?_ | intro _ | split
    | dsimp only)

theorem radioReseat_kept {kg : Guard} {sk : State} {s : State} (hs : Kept kg sk s) : Kept kg sk (radioReseat s) := by
  unfold radioReseat
  repeat' (with_reducible first
    | assumption | refine kept_ite ?_ ?_ | refine endAct_kept ?_ | refine completeWith_kept ?_
    | refine radioDrop_kept ?_ | refine modRadio_kept ?_ | refine kept_id ?_ | refine kept_foldl ?_ ?_
    | refine kept_foldl1 ?_ ?_ | refine kept_foldl2 ?_ ?_ | intro _ | split | dsimp only)

theorem modConn_kept {kg : Guard} {sk : State} {c : Nat} {f : Conn → Conn} {s : State} (hs : Kept kg sk s) : Kept kg
    sk (modConn c f s) := by
  unfold modConn
  repeat' (with_reducible first | assumption | refine modLink_kept ?_ | intro _ | split | dsimp only)

theorem sendDone_kept {kg : Guard} {sk : State} {job : Nat} {acked : Option Nat} {s : State} (hs : Kept kg sk s) :
    Kept kg sk (sendDone job acked s) := by
  unfold sendDone
  repeat' (with_reducible first
    | assumption | refine kept_ite ?_ ?_ | refine modLink_kept ?_ | refine engineEnds_kept ?_ | intro _ | split
    | refine Kept.of_fst (by assumption) ?_ | refine Kept.of_snd (by assumption) ?_ | dsimp only)

theorem freeConn_kept {kg : Guard} {sk : State} {c : Nat} {s : State} (hs : Kept kg sk s) : Kept kg sk (freeConn c s)
    := by
  unfold freeConn
  repeat' (with_reducible first
    | assumption | refine sendDone_kept ?_ | refine modConn_kept ?_ | refine kept_foldl ?_ ?_
    | refine kept_foldl1 ?_ ?_ | refine kept_foldl2 ?_ ?_ | intro _ | split | dsimp only)

theorem enterScan_kept {kg : Guard} {sk : State} {s : State} (hs : Kept kg sk s) : Kept kg sk (enterScan s) := by
  unfold enterScan
  repeat' (with_reducible first
    | assumption | refine kept_ite ?_ ?_ | refine modLink_kept ?_ | intro _ | split | dsimp only)

theorem parentGone_kept {kg : Guard} {sk : State} {kind : Nat} {s : State} (hs : Kept kg sk s) : Kept kg sk
    (parentGone kind s) := by
  unfold parentGone
  repeat' (with_reducible first | assumption | refine kept_ite ?_ ?_ | refine enterScan_kept ?_ | split | dsimp only)

theorem loseConn_kept {kg : Guard} {sk : State} {c : Nat} {s : State} (hs : Kept kg sk s) : Kept kg sk (loseConn c s)
    := by
  unfold loseConn
  repeat' (with_reducible first
    | assumption | refine modLink_kept ?_ | refine freeConn_kept ?_ | refine parentGone_kept ?_
    | refine raiseIf_kept ?_ | intro _ | split | dsimp only)

theorem enterOff_kept {kg : Guard} {sk : State} {s : State} (hs : Kept kg sk s) : Kept kg sk (enterOff s) := by
  unfold enterOff
  repeat' (with_reducible first
    | assumption | refine kept_ite ?_ ?_ | refine modLink_kept ?_ | refine freeConn_kept ?_
    | refine kept_foldl ?_ ?_ | refine kept_foldl1 ?_ ?_ | refine kept_foldl2 ?_ ?_ | intro _ | split | dsimp only)

theorem pauseSync_kept {kg : Guard} {sk : State} {s : State} (hs : Kept kg sk s) : Kept kg sk (pauseSync s) := by
  unfold pauseSync
  repeat' (with_reducible first
    | assumption | refine kept_ite ?_ ?_ | refine setLevel_kept ?_ | refine modLink_kept ?_ | intro _ | split
    | dsimp only)

theorem linkSync_kept {kg : Guard} {sk : State} {s : State} (hs : Kept kg sk s) : Kept kg sk (linkSync s) := by
  unfold linkSync
  repeat' (with_reducible first
    | assumption | refine kept_ite ?_ ?_ | refine enterOff_kept ?_ | refine setLevel_kept ?_
    | refine enterScan_kept ?_ | refine modLink_kept ?_ | refine pauseSync_kept ?_ | refine modConn_kept ?_
    | refine kept_foldl ?_ ?_ | refine kept_foldl1 ?_ ?_ | refine kept_foldl2 ?_ ?_ | intro _ | split | dsimp only)

theorem linkDayRoll_kept {kg : Guard} {sk : State} {s : State} (hs : Kept kg sk s) : Kept kg sk (linkDayRoll s) := by
  unfold linkDayRoll
  repeat' (with_reducible first
    | assumption | refine kept_ite ?_ ?_ | refine setLevel_kept ?_ | refine modLink_kept ?_ | intro _ | split
    | dsimp only)

theorem linkDrop_kept {kg : Guard} {sk : State} {job : Nat} {s : State} (hs : Kept kg sk s) : Kept kg sk
    (linkDrop job s) := by
  unfold linkDrop
  repeat' (with_reducible first | assumption | refine modLink_kept ?_ | intro _ | split | dsimp only)

theorem linkReseat_kept {kg : Guard} {sk : State} {keep : Bool} {s : State} (hs : Kept kg sk s) : Kept kg sk
    (linkReseat keep s) := by
  unfold linkReseat
  repeat' (with_reducible first
    | assumption | refine kept_ite ?_ ?_ | refine enterScan_kept ?_ | refine freeConn_kept ?_
    | refine kept_foldl ?_ ?_ | refine kept_foldl1 ?_ ?_ | refine kept_foldl2 ?_ ?_ | intro _ | split | dsimp only)

theorem modPath_kept {kg : Guard} {sk : State} {p : Nat} {f : FrontPath → FrontPath} {s : State} (hs : Kept kg sk s)
    : Kept kg sk (modPath p f s) := by
  unfold modPath
  repeat' (with_reducible first | assumption | refine modFront_kept ?_ | intro _ | split | dsimp only)

theorem modShotPath_kept {kg : Guard} {sk : State} {p : Nat} {f : ShotPath → ShotPath} {s : State}
    (hs : Kept kg sk s) : Kept kg sk (modShotPath p f s) := by
  unfold modShotPath
  repeat' (with_reducible first | assumption | refine modShot_kept ?_ | intro _ | split | dsimp only)

theorem countDelay_kept {kg : Guard} {sk : State} {cls : Nat} {waitUs : Nat} {s : State} (hs : Kept kg sk s) : Kept
    kg sk (countDelay cls waitUs s) := by
  unfold countDelay
  repeat' (with_reducible first
    | assumption | refine kept_ite ?_ ?_ | refine raiseIf_kept ?_ | refine modFabric_kept ?_ | intro _ | split
    | dsimp only)

theorem setEval_kept {kg : Guard} {sk : State} {job : Nat} {e : PairEval} {s : State} (hs : Kept kg sk s) : Kept kg
    sk (setEval job e s) := by
  unfold setEval
  repeat' (with_reducible first
    | assumption | refine kept_ite ?_ ?_ | refine modShot_kept ?_ | intro _ | split | dsimp only)

theorem joinEvent_kept {kg : Guard} {sk : State} {job : Nat} {flow : Nat} {path : Nat} {s : State}
    (hs : Kept kg sk s) : Kept kg sk (joinEvent job flow path s) := by
  unfold joinEvent
  repeat' (with_reducible first | assumption | refine modShot_kept ?_ | intro _ | split | dsimp only)

theorem startEvent_kept {kg : Guard} {sk : State} {j : Job} {s : State} (hs : Kept kg sk s) : Kept kg sk
    (startEvent j s) := by
  unfold startEvent
  repeat' (with_reducible first
    | assumption | refine modShot_kept ?_ | refine chipJob_kept ?_ | refine joinEvent_kept ?_ | refine kept_id ?_
    | intro _ | split | dsimp only)

theorem shotDispatch_kept {kg : Guard} {sk : State} {j : Job} {s : State} (hs : Kept kg sk s) : Kept kg sk
    (shotDispatch j s) := by
  unfold shotDispatch
  repeat' (with_reducible first
    | assumption | refine kept_ite ?_ ?_ | refine startEvent_kept ?_ | refine kept_id ?_ | split | dsimp only)

theorem afterPair_kept {kg : Guard} {sk : State} {queue : Nat} {path : Nat} {job : Nat} {st : Status} {s : State}
    (hs : Kept kg sk s) : Kept kg sk (afterPair queue path job st s) := by
  unfold afterPair
  repeat' (with_reducible first
    | assumption | refine kept_ite ?_ ?_ | refine setEval_kept ?_ | refine modJob_kept ?_ | refine chipJob_kept ?_
    | refine joinEvent_kept ?_ | intro _ | split | refine Kept.of_fst (by assumption) ?_
    | refine Kept.of_snd (by assumption) ?_ | dsimp only)

theorem stagingEnds_kept {kg : Guard} {sk : State} {j : Job} {a : Amend} {st : Status} {reject : Nat} {s : State}
    (hs : Kept kg sk s) : Kept kg sk (stagingEnds j a st reject s) := by
  unfold stagingEnds
  repeat' (with_reducible first
    | assumption | refine kept_ite ?_ ?_ | refine modBoot_kept (fun _ => rfl) (fun _ h => h) ?_
    | refine audit_kept ?_ | refine writeAmendment_kept ?_ | refine raiseIf_kept ?_ | intro _ | split | dsimp only)

theorem stageFails_kept {kg : Guard} {sk : State} {j : Job} {a : Amend} {st : Status} {reject : Nat} {s : State}
    (hs : Kept kg sk s) : Kept kg sk (stageFails j a st reject s) := by
  unfold stageFails
  repeat' (with_reducible first
    | assumption | refine kept_ite ?_ ?_ | refine engineEnds_kept ?_ | refine stagingEnds_kept ?_
    | refine kept_id ?_ | split | dsimp only)

theorem touchFlash_kept {kg : Guard} {sk : State} {s : State} (hs : Kept kg sk s) : Kept kg sk (touchFlash s) := by
  unfold touchFlash
  repeat' (with_reducible first
    | assumption | refine kept_ite ?_ ?_ | refine modJournal_kept ?_ | intro _ | split | dsimp only)

theorem onFlash_kept {k : Guard} {s0 : State} {f : State → State} {s : State}
    (hf : ∀ t, Kept k s0 t → Kept k s0 (f t)) (hs : Kept k s0 s) : Kept k s0 (onFlash f s) := by
  unfold onFlash
  exact kept_ite (hf _ (touchFlash_kept hs)) (touchFlash_kept hs)

theorem programByte_kept {k : Guard} {s0 : State} {o : FlashObs} {a : Nat} {b : Byte} {s : State} (hs : Kept k s0 s) :
    Kept k s0 (programByte o a b s) := by
  unfold programByte
  refine kept_ite hs ?_
  exact modJournal_kept (kept_flashR (Mem.wf_set _) hs)

theorem programFlash_kept {kg : Guard} {sk : State} {o : FlashObs} {a : Nat} {bs : List Byte} {s : State}
    (hs : Kept kg sk s) : Kept kg sk (programFlash o a bs s) := by
  unfold programFlash
  repeat' (with_reducible first
    | assumption | refine kept_ite ?_ ?_ | refine raise_kept ?_ | refine touchFlash_kept ?_
    | refine programByte_kept ?_ | refine kept_foldl ?_ ?_ | refine kept_foldl1 ?_ ?_ | refine kept_foldl2 ?_ ?_
    | intro _ | split | dsimp only)

theorem eraseFlash_kept {k : Guard} {s0 : State} {o : FlashObs} {sector : Nat} {s : State} (hs : Kept k s0 s) :
    Kept k s0 (eraseFlash o sector s) := by
  have h1 := touchFlash_kept hs
  unfold eraseFlash
  refine kept_ite (raise_kept h1) (kept_ite h1 ?_)
  exact modJournal_kept (kept_flashR (Mem.wf_clear _) h1)

theorem takeVbat_kept {kg : Guard} {sk : State} {mv : Nat} {s : State} (hs : Kept kg sk s) : Kept kg sk
    (takeVbat mv s) := by
  unfold takeVbat
  repeat' (with_reducible first
    | assumption | refine kept_ite ?_ ?_ | refine modLintel_kept (fun _ h => h) ?_ | refine modJournal_kept ?_
    | intro _ | split | dsimp only)

theorem freePeak_kept {kg : Guard} {sk : State} {s : State} (hs : Kept kg sk s) : Kept kg sk (freePeak s) := by
  unfold freePeak
  repeat' (with_reducible first
    | assumption | refine kept_ite ?_ ?_
    | refine modLintel_kept (by first | exact fun _ => rfl | exact fun _ h => h | exact fun h => h | (intro _; intros; split <;> first | rfl | assumption) | (intro _; intros; first | rfl | assumption)) ?_
    | intro _ | split | dsimp only)

theorem unlockAs_kept {kg : Guard} {sk : State} {k : LockKind} {s : State} (hs : Kept kg sk s) : Kept kg sk
    (unlockAs k s) := by
  unfold unlockAs
  repeat' (with_reducible first
    | assumption | refine kept_ite ?_ ?_ | refine modMason_kept ?_ | refine kept_getD ?_ ?_ | intro _ | split
    | dsimp only)

theorem journalUnlock_kept {kg : Guard} {sk : State} {s : State} (hs : Kept kg sk s) : Kept kg sk (journalUnlock s)
    := by
  unfold journalUnlock
  repeat' (with_reducible first | assumption | refine unlockAs_kept ?_ | dsimp only)

theorem cutProgram_kept {kg : Guard} {sk : State} {a : Nat} {bs : List Byte} {s : State} (hs : Kept kg sk s) : Kept
    kg sk (cutProgram a bs s) := by
  unfold cutProgram
  repeat' (with_reducible first
    | assumption | refine kept_ite ?_ ?_ | refine programByte_kept ?_ | refine drew_kept ?_
    | refine modJournal_kept ?_ | refine kept_foldl ?_ ?_ | refine kept_foldl1 ?_ ?_ | refine kept_foldl2 ?_ ?_
    | intro _ | split | refine Kept.of_fst (by assumption) ?_ | refine Kept.of_snd (by assumption) ?_ | dsimp only)

theorem cutStageHead_kept {kg : Guard} {sk : State} {base : Nat} {head : List Byte} {s : State} (hs : Kept kg sk s) :
    Kept kg sk (cutStageHead base head s) := by
  unfold cutStageHead
  repeat' (with_reducible first | assumption | refine cutProgram_kept ?_ | dsimp only)

theorem cutVoid_kept {kg : Guard} {sk : State} {a : Nat} {s : State} (hs : Kept kg sk s) : Kept kg sk (cutVoid a s)
    := by
  unfold cutVoid
  repeat' (with_reducible first
    | assumption | refine modJournal_kept ?_ | refine drew_kept ?_ | intro _ | split | dsimp only)

theorem cutErase_kept {k : Guard} {s0 : State} {sector : Nat} {s : State} (hs : Kept k s0 s) :
    Kept k s0 (cutErase sector s) := by
  unfold cutErase
  exact modJournal_kept (kept_flashR (Mem.wf_clear _) hs)

theorem putSector_kept {kg : Guard} {sk : State} {x : Sector} {s : State} (hs : Kept kg sk s) : Kept kg sk
    (putSector x s) := by
  unfold putSector
  repeat' (with_reducible first
    | assumption | refine kept_ite ?_ ?_ | refine modJournal_kept ?_ | intro _ | split | dsimp only)

theorem takeKeep_kept {kg : Guard} {sk : State} {s : State} (hs : Kept kg sk s) : Kept kg sk (takeKeep s) := by
  unfold takeKeep
  repeat' (with_reducible first | assumption | refine modJournal_kept ?_ | intro _ | split | dsimp only)

theorem unindex_kept {kg : Guard} {sk : State} {p : PageRef → Bool} {s : State} (hs : Kept kg sk s) : Kept kg sk
    (unindex p s) := by
  unfold unindex
  repeat' (with_reducible first | assumption | refine modJournal_kept ?_ | intro _ | split | dsimp only)

theorem indexPage_kept {kg : Guard} {sk : State} {stream : Nat} {seq : Nat} {a : Nat} {s : State} (hs : Kept kg sk s)
    : Kept kg sk (indexPage stream seq a s) := by
  unfold indexPage
  repeat' (with_reducible first | assumption | refine modJournal_kept ?_ | intro _ | split | dsimp only)

theorem pushWork_kept {kg : Guard} {sk : State} {l : List FlashTask} {s : State} (hs : Kept kg sk s) : Kept kg sk
    (pushWork l s) := by
  unfold pushWork
  repeat' (with_reducible first | assumption | refine modJournal_kept ?_ | intro _ | split | dsimp only)

theorem dropPages_kept {k : Guard} {s0 : State} {fuel : Nat} {s : State}
    (hs : Kept k s0 s) : Kept k s0 (dropPages fuel s) := by
  induction fuel generalizing s with
  | zero => exact hs
  | succ n ih =>
    unfold dropPages
    repeat' (with_reducible first
      | assumption
      | refine kept_ite ?_ ?_
      | refine ih ?_
      | refine raise_kept ?_
      | refine modJournal_kept ?_
      | refine unindex_kept ?_
      | refine pushWork_kept ?_
      | split
      | dsimp only)

theorem leaveSector_kept {kg : Guard} {sk : State} {idx : Nat} {s : State} (hs : Kept kg sk s) : Kept kg sk
    (leaveSector idx s) := by
  unfold leaveSector
  repeat' (with_reducible first
    | assumption | refine kept_ite ?_ ?_ | refine modJournal_kept ?_ | intro _ | split | dsimp only)

theorem beginReclaim_kept {kg : Guard} {sk : State} {v : Sector} {tail : List FlashTask} {s : State}
    (hs : Kept kg sk s) : Kept kg sk (beginReclaim v tail s) := by
  unfold beginReclaim
  repeat' (with_reducible first
    | assumption | refine dropPages_kept ?_ | refine leaveSector_kept ?_ | refine takeKeep_kept ?_
    | refine modJournal_kept ?_ | intro _ | split | dsimp only)

theorem askOp_kept {kg : Guard} {sk : State} {op : FlashOpSt} {next : List FlashTask} {s : State} (hs : Kept kg sk s)
    : Kept kg sk (askOp op next s) := by
  unfold askOp
  repeat' (with_reducible first
    | assumption | refine touchFlash_kept ?_ | refine modJournal_kept ?_ | intro _ | split | dsimp only)

theorem holdPage_kept {kg : Guard} {sk : State} {img : List Byte} {jobs : List Nat} {s : State} (hs : Kept kg sk s) :
    Kept kg sk (holdPage img jobs s) := by
  unfold holdPage
  repeat' (with_reducible first | assumption | refine modJournal_kept ?_ | intro _ | split | dsimp only)

theorem eraseStep_kept {kg : Guard} {sk : State} {n : Nat} {s : State} (hs : Kept kg sk s) : Kept kg sk
    (eraseStep n s) := by
  unfold eraseStep
  repeat' (with_reducible first
    | assumption | refine askOp_kept ?_ | refine putSector_kept ?_ | refine unindex_kept ?_
    | refine leaveSector_kept ?_ | refine kept_getD ?_ ?_ | refine kept_foldl ?_ ?_ | refine kept_foldl1 ?_ ?_
    | refine kept_foldl2 ?_ ?_ | intro _ | dsimp only)

theorem eraseFailed_kept {kg : Guard} {sk : State} {n : Nat} {s : State} (hs : Kept kg sk s) : Kept kg sk
    (eraseFailed n s) := by
  unfold eraseFailed
  repeat' (with_reducible first | assumption | refine pushWork_kept ?_ | refine raise_kept ?_ | dsimp only)

theorem dropSteps_kept {kg : Guard} {sk : State} {stays : FlashTask → Bool} {s : State} (hs : Kept kg sk s) : Kept kg
    sk (dropSteps stays s) := by
  unfold dropSteps
  repeat' (with_reducible first | assumption | refine modJournal_kept ?_ | intro _ | split | dsimp only)

theorem noRoom_kept {kg : Guard} {sk : State} {s : State} (hs : Kept kg sk s) : Kept kg sk (noRoom s) := by
  unfold noRoom
  repeat' (with_reducible first
    | assumption | refine modJournal_kept ?_ | refine dropSteps_kept ?_ | intro _ | split
    | refine Kept.of_fst (by assumption) ?_ | refine Kept.of_snd (by assumption) ?_ | dsimp only)

theorem allocStep_kept {kg : Guard} {sk : State} {s : State} (hs : Kept kg sk s) : Kept kg sk (allocStep s) := by
  unfold allocStep
  repeat' (with_reducible first
    | assumption | refine askOp_kept ?_ | refine pushWork_kept ?_ | refine noRoom_kept ?_ | intro _ | split
    | refine Kept.of_fst (by assumption) ?_ | refine Kept.of_snd (by assumption) ?_ | dsimp only)

theorem placeStep_kept {kg : Guard} {sk : State} {s : State} (hs : Kept kg sk s) : Kept kg sk (placeStep s) := by
  unfold placeStep
  repeat' (with_reducible first
    | assumption | refine kept_ite ?_ ?_ | refine askOp_kept ?_ | refine modJournal_kept ?_
    | refine pushWork_kept ?_ | intro _ | split | refine Kept.of_fst (by assumption) ?_
    | refine Kept.of_snd (by assumption) ?_ | dsimp only)

theorem rewriteStep_kept {kg : Guard} {sk : State} {counted : Bool} {s : State} (hs : Kept kg sk s) : Kept kg sk
    (rewriteStep counted s) := by
  unfold rewriteStep
  repeat' (with_reducible first
    | assumption | refine pushWork_kept ?_ | refine modJournal_kept ?_ | intro _ | split
    | refine Kept.of_fst (by assumption) ?_ | refine Kept.of_snd (by assumption) ?_ | dsimp only)

theorem pageFailed_kept {kg : Guard} {sk : State} {p : PendingPage} {s : State} (hs : Kept kg sk s) : Kept kg sk
    (pageFailed p s) := by
  unfold pageFailed
  repeat' (with_reducible first
    | assumption | refine kept_ite ?_ ?_ | refine raise_kept ?_ | refine pushWork_kept ?_
    | refine modJournal_kept ?_ | refine leaveSector_kept ?_ | intro _ | split | dsimp only)

theorem verifyStep_kept {kg : Guard} {sk : State} {s : State} (hs : Kept kg sk s) : Kept kg sk (verifyStep s) := by
  unfold verifyStep
  repeat' (with_reducible first
    | assumption | refine kept_ite ?_ ?_ | refine modJournal_kept ?_ | refine pageFailed_kept ?_ | intro _ | split
    | refine Kept.of_fst (by assumption) ?_ | refine Kept.of_snd (by assumption) ?_ | dsimp only)

theorem copyStep_kept {kg : Guard} {sk : State} {r : PageRef} {s : State} (hs : Kept kg sk s) : Kept kg sk
    (copyStep r s) := by
  unfold copyStep
  repeat' (with_reducible first
    | assumption | refine kept_ite ?_ ?_ | refine pushWork_kept ?_ | refine holdPage_kept ?_
    | refine modJournal_kept ?_ | intro _ | split | refine Kept.of_fst (by assumption) ?_
    | refine Kept.of_snd (by assumption) ?_ | dsimp only)

theorem retireStep_kept {kg : Guard} {sk : State} {n : Nat} {s : State} (hs : Kept kg sk s) : Kept kg sk
    (retireStep n s) := by
  unfold retireStep
  repeat' (with_reducible first
    | assumption | refine kept_ite ?_ ?_ | refine leaveSector_kept ?_ | refine modJournal_kept ?_
    | refine pushWork_kept ?_ | intro _ | split | dsimp only)

theorem retiredStep_kept {kg : Guard} {sk : State} {n : Nat} {s : State} (hs : Kept kg sk s) : Kept kg sk
    (retiredStep n s) := by
  unfold retiredStep
  repeat' (with_reducible first
    | assumption | refine kept_ite ?_ ?_ | refine unindex_kept ?_ | refine leaveSector_kept ?_
    | refine modJournal_kept ?_ | refine raise_kept ?_ | refine pushWork_kept ?_ | intro _ | split | dsimp only)

theorem defectStep_kept {kg : Guard} {sk : State} {copy : Nat} {s : State} (hs : Kept kg sk s) : Kept kg sk
    (defectStep copy s) := by
  unfold defectStep
  repeat' (with_reducible first
    | assumption | refine kept_ite ?_ ?_ | refine askOp_kept ?_ | refine modJournal_kept ?_ | intro _ | split
    | dsimp only)

theorem flashStep_kept {kg : Guard} {sk : State} {t : FlashTask} {s : State} (hs : Kept kg sk s) : Kept kg sk
    (flashStep t s) := by
  unfold flashStep
  repeat' (with_reducible first
    | assumption | refine kept_ite ?_ ?_ | refine eraseStep_kept ?_ | refine eraseFailed_kept ?_
    | refine askOp_kept ?_ | refine putSector_kept ?_ | refine allocStep_kept ?_ | refine pushWork_kept ?_
    | refine modJournal_kept ?_ | refine raise_kept ?_ | refine placeStep_kept ?_ | refine rewriteStep_kept ?_
    | refine verifyStep_kept ?_ | refine copyStep_kept ?_ | refine retireStep_kept ?_ | refine retiredStep_kept ?_
    | refine defectStep_kept ?_ | intro _ | split | refine Kept.of_fst (by assumption) ?_
    | refine Kept.of_snd (by assumption) ?_ | dsimp only)

theorem runFlash_kept {k : Guard} {s0 : State} {fuel : Nat} {s : State} (hs : Kept k s0 s) :
    Kept k s0 (runFlash fuel s) := by
  induction fuel generalizing s with
  | zero => exact hs
  | succ n ih =>
    unfold runFlash
    refine kept_ite hs ?_
    split
    · exact hs
    · exact kept_ite hs (ih (flashStep_kept (modJournal_kept hs)))

theorem dropWork_kept {kg : Guard} {sk : State} {s : State} (hs : Kept kg sk s) : Kept kg sk (dropWork s) := by
  unfold dropWork
  repeat' (with_reducible first
    | assumption | refine journalUnlock_kept ?_ | refine freePeak_kept ?_ | refine modJournal_kept ?_
    | refine dropSteps_kept ?_ | intro _ | split | dsimp only)

theorem dropStaging_kept {kg : Guard} {sk : State} {j : Job} {st : Status} {s : State} (hs : Kept kg sk s) : Kept kg
    sk (dropStaging j st s) := by
  unfold dropStaging
  repeat' (with_reducible first
    | assumption | refine stageFails_kept ?_ | refine freePeak_kept ?_ | refine modJournal_kept ?_ | intro _
    | split | dsimp only)

theorem leaveWork_kept {kg : Guard} {sk : State} {id : Nat} {s : State} (hs : Kept kg sk s) : Kept kg sk
    (leaveWork id s) := by
  unfold leaveWork
  repeat' (with_reducible first
    | assumption | refine kept_ite ?_ ?_ | refine modJournal_kept ?_ | refine dropSteps_kept ?_
    | refine kept_id ?_ | refine kept_getD ?_ ?_ | intro _ | split | dsimp only)

theorem giveUp_kept {kg : Guard} {sk : State} {st : Status} {s : State} (hs : Kept kg sk s) : Kept kg sk
    (giveUp st s) := by
  unfold giveUp
  repeat' (with_reducible first
    | assumption | refine kept_ite ?_ ?_ | refine dropStaging_kept ?_ | refine engineEnds_kept ?_
    | refine dropWork_kept ?_ | refine kept_id ?_ | split | refine Kept.of_fst (by assumption) ?_
    | refine Kept.of_snd (by assumption) ?_ | dsimp only)

theorem grantPeak_kept {kg : Guard} {sk : State} {s : State} (hs : Kept kg sk s) : Kept kg sk (grantPeak s) := by
  unfold grantPeak
  repeat' (with_reducible first
    | assumption | refine kept_ite ?_ ?_ | refine modJournal_kept ?_ | refine modLintel_kept (fun _ h => h) ?_
    | refine giveUp_kept ?_ | intro _ | split | dsimp only)

theorem journalLock_kept {kg : Guard} {sk : State} {s : State} (hs : Kept kg sk s) : Kept kg sk (journalLock s) := by
  unfold journalLock
  repeat' (with_reducible first
    | assumption | refine kept_ite ?_ ?_ | refine askOp_kept ?_ | refine modMason_kept ?_ | intro _ | split
    | refine Kept.of_fst (by assumption) ?_ | refine Kept.of_snd (by assumption) ?_ | dsimp only)

theorem cutOp_kept {kg : Guard} {sk : State} {s : State} (hs : Kept kg sk s) : Kept kg sk (cutOp s) := by
  unfold cutOp
  repeat' (with_reducible first
    | assumption | refine kept_ite ?_ ?_ | refine cutVoid_kept ?_ | refine cutStageHead_kept ?_
    | refine cutProgram_kept ?_ | refine cutErase_kept ?_ | split | refine Kept.of_fst (by assumption) ?_
    | refine Kept.of_snd (by assumption) ?_ | dsimp only)

theorem cutFlash_kept {kg : Guard} {sk : State} {s : State} (hs : Kept kg sk s) : Kept kg sk (cutFlash s) := by
  unfold cutFlash
  repeat' (with_reducible first
    | assumption | refine journalUnlock_kept ?_ | refine freePeak_kept ?_ | refine modJournal_kept ?_
    | refine cutOp_kept ?_ | intro _ | split | dsimp only)

theorem journalRollback_kept {kg : Guard} {sk : State} {o : FlashObs} {st : Status} {s : State} (hs : Kept kg sk s) :
    Kept kg sk (journalRollback o st s) := by
  unfold journalRollback
  repeat' (with_reducible first
    | assumption | refine kept_ite ?_ ?_ | refine programFlash_kept ?_ | refine engineEnds_kept ?_
    | refine freePeak_kept ?_ | refine modJournal_kept ?_ | refine kept_id ?_ | refine kept_foldl ?_ ?_
    | refine kept_foldl1 ?_ ?_ | refine kept_foldl2 ?_ ?_ | intro _ | split
    | refine Kept.of_fst (by assumption) ?_ | refine Kept.of_snd (by assumption) ?_ | dsimp only)

theorem journalResume_kept {kg : Guard} {sk : State} {s : State} (hs : Kept kg sk s) : Kept kg sk (journalResume s)
    := by
  unfold journalResume
  repeat' (with_reducible first | assumption | refine modJournal_kept ?_ | intro _ | split | dsimp only)

theorem markFenced_kept {kg : Guard} {sk : State} {src : FaultSrc} {b : Block} {s : State} (hs : Kept kg sk s) : Kept
    kg sk (markFenced src b s) := by
  unfold markFenced
  repeat' (with_reducible first
    | assumption | refine kept_ite ?_ ?_
    | refine modWin_kept (by first | exact fun _ => rfl | exact fun _ h => h | exact fun h => h | (intro _; intros; split <;> first | rfl | assumption) | (intro _; intros; first | rfl | assumption)) ?_
    | intro _ | split | dsimp only)

theorem fenceReseat_kept {kg : Guard} {sk : State} {s : State} (hs : Kept kg sk s) : Kept kg sk (fenceReseat s) := by
  unfold fenceReseat
  repeat' (with_reducible first
    | assumption | refine modBoot_kept (fun _ => rfl) (fun _ h => h) ?_ | intro _ | split | dsimp only)

theorem fenceBlocks_kept {kg : Guard} {sk : State} {src : FaultSrc} {blocks : List Block} {engines : List Nat}
    {s : State} (hs : Kept kg sk s) : Kept kg sk (fenceBlocks src blocks engines s) := by
  unfold fenceBlocks
  repeat' (with_reducible first
    | assumption | refine pinSource_kept ?_ | refine markFenced_kept ?_ | refine fenceReseat_kept ?_
    | refine completeAll_kept ?_ | refine kept_foldl ?_ ?_ | refine kept_foldl1 ?_ ?_ | refine kept_foldl2 ?_ ?_
    | intro _ | split | dsimp only)

theorem fencePath_kept {kg : Guard} {sk : State} {p : Nat} {src : FaultSrc} {s : State} (hs : Kept kg sk s) : Kept kg
    sk (fencePath p src s) := by
  unfold fencePath
  repeat' (with_reducible first
    | assumption | refine kept_ite ?_ ?_ | refine pinSource_kept ?_
    | refine modWin_kept (by first | exact fun _ => rfl | exact fun _ h => h | exact fun h => h | (intro _; intros; split <;> first | rfl | assumption) | (intro _; intros; first | rfl | assumption)) ?_
    | refine fenceReseat_kept ?_ | refine setLevel_kept ?_ | refine completeAll_kept ?_ | intro _ | split
    | dsimp only)

theorem fenceJournal_kept {kg : Guard} {sk : State} {src : FaultSrc} {s : State} (hs : Kept kg sk s) : Kept kg sk
    (fenceJournal src s) := by
  unfold fenceJournal
  repeat' (with_reducible first
    | assumption | refine programFlash_kept ?_ | refine journalRollback_kept ?_ | refine stageFails_kept ?_
    | refine cutFlash_kept ?_ | refine fenceBlocks_kept ?_ | refine modJournal_kept ?_ | intro _ | split
    | refine Kept.of_fst (by assumption) ?_ | refine Kept.of_snd (by assumption) ?_ | dsimp only)

theorem fenceRadio_kept {kg : Guard} {sk : State} {src : FaultSrc} {s : State} (hs : Kept kg sk s) : Kept kg sk
    (fenceRadio src s) := by
  unfold fenceRadio
  repeat' (with_reducible first
    | assumption | refine kept_ite ?_ ?_ | refine modRadio_kept ?_ | refine endAct_kept ?_
    | refine fenceBlocks_kept ?_ | intro _ | split | dsimp only)

theorem dropTempRecord_kept {kg : Guard} {sk : State} {s : State} (hs : Kept kg sk s) : Kept kg sk (dropTempRecord s)
    := by
  unfold dropTempRecord
  repeat' (with_reducible first
    | assumption | refine releaseGran_kept ?_ | refine modTemp_kept ?_ | refine modGran_kept ?_ | intro _ | split
    | refine Kept.of_fst (by assumption) ?_ | refine Kept.of_snd (by assumption) ?_ | dsimp only)

theorem fenceUnit_kept {kg : Guard} {sk : State} {u : FaultUnit} {src : FaultSrc} {s : State} (hs : Kept kg sk s) :
    Kept kg sk (fenceUnit u src s) := by
  unfold fenceUnit
  repeat' (with_reducible first
    | assumption | refine kept_ite ?_ ?_ | refine fencePath_kept ?_ | refine fenceBlocks_kept ?_
    | refine modScribe_kept ?_ | refine completeAll_kept ?_ | refine dropTempRecord_kept ?_
    | refine fenceJournal_kept ?_ | refine fenceRadio_kept ?_ | refine enterOff_kept ?_ | refine unlockAs_kept ?_
    | refine endSessions_kept ?_ | refine abortLoads_kept ?_ | refine modLcd_kept ?_ | intro _ | split
    | refine Kept.of_fst (by assumption) ?_ | refine Kept.of_snd (by assumption) ?_ | dsimp only)

theorem enterGrave_kept {kg : Guard} {sk : State} {src : FaultSrc} {s : State} (hs : Kept kg sk s) : Kept kg sk
    (enterGrave src s) := by
  unfold enterGrave
  repeat' (with_reducible first
    | assumption | refine kept_ite ?_ ?_
    | refine modFaults_kept (by first | exact fun _ => rfl | exact fun _ h => h | exact fun h => h | (intro _; intros; split <;> first | rfl | assumption) | (intro _; intros; first | rfl | assumption)) (by first | exact fun _ => rfl | exact fun _ h => h | exact fun h => h | (intro _; intros; split <;> first | rfl | assumption) | (intro _; intros; first | rfl | assumption)) ?_
    | refine alarm_kept ?_ | refine drew_kept ?_ | refine fenceUnit_kept ?_ | refine markFenced_kept ?_
    | refine completeAll_kept ?_ | refine modProbe_kept ?_
    | refine modBoot_kept (by first | exact fun _ => rfl | exact fun _ h => h | exact fun h => h | (intro _; intros; split <;> first | rfl | assumption) | (intro _; intros; first | rfl | assumption)) (by first | exact fun _ => rfl | exact fun _ h => h | exact fun h => h | (intro _; intros; split <;> first | rfl | assumption) | (intro _; intros; first | rfl | assumption)) ?_
    | refine modFabric_kept ?_ | refine modMason_kept ?_ | refine kept_foldl ?_ ?_ | refine kept_foldl1 ?_ ?_
    | refine kept_foldl2 ?_ ?_ | intro _ | split | dsimp only)

theorem classReaction_kept {kg : Guard} {sk : State} {src : FaultSrc} {s : State} (hs : Kept kg sk s) : Kept kg sk
    (classReaction src s) := by
  unfold classReaction
  repeat' (with_reducible first
    | assumption | refine andThen_kept ?_ | split | refine Kept.of_fst (by assumption) ?_
    | refine Kept.of_snd (by assumption) ?_ | dsimp only)

theorem takeReaction_kept {kg : Guard} {sk : State} {r : Reaction} {s : State} (hs : Kept kg sk s) : Kept kg sk
    (takeReaction r s) := by
  unfold takeReaction
  repeat' (with_reducible first
    | assumption | refine enqueueEvent_kept ?_ | refine audit_kept ?_ | refine writeAudit_kept ?_
    | refine writeHistory_kept ?_ | refine classReaction_kept ?_ | refine fenceUnit_kept ?_
    | refine enterGrave_kept ?_ | refine afterPair_kept ?_ | refine kept_id ?_ | split
    | refine Kept.of_fst (by assumption) ?_ | refine Kept.of_snd (by assumption) ?_ | dsimp only)

theorem react_kept {k : Guard} {s0 : State} {fuel : Nat} {s : State} (hs : Kept k s0 s) :
    Kept k s0 (react fuel s) := by
  induction fuel generalizing s with
  | zero => exact hs
  | succ n ih =>
    unfold react
    split
    · exact hs
    · exact ih (takeReaction_kept (modFaults_kept (fun _ h => h) (fun _ => rfl) hs))

theorem loadLeft_kept {kg : Guard} {sk : State} {n : Nat} {s : State} (hs : Kept kg sk s) : Kept kg sk (loadLeft n s)
    := by
  unfold loadLeft
  repeat' (with_reducible first
    | assumption | refine kept_ite ?_ ?_ | refine modBoot_kept (fun _ => rfl) (fun _ h => h) ?_
    | refine lockedLoad_kept ?_ | intro _ | split | refine Kept.of_fst (by assumption) ?_
    | refine Kept.of_snd (by assumption) ?_ | dsimp only)

theorem resumeSlots_kept {kg : Guard} {sk : State} {s : State} (hs : Kept kg sk s) : Kept kg sk (resumeSlots s) := by
  unfold resumeSlots
  repeat' (with_reducible first
    | assumption | refine loadLeft_kept ?_ | refine kept_foldl ?_ ?_ | refine kept_foldl1 ?_ ?_
    | refine kept_foldl2 ?_ ?_ | intro _ | split | dsimp only)

theorem resumeCore_kept {kg : Guard} {sk : State} {s : State} (hs : Kept kg sk s) : Kept kg sk (resumeCore s) := by
  unfold resumeCore
  repeat' (with_reducible first
    | assumption | refine kept_ite ?_ ?_ | refine resumeSlots_kept ?_ | refine journalResume_kept ?_
    | refine modProbe_kept ?_ | refine modClock_kept ?_ | refine modMason_kept ?_ | intro _ | split | dsimp only)

theorem debugSync_kept {kg : Guard} {sk : State} {s : State} (hs : Kept kg sk s) : Kept kg sk (debugSync s) := by
  unfold debugSync
  repeat' (with_reducible first
    | assumption | refine kept_ite ?_ ?_ | refine resumeCore_kept ?_ | refine modFabric_kept ?_ | intro _ | split
    | dsimp only)

theorem aliveSync_kept {kg : Guard} {sk : State} {s : State} (hs : Kept kg sk s) : Kept kg sk (aliveSync s) := by
  unfold aliveSync
  repeat' (with_reducible first
    | assumption | refine kept_ite ?_ ?_ | refine modFaults_kept (fun _ h => h) (fun _ => rfl) ?_ | intro _
    | split | dsimp only)

theorem settle_kept {kg : Guard} {sk : State} {s : State} (hs : Kept kg sk s) : Kept kg sk (settle s) := by
  unfold settle
  repeat' (with_reducible first
    | assumption | refine aliveSync_kept ?_ | refine react_kept ?_ | refine grantPeak_kept ?_
    | refine journalLock_kept ?_ | refine runFlash_kept ?_ | refine debugSync_kept ?_ | refine linkSync_kept ?_
    | dsimp only)

theorem done_kept {k : Guard} {s0 u t : State} (hh : done u = .next t) (hs : Kept k s0 u) : Kept k s0 t := by
  cases hh
  exact settle_kept hs

end Sys2Proof.Machine
end

