-- ==== Sys2Proof/Laws/KeptMetrology.lean ====
section
/-! SUPPORT. What each operation of the metrology commands keeps. -/

namespace Sys2Proof.Machine

set_option linter.all false

theorem modChan_kept {kg : Guard} {sk : State} {n : Nat} {f : Chan → Chan} {s : State} (hs : Kept kg sk s) : Kept kg
    sk (modChan n f s) := by
  unfold modChan
  repeat' (with_reducible first | assumption | refine modTemp_kept ?_ | intro _ | split | dsimp only)

theorem modRun_kept {kg : Guard} {sk : State} {f : TempRun → TempRun} {s : State} (hs : Kept kg sk s) : Kept kg sk
    (modRun f s) := by
  unfold modRun
  repeat' (with_reducible first | assumption | refine modTemp_kept ?_ | intro _ | split | dsimp only)

theorem deliverChan_kept {kg : Guard} {sk : State} {n : Nat} {code : Nat} {x : InputRes} {cfg : TempItems}
    {s : State} (hs : Kept kg sk s) : Kept kg sk (deliverChan n code x cfg s) := by
  unfold deliverChan
  repeat' (with_reducible first
    | assumption | refine kept_ite ?_ ?_ | refine setLevel_kept ?_ | refine modChan_kept ?_
    | refine raiseIf_kept ?_ | refine kept_getD ?_ ?_ | intro _ | split | dsimp only)

theorem deliverRef_kept {kg : Guard} {sk : State} {cfg : TempItems} {x : InputRes} {s : State} (hs : Kept kg sk s) :
    Kept kg sk (deliverRef cfg x s) := by
  unfold deliverRef
  repeat' (with_reducible first
    | assumption | refine kept_ite ?_ ?_ | refine setLevel_kept ?_ | refine modTemp_kept ?_ | intro _ | split
    | dsimp only)

theorem deliverBridge_kept {kg : Guard} {sk : State} {cfg : TempItems} {x : InputRes} {s : State} (hs : Kept kg sk s)
    : Kept kg sk (deliverBridge cfg x s).1 := by
  unfold deliverBridge
  repeat' (with_reducible first
    | assumption | refine kept_ite ?_ ?_ | refine setLevel_kept ?_ | refine modTemp_kept ?_
    | refine raiseIf_kept ?_ | refine kept_getD ?_ ?_ | intro _ | split | refine Kept.of_fst (by assumption) ?_
    | refine Kept.of_snd (by assumption) ?_ | dsimp only)

theorem swapTest_kept {kg : Guard} {sk : State} {cfg : TempItems} {flowOk : Bool} {s : State} (hs : Kept kg sk s) :
    Kept kg sk (swapTest cfg flowOk s) := by
  unfold swapTest
  repeat' (with_reducible first
    | assumption | refine kept_ite ?_ ?_ | refine modTemp_kept ?_ | refine setLevel_kept ?_ | intro _ | split
    | refine Kept.of_fst (by assumption) ?_ | refine Kept.of_snd (by assumption) ?_ | dsimp only)

theorem publishTemp_kept {kg : Guard} {sk : State} {j : Job} {s : State} (hs : Kept kg sk s) : Kept kg sk
    (publishTemp j s) := by
  unfold publishTemp
  repeat' (with_reducible first
    | assumption | refine kept_ite ?_ ?_ | refine modTemp_kept ?_ | refine modGran_kept ?_
    | refine releaseGran_kept ?_ | intro _ | split | refine Kept.of_fst (by assumption) ?_
    | refine Kept.of_snd (by assumption) ?_ | dsimp only)

theorem unusedChan_kept {kg : Guard} {sk : State} {cfg : TempItems} {n : Nat} {s : State} (hs : Kept kg sk s) : Kept
    kg sk (unusedChan cfg n s) := by
  unfold unusedChan
  repeat' (with_reducible first
    | assumption | refine kept_ite ?_ ?_ | refine modChan_kept ?_ | intro _ | split | dsimp only)

theorem finishSet_kept {kg : Guard} {sk : State} {r : TempRun} {s : State} (hs : Kept kg sk s) : Kept kg sk
    (finishSet r s) := by
  unfold finishSet
  repeat' (with_reducible first
    | assumption | refine kept_ite ?_ ?_ | refine deliverRef_kept ?_ | refine modTemp_kept ?_
    | refine deliverChan_kept ?_ | refine unusedChan_kept ?_ | refine deliverBridge_kept ?_
    | refine swapTest_kept ?_ | refine engineEnds_kept ?_ | refine drew_kept ?_ | refine kept_foldl ?_ ?_
    | refine kept_foldl1 ?_ ?_ | refine kept_foldl2 ?_ ?_ | intro _ | split
    | refine Kept.of_fst (by assumption) ?_ | refine Kept.of_snd (by assumption) ?_ | dsimp only)

theorem finishProbe_kept {kg : Guard} {sk : State} {r : TempRun} {input : Nat} {s : State} (hs : Kept kg sk s) : Kept
    kg sk (finishProbe r input s) := by
  unfold finishProbe
  repeat' (with_reducible first
    | assumption | refine kept_ite ?_ ?_ | refine engineEnds_kept ?_ | refine drew_kept ?_
    | refine modTemp_kept ?_ | intro _ | split | dsimp only)

theorem nextInput_kept {kg : Guard} {sk : State} {r : TempRun} {s : State} (hs : Kept kg sk s) : Kept kg sk
    (nextInput r s) := by
  unfold nextInput
  repeat' (with_reducible first
    | assumption | refine kept_ite ?_ ?_ | refine modTemp_kept ?_ | refine finishProbe_kept ?_
    | refine finishSet_kept ?_ | intro _ | split | refine Kept.of_fst (by assumption) ?_
    | refine Kept.of_snd (by assumption) ?_ | dsimp only)

theorem syncPulse_kept {kg : Guard} {sk : State} {key : Option Nat} {s : State} (hs : Kept kg sk s) : Kept kg sk
    (syncPulse key s) := by
  unfold syncPulse
  repeat' (with_reducible first
    | assumption | refine kept_ite ?_ ?_ | refine settle_kept ?_ | refine modTemp_kept ?_
    | refine nextInput_kept ?_ | refine modRun_kept ?_ | intro _ | split | refine Kept.of_fst (by assumption) ?_
    | refine Kept.of_snd (by assumption) ?_ | dsimp only)

theorem execTempTrigger_kept {kg : Guard} {s : State} {kr : State} (hh : execTempTrigger s = .next kr) : Kept kg s kr
    := by
  have hs := Kept.refl kg s
  unfold execTempTrigger at hh
  first | refine done_kept hh ?_ | refine rated_kept hh ?_
  repeat' (with_reducible first | assumption | refine kept_ite ?_ ?_ | refine fireTrigger_kept ?_ | split | dsimp only)

theorem tempSetJob_kept {kg : Guard} {sk : State} {j : Job} {s : State} (hs : Kept kg sk s) : Kept kg sk
    (tempSetJob j s) := by
  unfold tempSetJob
  repeat' (with_reducible first
    | assumption | refine kept_ite ?_ ?_ | refine finishSet_kept ?_ | refine modTemp_kept ?_ | refine kept_id ?_
    | refine kept_getD ?_ ?_ | intro _ | split | dsimp only)

theorem execTempSet_kept {kg : Guard} {tag : Nat} {s : State} {kr : State} (hh : execTempSet tag s = .next kr) : Kept
    kg s kr := by
  have hs := Kept.refl kg s
  unfold execTempSet at hh
  first | refine done_kept hh ?_ | refine rated_kept hh ?_
  repeat' (with_reducible first
    | assumption | refine onJob_kept ?_ ?_ | refine tempSetJob_kept ?_ | intro _ | dsimp only)

theorem execExcSettleEnd_kept {kg : Guard} {s : State} {kr : State} (hh : execExcSettleEnd s = .next kr) : Kept kg s
    kr := by
  have hs := Kept.refl kg s
  unfold execExcSettleEnd at hh
  first | refine done_kept hh ?_ | refine rated_kept hh ?_
  repeat' (with_reducible first
    | assumption | refine kept_ite ?_ ?_ | refine settle_kept ?_ | refine modRun_kept ?_ | intro _ | split
    | refine Kept.of_fst (by assumption) ?_ | refine Kept.of_snd (by assumption) ?_ | dsimp only)

theorem noteConv_kept {kg : Guard} {sk : State} {input : Nat} {isA : Bool} {code : Int} {s : State}
    (hs : Kept kg sk s) : Kept kg sk (noteConv input isA code s) := by
  unfold noteConv
  repeat' (with_reducible first
    | assumption | refine kept_ite ?_ ?_ | refine modChan_kept ?_ | refine modTemp_kept ?_ | intro _ | split
    | dsimp only)

theorem execConversionEnd_kept {kg : Guard} {vin : Int} {vref : Int} {limit : Bool} {ua : Nat} {s : State}
    {kr : State} (hh : execConversionEnd vin vref limit ua s = .next kr) : Kept kg s kr := by
  have hs := Kept.refl kg s
  unfold execConversionEnd at hh
  first | refine done_kept hh ?_ | refine rated_kept hh ?_
  repeat' (with_reducible first
    | assumption | refine kept_ite ?_ ?_ | refine modTemp_kept ?_ | refine settle_kept ?_ | refine modRun_kept ?_
    | refine noteConv_kept ?_ | refine nextInput_kept ?_ | intro _ | split | refine Kept.of_fst (by assumption) ?_
    | refine Kept.of_snd (by assumption) ?_ | dsimp only)

theorem chProbeJob_kept {kg : Guard} {sk : State} {j : Job} {s : State} (hs : Kept kg sk s) : Kept kg sk
    (chProbeJob j s) := by
  unfold chProbeJob
  repeat' (with_reducible first
    | assumption | refine kept_ite ?_ ?_ | refine engineEnds_kept ?_ | refine drew_kept ?_
    | refine modTemp_kept ?_ | refine kept_id ?_ | intro _ | split | dsimp only)

theorem execChProbe_kept {kg : Guard} {tag : Nat} {s : State} {kr : State} (hh : execChProbe tag s = .next kr) : Kept
    kg s kr := by
  have hs := Kept.refl kg s
  unfold execChProbe at hh
  first | refine done_kept hh ?_ | refine rated_kept hh ?_
  repeat' (with_reducible first
    | assumption | refine onJob_kept ?_ ?_ | refine chProbeJob_kept ?_ | intro _ | dsimp only)

theorem writeTamper_kept {kg : Guard} {sk : State} {e : TamperEvent} {s : State} (hs : Kept kg sk s) : Kept kg sk
    (writeTamper e s) := by
  unfold writeTamper
  repeat' (with_reducible first | assumption | refine submitRecord_kept ?_ | refine clearStepSum_kept ?_ | dsimp only)

theorem noteTamper_kept {kg : Guard} {sk : State} {e : TamperEvent} {s : State} (hs : Kept kg sk s) : Kept kg sk
    (noteTamper e s) := by
  unfold noteTamper
  repeat' (with_reducible first
    | assumption | refine kept_ite ?_ ?_ | refine modTamper_kept ?_ | refine writeTamper_kept ?_ | intro _ | split
    | dsimp only)

theorem drainTamper_kept {kg : Guard} {sk : State} {s : State} (hs : Kept kg sk s) : Kept kg sk (drainTamper s) := by
  unfold drainTamper
  repeat' (with_reducible first
    | assumption | refine writeTamper_kept ?_ | refine modTamper_kept ?_ | refine kept_foldl ?_ ?_
    | refine kept_foldl1 ?_ ?_ | refine kept_foldl2 ?_ ?_ | intro _ | split | dsimp only)

theorem tamperAction_kept {kg : Guard} {sk : State} {n : Nat} {s : State} (hs : Kept kg sk s) : Kept kg sk
    (tamperAction n s) := by
  unfold tamperAction
  repeat' (with_reducible first
    | assumption | refine kept_ite ?_ ?_ | refine raise_kept ?_ | refine modTamper_kept ?_
    | refine alarmBy_kept ?_ | intro _ | split | dsimp only)

theorem openTamper_kept {kg : Guard} {sk : State} {n : Nat} {dt : Nat} {tick : Nat} {s : State} (hs : Kept kg sk s) :
    Kept kg sk (openTamper n dt tick s) := by
  unfold openTamper
  repeat' (with_reducible first
    | assumption | refine kept_ite ?_ ?_ | refine modTamper_kept ?_ | refine tamperAction_kept ?_
    | refine noteTamper_kept ?_ | intro _ | split | dsimp only)

theorem closeTamper_kept {kg : Guard} {sk : State} {n : Nat} {dt : Nat} {tick : Nat} {detail : Nat} {s : State}
    (hs : Kept kg sk s) : Kept kg sk (closeTamper n dt tick detail s) := by
  unfold closeTamper
  repeat' (with_reducible first
    | assumption | refine kept_ite ?_ ?_ | refine modTamper_kept ?_ | refine noteTamper_kept ?_ | intro _ | split
    | dsimp only)

theorem tamperReverse_kept {kg : Guard} {sk : State} {reverse : Bool} {grown : Nat} {ticks : Nat} {dt : Nat}
    {s : State} (hs : Kept kg sk s) : Kept kg sk (tamperReverse reverse grown ticks dt s) := by
  unfold tamperReverse
  repeat' (with_reducible first
    | assumption | refine kept_ite ?_ ?_ | refine modTamper_kept ?_ | refine openTamper_kept ?_
    | refine closeTamper_kept ?_ | intro _ | split | dsimp only)

theorem tamperLeak_kept {kg : Guard} {sk : State} {q : Int} {ticks : Nat} {dt : Nat} {s : State} (hs : Kept kg sk s)
    : Kept kg sk (tamperLeak q ticks dt s) := by
  unfold tamperLeak
  repeat' (with_reducible first
    | assumption | refine kept_ite ?_ ?_ | refine modTamper_kept ?_ | refine openTamper_kept ?_
    | refine closeTamper_kept ?_ | intro _ | split | dsimp only)

theorem tamperReturn_kept {kg : Guard} {sk : State} {stat : Nat} {dt : Nat} {s : State} (hs : Kept kg sk s) : Kept kg
    sk (tamperReturn stat dt s) := by
  unfold tamperReturn
  repeat' (with_reducible first
    | assumption | refine kept_ite ?_ ?_ | refine openTamper_kept ?_ | refine closeTamper_kept ?_ | split
    | dsimp only)

theorem modDeb_kept {kg : Guard} {sk : State} {n : Nat} {f : DebInput → DebInput} {s : State} (hs : Kept kg sk s) :
    Kept kg sk (modDeb n f s) := by
  unfold modDeb
  repeat' (with_reducible first
    | assumption | refine kept_ite ?_ ?_ | refine modTamper_kept ?_ | intro _ | split | dsimp only)

theorem execTamperInputChange_kept {kg : Guard} {n : Nat} {level : Bool} {s : State} {kr : State}
    (hh : execTamperInputChange n level s = .next kr) : Kept kg s kr := by
  have hs := Kept.refl kg s
  unfold execTamperInputChange at hh
  first | refine done_kept hh ?_ | refine rated_kept hh ?_
  repeat' (with_reducible first
    | assumption | refine kept_ite ?_ ?_ | refine modDeb_kept ?_ | intro _ | split | dsimp only)

theorem execTamperDebounceEnd_kept {kg : Guard} {n : Nat} {s : State} {kr : State}
    (hh : execTamperDebounceEnd n s = .next kr) : Kept kg s kr := by
  have hs := Kept.refl kg s
  unfold execTamperDebounceEnd at hh
  first | refine done_kept hh ?_ | refine rated_kept hh ?_
  repeat' (with_reducible first
    | assumption | refine kept_ite ?_ ?_ | refine modDeb_kept ?_ | refine openTamper_kept ?_
    | refine closeTamper_kept ?_ | intro _ | split | dsimp only)

theorem execPulseEdge_kept {kg : Guard} {n : Nat} {leading : Bool} {run : InputRun} {s : State} {kr : State}
    (hh : execPulseEdge n leading run s = .next kr) : Kept kg s kr := by
  have hs := Kept.refl kg s
  unfold execPulseEdge at hh
  first | refine done_kept hh ?_ | refine rated_kept hh ?_
  repeat' (with_reducible first
    | assumption | refine kept_ite ?_ ?_ | refine modTamper_kept ?_ | refine raiseIf_kept ?_ | intro _ | split
    | refine Kept.of_fst (by assumption) ?_ | refine Kept.of_snd (by assumption) ?_ | dsimp only)

theorem execBypassWindow_kept {kg : Guard} {s : State} {kr : State} (hh : execBypassWindow s = .next kr) : Kept kg s
    kr := by
  have hs := Kept.refl kg s
  unfold execBypassWindow at hh
  first | refine done_kept hh ?_ | refine rated_kept hh ?_
  repeat' (with_reducible first
    | assumption | refine kept_ite ?_ ?_ | refine modTamper_kept ?_ | refine openTamper_kept ?_
    | refine closeTamper_kept ?_ | intro _ | split | dsimp only)

theorem tamperAckJob_kept {kg : Guard} {sk : State} {j : Job} {s : State} (hs : Kept kg sk s) : Kept kg sk
    (tamperAckJob j s) := by
  unfold tamperAckJob
  repeat' (with_reducible first
    | assumption | refine kept_ite ?_ ?_ | refine engineEnds_kept ?_ | refine modTamper_kept ?_
    | refine kept_id ?_ | refine kept_foldl ?_ ?_ | refine kept_foldl1 ?_ ?_ | refine kept_foldl2 ?_ ?_ | intro _
    | split | dsimp only)

theorem execTamperAck_kept {kg : Guard} {tag : Nat} {s : State} {kr : State} (hh : execTamperAck tag s = .next kr) :
    Kept kg s kr := by
  have hs := Kept.refl kg s
  unfold execTamperAck at hh
  first | refine done_kept hh ?_ | refine rated_kept hh ?_
  repeat' (with_reducible first
    | assumption | refine onJob_kept ?_ ?_ | refine tamperAckJob_kept ?_ | intro _ | dsimp only)

theorem commitInteg_kept {kg : Guard} {sk : State} {f : IntegCopy → IntegCopy} {s : State} (hs : Kept kg sk s) : Kept
    kg sk (commitInteg f s) := by
  unfold commitInteg
  repeat' (with_reducible first | assumption | refine modInteg_kept ?_ | intro _ | split | dsimp only)

theorem tamperSource_kept {kg : Guard} {sk : State} {p : StepPlan} {x : StepIn} {n : Nat} {s : State}
    (hs : Kept kg sk s) : Kept kg sk (tamperSource p x n s) := by
  unfold tamperSource
  repeat' (with_reducible first
    | assumption | refine kept_ite ?_ ?_ | refine tamperReverse_kept ?_ | refine tamperReturn_kept ?_
    | refine tamperLeak_kept ?_ | split | refine Kept.of_fst (by assumption) ?_
    | refine Kept.of_snd (by assumption) ?_ | dsimp only)

theorem tamperStep_kept {kg : Guard} {sk : State} {p : StepPlan} {x : StepIn} {s : State} (hs : Kept kg sk s) : Kept
    kg sk (tamperStep p x s) := by
  unfold tamperStep
  repeat' (with_reducible first
    | assumption | refine tamperSource_kept ?_ | refine kept_foldl ?_ ?_ | refine kept_foldl1 ?_ ?_
    | refine kept_foldl2 ?_ ?_ | intro _ | split | dsimp only)

theorem stepJob_kept {kg : Guard} {sk : State} {j : Job} {s : State} (hs : Kept kg sk s) : Kept kg sk (stepJob j s)
    := by
  unfold stepJob
  repeat' (with_reducible first
    | assumption | refine kept_ite ?_ ?_ | refine engineEnds_kept ?_ | refine commitInteg_kept ?_
    | refine modInteg_kept ?_ | refine raiseIf_kept ?_ | refine setLevel_kept ?_ | refine tamperStep_kept ?_
    | refine kept_id ?_ | refine kept_getD ?_ ?_ | intro _ | split | dsimp only)

theorem execStep_kept {kg : Guard} {tag : Nat} {s : State} {kr : State} (hh : execStep tag s = .next kr) : Kept kg s
    kr := by
  have hs := Kept.refl kg s
  unfold execStep at hh
  first | refine done_kept hh ?_ | refine rated_kept hh ?_
  repeat' (with_reducible first | assumption | refine onJob_kept ?_ ?_ | refine stepJob_kept ?_ | intro _ | dsimp only)

theorem accResetJob_kept {kg : Guard} {sk : State} {j : Job} {s : State} (hs : Kept kg sk s) : Kept kg sk
    (accResetJob j s) := by
  unfold accResetJob
  repeat' (with_reducible first
    | assumption | refine kept_ite ?_ ?_ | refine engineEnds_kept ?_ | refine commitInteg_kept ?_
    | refine modTamper_kept ?_ | refine kept_id ?_ | intro _ | split | dsimp only)

theorem execAccReset_kept {kg : Guard} {tag : Nat} {s : State} {kr : State} (hh : execAccReset tag s = .next kr) :
    Kept kg s kr := by
  have hs := Kept.refl kg s
  unfold execAccReset at hh
  first | refine done_kept hh ?_ | refine rated_kept hh ?_
  repeat' (with_reducible first
    | assumption | refine onJob_kept ?_ ?_ | refine accResetJob_kept ?_ | intro _ | dsimp only)

theorem execErrorRun_kept {kg : Guard} {s : State} {kr : State} (hh : execErrorRun s = .next kr) : Kept kg s kr := by
  have hs := Kept.refl kg s
  unfold execErrorRun at hh
  first | refine done_kept hh ?_ | refine rated_kept hh ?_
  repeat' (with_reducible first | assumption | refine kept_ite ?_ ?_ | refine setLevel_kept ?_ | split | dsimp only)

theorem billPoint_kept {kg : Guard} {sk : State} {s : State} (hs : Kept kg sk s) : Kept kg sk (billPoint s) := by
  unfold billPoint
  repeat' (with_reducible first
    | assumption | refine kept_ite ?_ ?_ | refine modBill_kept ?_ | refine masonEvent_kept ?_ | intro _ | split
    | dsimp only)

theorem evaluateCalendar_kept {kg : Guard} {sk : State} {s : State} (hs : Kept kg sk s) : Kept kg sk
    (evaluateCalendar s) := by
  unfold evaluateCalendar
  repeat' (with_reducible first
    | assumption | refine kept_ite ?_ ?_ | refine modBill_kept ?_ | refine billPoint_kept ?_
    | refine masonEvent_kept ?_ | refine modInteg_kept ?_ | intro _ | split
    | refine Kept.of_fst (by assumption) ?_ | refine Kept.of_snd (by assumption) ?_ | dsimp only)

theorem execCalendarEvaluate_kept {kg : Guard} {s : State} {kr : State} (hh : execCalendarEvaluate s = .next kr) :
    Kept kg s kr := by
  have hs := Kept.refl kg s
  unfold execCalendarEvaluate at hh
  first | refine done_kept hh ?_ | refine rated_kept hh ?_
  repeat' (with_reducible first
    | assumption | refine kept_ite ?_ ?_ | refine evaluateCalendar_kept ?_ | refine modTime_kept (fun _ => rfl) ?_
    | intro _ | split | dsimp only)

theorem execTarInChange_kept {kg : Guard} {run : InputRun} {s : State} {kr : State}
    (hh : execTarInChange run s = .next kr) : Kept kg s kr := by
  have hs := Kept.refl kg s
  unfold execTarInChange at hh
  first | refine done_kept hh ?_ | refine rated_kept hh ?_
  repeat' (with_reducible first
    | assumption | refine kept_ite ?_ ?_ | refine modBill_kept ?_ | intro _ | split | dsimp only)

theorem snapRequestJob_kept {kg : Guard} {sk : State} {j : Job} {s : State} (hs : Kept kg sk s) : Kept kg sk
    (snapRequestJob j s) := by
  unfold snapRequestJob
  repeat' (with_reducible first
    | assumption | refine kept_ite ?_ ?_ | refine engineEnds_kept ?_ | refine masonEvent_kept ?_
    | refine modJob_kept ?_ | refine kept_id ?_ | intro _ | split | dsimp only)

theorem execSnapRequest_kept {kg : Guard} {tag : Nat} {s : State} {kr : State}
    (hh : execSnapRequest tag s = .next kr) : Kept kg s kr := by
  have hs := Kept.refl kg s
  unfold execSnapRequest at hh
  first | refine done_kept hh ?_ | refine rated_kept hh ?_
  repeat' (with_reducible first
    | assumption | refine onJob_kept ?_ ?_ | refine snapRequestJob_kept ?_ | intro _ | dsimp only)

theorem billLevel_kept {kg : Guard} {sk : State} {s : State} (hs : Kept kg sk s) : Kept kg sk (billLevel s) := by
  unfold billLevel
  repeat' (with_reducible first | assumption | refine setLevel_kept ?_ | intro _ | split | dsimp only)

theorem journalSlot_kept {kg : Guard} {sk : State} {n : Nat} {s : State} (hs : Kept kg sk s) : Kept kg sk
    (journalSlot n s) := by
  unfold journalSlot
  repeat' (with_reducible first
    | assumption | refine kept_ite ?_ ?_ | refine submitRecord_kept ?_ | intro _ | split | dsimp only)

theorem journalSlots_kept {kg : Guard} {sk : State} {s : State} (hs : Kept kg sk s) : Kept kg sk (journalSlots s) :=
    by
  unfold journalSlots
  repeat' (with_reducible first | assumption | refine kept_ite ?_ ?_ | refine journalSlot_kept ?_ | split | dsimp only)

theorem billJournaled_kept {kg : Guard} {sk : State} {payload : List Byte} {s : State} (hs : Kept kg sk s) : Kept kg
    sk (billJournaled payload s) := by
  unfold billJournaled
  repeat' (with_reducible first
    | assumption | refine kept_ite ?_ ?_ | refine billLevel_kept ?_ | refine modBill_kept ?_ | intro _ | split
    | dsimp only)

theorem commitSnapshot_kept {kg : Guard} {sk : State} {reason : Nat} {s : State} (hs : Kept kg sk s) : Kept kg sk
    (commitSnapshot reason s) := by
  unfold commitSnapshot
  repeat' (with_reducible first
    | assumption | refine kept_ite ?_ ?_ | refine modBill_kept ?_ | refine clearStepSum_kept ?_
    | refine modTamper_kept ?_ | refine commitInteg_kept ?_ | refine raiseIf_kept ?_ | refine billLevel_kept ?_
    | refine kept_getD ?_ ?_ | intro _ | split | refine Kept.of_fst (by assumption) ?_
    | refine Kept.of_snd (by assumption) ?_ | dsimp only)

theorem undoSnapshot_kept {kg : Guard} {sk : State} {job : Nat} {s : State} (hs : Kept kg sk s) : Kept kg sk
    (undoSnapshot job s) := by
  unfold undoSnapshot
  repeat' (with_reducible first
    | assumption | refine kept_ite ?_ ?_ | refine modBill_kept ?_ | refine billLevel_kept ?_
    | refine modTamper_kept ?_ | refine commitInteg_kept ?_ | intro _ | split
    | refine Kept.of_fst (by assumption) ?_ | refine Kept.of_snd (by assumption) ?_ | dsimp only)

theorem endRequest_kept {kg : Guard} {sk : State} {r : JobResult} {s : State} (hs : Kept kg sk s) : Kept kg sk
    (endRequest r s) := by
  unfold endRequest
  repeat' (with_reducible first
    | assumption | refine kept_ite ?_ ?_ | refine engineEnds_kept ?_ | refine modBill_kept ?_ | refine kept_id ?_
    | intro _ | split | refine Kept.of_fst (by assumption) ?_ | refine Kept.of_snd (by assumption) ?_ | dsimp only)

theorem snapshotDone_kept {kg : Guard} {sk : State} {j : Job} {r : JobResult} {s : State} (hs : Kept kg sk s) : Kept
    kg sk (snapshotDone j r s) := by
  unfold snapshotDone
  repeat' (with_reducible first
    | assumption | refine kept_ite ?_ ?_ | refine journalSlot_kept ?_ | refine modBill_kept ?_
    | refine endRequest_kept ?_ | intro _ | split | dsimp only)

theorem billCommitJob_kept {kg : Guard} {sk : State} {j : Job} {s : State} (hs : Kept kg sk s) : Kept kg sk
    (billCommitJob j s) := by
  unfold billCommitJob
  repeat' (with_reducible first
    | assumption | refine kept_ite ?_ ?_ | refine engineEnds_kept ?_ | refine commitSnapshot_kept ?_
    | refine modBill_kept ?_ | refine kept_id ?_ | intro _ | split | refine Kept.of_fst (by assumption) ?_
    | refine Kept.of_snd (by assumption) ?_ | dsimp only)

theorem execBillCommit_kept {kg : Guard} {tag : Nat} {s : State} {kr : State} (hh : execBillCommit tag s = .next kr)
    : Kept kg s kr := by
  have hs := Kept.refl kg s
  unfold execBillCommit at hh
  first | refine done_kept hh ?_ | refine rated_kept hh ?_
  repeat' (with_reducible first
    | assumption | refine onJob_kept ?_ ?_ | refine billCommitJob_kept ?_ | intro _ | dsimp only)

theorem modPair_kept {kg : Guard} {sk : State} {f : PairRun → PairRun} {s : State} (hs : Kept kg sk s) : Kept kg sk
    (modPair f s) := by
  unfold modPair
  repeat' (with_reducible first | assumption | refine modShot_kept ?_ | intro _ | split | dsimp only)

theorem heldSince_kept {kg : Guard} {sk : State} {late : Nat} {id : Nat} {s : State} (hs : Kept kg sk s) : Kept kg sk
    (heldSince late id s) := by
  unfold heldSince
  repeat' (with_reducible first
    | assumption | refine kept_ite ?_ ?_ | refine modJob_kept ?_ | refine kept_id ?_ | intro _ | split
    | dsimp only)

theorem shotMoves_kept {kg : Guard} {sk : State} {s : State} (hs : Kept kg sk s) : Kept kg sk (shotMoves s) := by
  unfold shotMoves
  repeat' (with_reducible first
    | assumption | refine drawUpTo_kept ?_ | refine modFabric_kept ?_ | refine modShot_kept ?_ | intro _ | split
    | refine Kept.of_fst (by assumption) ?_ | refine Kept.of_snd (by assumption) ?_ | dsimp only)

theorem shotSubmit_kept {kg : Guard} {sk : State} {instant : Nat} {s : State} (hs : Kept kg sk s) : Kept kg sk
    (shotSubmit instant s) := by
  unfold shotSubmit
  repeat' (with_reducible first
    | assumption | refine heldSince_kept ?_ | refine submitTrigger_kept ?_ | refine chipJob_kept ?_ | split
    | refine Kept.of_fst (by assumption) ?_ | refine Kept.of_snd (by assumption) ?_ | dsimp only)

theorem execShotTrigger_kept {kg : Guard} {s : State} {kr : State} (hh : execShotTrigger s = .next kr) : Kept kg s kr
    := by
  have hs := Kept.refl kg s
  unfold execShotTrigger at hh
  first | refine done_kept hh ?_ | refine rated_kept hh ?_
  repeat' (with_reducible first
    | assumption | refine kept_ite ?_ ?_ | refine shotSubmit_kept ?_ | refine shotMoves_kept ?_ | split
    | dsimp only)

theorem shotPairJob_kept {kg : Guard} {sk : State} {j : Job} {s : State} (hs : Kept kg sk s) : Kept kg sk
    (shotPairJob j s) := by
  unfold shotPairJob
  repeat' (with_reducible first
    | assumption | refine kept_ite ?_ ?_ | refine engineEnds_kept ?_ | refine modShotPath_kept ?_
    | refine modShot_kept ?_ | refine kept_id ?_ | intro _ | split | dsimp only)

theorem execShotPair_kept {kg : Guard} {tag : Nat} {s : State} {kr : State} (hh : execShotPair tag s = .next kr) :
    Kept kg s kr := by
  have hs := Kept.refl kg s
  unfold execShotPair at hh
  first | refine done_kept hh ?_ | refine rated_kept hh ?_
  repeat' (with_reducible first
    | assumption | refine onJob_kept ?_ ?_ | refine shotPairJob_kept ?_ | intro _ | dsimp only)

theorem modLine_kept {kg : Guard} {sk : State} {p : Nat} {isUp : Bool} {f : LineSt → LineSt} {s : State}
    (hs : Kept kg sk s) : Kept kg sk (modLine p isUp f s) := by
  unfold modLine
  repeat' (with_reducible first
    | assumption | refine kept_ite ?_ ?_ | refine modPath_kept ?_ | intro _ | split | dsimp only)

theorem checkLine_kept {kg : Guard} {sk : State} {p : Nat} {isUp : Bool} {extra : Bool} {o : LineObs} {s : State}
    (hs : Kept kg sk s) : Kept kg sk (checkLine p isUp extra o s).1 := by
  unfold checkLine
  repeat' (with_reducible first
    | assumption | refine kept_ite ?_ ?_ | refine drew_kept ?_ | refine modLine_kept ?_ | refine raise_kept ?_
    | refine modPath_kept ?_ | intro _ | split | refine Kept.of_fst (by assumption) ?_
    | refine Kept.of_snd (by assumption) ?_ | dsimp only)

theorem checkLines_kept {kg : Guard} {sk : State} {p : Nat} {isUp : Bool} {excess : Bool} {tx : LineObs}
    {rx : LineObs} {s : State} (hs : Kept kg sk s) : Kept kg sk (checkLines p isUp excess tx rx s).1 := by
  unfold checkLines
  repeat' (with_reducible first
    | assumption | refine kept_ite ?_ ?_ | refine checkLine_kept ?_ | refine modPath_kept ?_
    | refine raise_kept ?_ | intro _ | split | refine Kept.of_fst (by assumption) ?_
    | refine Kept.of_snd (by assumption) ?_ | dsimp only)

theorem thrEvaluate_kept {kg : Guard} {sk : State} {p : Nat} {up : DirRec} {dn : DirRec} {s : State}
    (hs : Kept kg sk s) : Kept kg sk (thrEvaluate p up dn s) := by
  unfold thrEvaluate
  repeat' (with_reducible first
    | assumption | refine kept_ite ?_ ?_ | refine modPath_kept ?_ | intro _ | split | dsimp only)

theorem pairChecks_kept {kg : Guard} {sk : State} {p : Nat} {up : DirRec} {dn : DirRec} {s : State}
    (hs : Kept kg sk s) : Kept kg sk (pairChecks p up dn s) := by
  unfold pairChecks
  repeat' (with_reducible first
    | assumption | refine kept_ite ?_ ?_ | refine modPath_kept ?_ | refine setLevel_kept ?_
    | refine raiseIf_kept ?_ | intro _ | split | dsimp only)

theorem countOutcome_kept {kg : Guard} {sk : State} {p : Nat} {t : PairTest} {s : State} (hs : Kept kg sk s) : Kept
    kg sk (countOutcome p t s) := by
  unfold countOutcome
  repeat' (with_reducible first
    | assumption | refine kept_ite ?_ ?_ | refine modShotPath_kept ?_ | refine raiseIf_kept ?_
    | refine kept_getD ?_ ?_ | intro _ | split | dsimp only)

theorem plumbRecord_kept {kg : Guard} {sk : State} {p : Nat} {outcome : Nat} {e : Int} {s : State}
    (hs : Kept kg sk s) : Kept kg sk (plumbRecord p outcome e s) := by
  unfold plumbRecord
  repeat' (with_reducible first
    | assumption | refine kept_ite ?_ ?_ | refine modShotPath_kept ?_ | refine writeEvent_kept ?_ | intro _
    | split | dsimp only)

theorem plumbSkip_kept {kg : Guard} {sk : State} {p : Nat} {s : State} (hs : Kept kg sk s) : Kept kg sk
    (plumbSkip p s) := by
  unfold plumbSkip
  repeat' (with_reducible first
    | assumption | refine plumbRecord_kept ?_ | refine modShotPath_kept ?_ | intro _ | split | dsimp only)

theorem plumbApply_kept {kg : Guard} {sk : State} {p : Nat} {normal : Int} {plumb : Int} {s : State}
    (hs : Kept kg sk s) : Kept kg sk (plumbApply p normal plumb s).1 := by
  unfold plumbApply
  repeat' (with_reducible first
    | assumption | refine kept_ite ?_ ?_ | refine modShotPath_kept ?_ | refine plumbRecord_kept ?_
    | refine raise_kept ?_ | refine raiseIf_kept ?_ | intro _ | split | dsimp only)

theorem endPair_kept {kg : Guard} {sk : State} {r : PairRun} {t : PairTest} {records : List DirRec} {plumbed : Bool}
    {applied : Bool} {s : State} (hs : Kept kg sk s) : Kept kg sk (endPair r t records plumbed applied s) := by
  unfold endPair
  repeat' (with_reducible first
    | assumption | refine kept_ite ?_ ?_ | refine drew_kept ?_ | refine setEval_kept ?_
    | refine modShotPath_kept ?_ | refine modShot_kept ?_ | refine engineEnds_kept ?_ | refine kept_getD ?_ ?_
    | intro _ | split | dsimp only)

theorem pairEnds_kept {kg : Guard} {sk : State} {r : PairRun} {s : State} (hs : Kept kg sk s) : Kept kg sk
    (pairEnds r s) := by
  unfold pairEnds
  repeat' (with_reducible first
    | assumption | refine kept_ite ?_ ?_ | refine plumbApply_kept ?_ | refine endPair_kept ?_
    | refine plumbSkip_kept ?_ | refine pairChecks_kept ?_ | refine drawUpTo_kept ?_ | refine modShot_kept ?_
    | refine modShotPath_kept ?_ | refine countOutcome_kept ?_ | refine thrEvaluate_kept ?_
    | refine kept_getD ?_ ?_ | intro _ | split | refine Kept.of_fst (by assumption) ?_
    | refine Kept.of_snd (by assumption) ?_ | dsimp only)

theorem dirEnds_kept {kg : Guard} {sk : State} {d : DirRec} {r : PairRun} {s : State} (hs : Kept kg sk s) : Kept kg
    sk (dirEnds d r s) := by
  unfold dirEnds
  repeat' (with_reducible first
    | assumption | refine kept_ite ?_ ?_ | refine modShot_kept ?_ | refine pairEnds_kept ?_ | intro _ | split
    | dsimp only)

theorem pllLocked_kept {kg : Guard} {sk : State} {lock : Nat} {s : State} (hs : Kept kg sk s) : Kept kg sk
    (pllLocked lock s) := by
  unfold pllLocked
  repeat' (with_reducible first
    | assumption | refine setLevel_kept ?_ | refine modScribe_kept ?_ | intro _ | split | dsimp only)

theorem lockFailed_kept {kg : Guard} {sk : State} {s : State} (hs : Kept kg sk s) : Kept kg sk (lockFailed s) := by
  unfold lockFailed
  repeat' (with_reducible first
    | assumption | refine kept_ite ?_ ?_ | refine raise_kept ?_ | refine modScribe_kept ?_
    | refine setLevel_kept ?_ | intro _ | split | dsimp only)

theorem lockTaken_kept {kg : Guard} {sk : State} {lock : Nat} {s : State} (hs : Kept kg sk s) : Kept kg sk
    (lockTaken lock s) := by
  unfold lockTaken
  repeat' (with_reducible first
    | assumption | refine kept_ite ?_ ?_ | refine pllLocked_kept ?_ | refine lockFailed_kept ?_ | split
    | dsimp only)

theorem burst_kept {kg : Guard} {sk : State} {path : Nat} {key : Option Nat} {s : State} (hs : Kept kg sk s) : Kept
    kg sk (burst path key s) := by
  unfold burst
  repeat' (with_reducible first
    | assumption | refine syncPulse_kept ?_ | refine modFront_kept ?_ | intro _ | split | dsimp only)

theorem dirStarts_kept {kg : Guard} {sk : State} {p : Nat} {isUp : Bool} {o : DirObs} {s : State} (hs : Kept kg sk s)
    : Kept kg sk (dirStarts p isUp o s).1 := by
  unfold dirStarts
  repeat' (with_reducible first
    | assumption | refine kept_ite ?_ ?_ | refine checkLines_kept ?_ | refine modFront_kept ?_
    | refine lockTaken_kept ?_ | refine raise_kept ?_ | intro _ | split | refine Kept.of_fst (by assumption) ?_
    | refine Kept.of_snd (by assumption) ?_ | dsimp only)

theorem dirBegins_kept {kg : Guard} {sk : State} {waitUs : Nat} {r : PairRun} {s : State} (hs : Kept kg sk s) : Kept
    kg sk (dirBegins waitUs r s) := by
  unfold dirBegins
  repeat' (with_reducible first
    | assumption | refine countDelay_kept ?_ | refine modFront_kept ?_ | refine modPair_kept ?_ | intro _ | split
    | dsimp only)

theorem execShotDirection_kept {kg : Guard} {o : DirObs} {s : State} {kr : State}
    (hh : execShotDirection o s = .next kr) : Kept kg s kr := by
  have hs := Kept.refl kg s
  unfold execShotDirection at hh
  first | refine done_kept hh ?_ | refine rated_kept hh ?_
  repeat' (with_reducible first
    | assumption | refine kept_ite ?_ ?_ | refine dirStarts_kept ?_ | refine dirBegins_kept ?_
    | refine burst_kept ?_ | refine modPair_kept ?_ | refine dirEnds_kept ?_ | intro _ | split
    | refine Kept.of_fst (by assumption) ?_ | refine Kept.of_snd (by assumption) ?_ | dsimp only)

theorem captureFails_kept {k : Guard} {s0 : State} {l : LinePair} {mv : Nat} {f : State → State} {s : State}
    (hf : ∀ t, Kept k s0 t → Kept k s0 (f t)) (hs : Kept k s0 s) : Kept k s0 (captureFails l mv f s) := by
  unfold captureFails
  repeat' (with_reducible first
    | assumption
    | refine dirEnds_kept ?_
    | refine hf _ ?_
    | refine checkLines_kept ?_
    | refine modFront_kept ?_
    | refine dirBegins_kept ?_
    | split
    | refine Kept.of_fst (by assumption) ?_
    | dsimp only)

theorem execPumpSlow_kept {kg : Guard} {lines : LinePair} {mv : Nat} {s : State} {kr : State}
    (hh : execPumpSlow lines mv s = .next kr) : Kept kg s kr := by
  have hs := Kept.refl kg s
  unfold execPumpSlow at hh
  first | refine done_kept hh ?_ | refine rated_kept hh ?_
  repeat' (with_reducible first
    | assumption | refine kept_ite ?_ ?_ | refine captureFails_kept ?_ ?_ | refine raise_kept ?_ | intro _ | split
    | dsimp only)

theorem execPllLockTimeout_kept {kg : Guard} {lines : LinePair} {mv : Nat} {s : State} {kr : State}
    (hh : execPllLockTimeout lines mv s = .next kr) : Kept kg s kr := by
  have hs := Kept.refl kg s
  unfold execPllLockTimeout at hh
  first | refine done_kept hh ?_ | refine rated_kept hh ?_
  repeat' (with_reducible first
    | assumption | refine captureFails_kept ?_ ?_ | refine lockFailed_kept ?_ | intro _ | dsimp only)

theorem captureRegs_kept {kg : Guard} {sk : State} {p : PathItems} {c : CloseObs} {x : DirEnd} {s : State}
    (hs : Kept kg sk s) : Kept kg sk (captureRegs p c x s) := by
  unfold captureRegs
  repeat' (with_reducible first
    | assumption | refine kept_ite ?_ ?_ | refine modScribe_kept ?_ | refine modFtu_kept ?_
    | refine raiseIf_kept ?_ | refine setLevel_kept ?_ | intro _ | split | dsimp only)

theorem latchPeak_kept {kg : Guard} {sk : State} {p : Nat} {isUp : Bool} {peak : Nat} {s : State} (hs : Kept kg sk s)
    : Kept kg sk (latchPeak p isUp peak s) := by
  unfold latchPeak
  repeat' (with_reducible first
    | assumption | refine kept_ite ?_ ?_ | refine modPath_kept ?_ | intro _ | split | dsimp only)

theorem closeEcho_kept {kg : Guard} {sk : State} {winRun : Nat} {unlock : Bool} {c : CloseObs} {r : PairRun}
    {d : DirRec} {s : State} (hs : Kept kg sk s) : Kept kg sk (closeEcho winRun unlock c r d s) := by
  unfold closeEcho
  repeat' (with_reducible first
    | assumption | refine kept_ite ?_ ?_ | refine dirEnds_kept ?_ | refine captureRegs_kept ?_
    | refine latchPeak_kept ?_ | refine drew_kept ?_ | split | dsimp only)

theorem execEchoWindowClose_kept {kg : Guard} {c : CloseObs} {s : State} {kr : State}
    (hh : execEchoWindowClose c s = .next kr) : Kept kg s kr := by
  have hs := Kept.refl kg s
  unfold execEchoWindowClose at hh
  first | refine done_kept hh ?_ | refine rated_kept hh ?_
  repeat' (with_reducible first
    | assumption | refine closeEcho_kept ?_ | split | refine Kept.of_fst (by assumption) ?_
    | refine Kept.of_snd (by assumption) ?_ | dsimp only)

theorem execPllUnlockInWindow_kept {kg : Guard} {c : CloseObs} {s : State} {kr : State}
    (hh : execPllUnlockInWindow c s = .next kr) : Kept kg s kr := by
  have hs := Kept.refl kg s
  unfold execPllUnlockInWindow at hh
  first | refine done_kept hh ?_ | refine rated_kept hh ?_
  repeat' (with_reducible first
    | assumption | refine closeEcho_kept ?_ | split | refine Kept.of_fst (by assumption) ?_
    | refine Kept.of_snd (by assumption) ?_ | dsimp only)

theorem execNoiseRetry_kept {kg : Guard} {s : State} {kr : State} (hh : execNoiseRetry s = .next kr) : Kept kg s kr
    := by
  have hs := Kept.refl kg s
  unfold execNoiseRetry at hh
  first | refine done_kept hh ?_ | refine rated_kept hh ?_
  repeat' (with_reducible first
    | assumption | refine kept_ite ?_ ?_ | refine modShot_kept ?_ | refine modPair_kept ?_ | intro _ | split
    | refine Kept.of_fst (by assumption) ?_ | refine Kept.of_snd (by assumption) ?_ | dsimp only)

theorem rateLoop_kept {kg : Guard} {sk : State} {throttle : Bool} {empty : Bool} {q : Int} {qLast : Int} {s : State}
    (hs : Kept kg sk s) : Kept kg sk (rateLoop throttle empty q qLast s) := by
  unfold rateLoop
  repeat' (with_reducible first
    | assumption | refine kept_ite ?_ ?_ | refine modShot_kept ?_ | intro _ | split | dsimp only)

theorem emptyState_kept {kg : Guard} {sk : State} {emptyPair : Bool} {accepted : Bool} {s : State}
    (hs : Kept kg sk s) : Kept kg sk (emptyState emptyPair accepted s) := by
  unfold emptyState
  repeat' (with_reducible first
    | assumption | refine kept_ite ?_ ?_ | refine modShot_kept ?_ | refine setLevel_kept ?_ | intro _ | split
    | dsimp only)

theorem flowValues_kept {kg : Guard} {sk : State} {main : Option PathFlow} {q : Int} {flags : Nat} {s : State}
    (hs : Kept kg sk s) : Kept kg sk (flowValues main q flags s).1 := by
  unfold flowValues
  repeat' (with_reducible first
    | assumption | refine kept_ite ?_ ?_ | refine setLevel_kept ?_ | refine modShot_kept ?_
    | refine raiseIf_kept ?_ | intro _ | split | refine Kept.of_fst (by assumption) ?_
    | refine Kept.of_snd (by assumption) ?_ | dsimp only)

theorem flowJob_kept {kg : Guard} {sk : State} {j : Job} {s : State} (hs : Kept kg sk s) : Kept kg sk (flowJob j s)
    := by
  unfold flowJob
  repeat' (with_reducible first
    | assumption | refine kept_ite ?_ ?_ | refine modShotPath_kept ?_ | refine raiseIf_kept ?_
    | refine emptyState_kept ?_ | refine flowValues_kept ?_ | refine rateLoop_kept ?_ | refine modShot_kept ?_
    | refine drew_kept ?_ | refine engineEnds_kept ?_ | refine kept_id ?_ | refine kept_getD ?_ ?_
    | refine kept_foldl ?_ ?_ | refine kept_foldl1 ?_ ?_ | refine kept_foldl2 ?_ ?_ | intro _ | split
    | refine Kept.of_fst (by assumption) ?_ | refine Kept.of_snd (by assumption) ?_ | dsimp only)

theorem execFlow_kept {kg : Guard} {tag : Nat} {s : State} {kr : State} (hh : execFlow tag s = .next kr) : Kept kg s
    kr := by
  have hs := Kept.refl kg s
  unfold execFlow at hh
  first | refine done_kept hh ?_ | refine rated_kept hh ?_
  repeat' (with_reducible first | assumption | refine onJob_kept ?_ ?_ | refine flowJob_kept ?_ | intro _ | dsimp only)

theorem plumbRequestJob_kept {kg : Guard} {sk : State} {j : Job} {s : State} (hs : Kept kg sk s) : Kept kg sk
    (plumbRequestJob j s) := by
  unfold plumbRequestJob
  repeat' (with_reducible first
    | assumption | refine engineEnds_kept ?_ | refine modShotPath_kept ?_ | refine kept_id ?_
    | refine kept_foldl ?_ ?_ | refine kept_foldl1 ?_ ?_ | refine kept_foldl2 ?_ ?_ | intro _ | split | dsimp only)

theorem execPlumbRequest_kept {kg : Guard} {tag : Nat} {s : State} {kr : State}
    (hh : execPlumbRequest tag s = .next kr) : Kept kg s kr := by
  have hs := Kept.refl kg s
  unfold execPlumbRequest at hh
  first | refine done_kept hh ?_ | refine rated_kept hh ?_
  repeat' (with_reducible first
    | assumption | refine onJob_kept ?_ ?_ | refine plumbRequestJob_kept ?_ | intro _ | dsimp only)

theorem orientCheckJob_kept {kg : Guard} {sk : State} {j : Job} {s : State} (hs : Kept kg sk s) : Kept kg sk
    (orientCheckJob j s) := by
  unfold orientCheckJob
  repeat' (with_reducible first
    | assumption | refine kept_ite ?_ ?_ | refine raiseIf_kept ?_ | refine modShot_kept ?_
    | refine writeEvent_kept ?_ | refine engineEnds_kept ?_ | refine kept_id ?_ | intro _ | split | dsimp only)

theorem execOrientCheck_kept {kg : Guard} {tag : Nat} {s : State} {kr : State}
    (hh : execOrientCheck tag s = .next kr) : Kept kg s kr := by
  have hs := Kept.refl kg s
  unfold execOrientCheck at hh
  first | refine done_kept hh ?_ | refine rated_kept hh ?_
  repeat' (with_reducible first
    | assumption | refine onJob_kept ?_ ?_ | refine orientCheckJob_kept ?_ | intro _ | dsimp only)

theorem lineCheckJob_kept {kg : Guard} {sk : State} {o : List LineObs} {j : Job} {s : State} (hs : Kept kg sk s) :
    Kept kg sk (lineCheckJob o j s) := by
  unfold lineCheckJob
  repeat' (with_reducible first
    | assumption | refine kept_ite ?_ ?_ | refine engineEnds_kept ?_ | refine checkLine_kept ?_
    | refine kept_id ?_ | refine kept_foldl ?_ ?_ | refine kept_foldl1 ?_ ?_ | refine kept_foldl2 ?_ ?_ | intro _
    | split | refine Kept.of_fst (by assumption) ?_ | refine Kept.of_snd (by assumption) ?_ | dsimp only)

theorem execLineCheck_kept {kg : Guard} {tag : Nat} {o : List LineObs} {s : State} {kr : State}
    (hh : execLineCheck tag o s = .next kr) : Kept kg s kr := by
  have hs := Kept.refl kg s
  unfold execLineCheck at hh
  first | refine done_kept hh ?_ | refine rated_kept hh ?_
  repeat' (with_reducible first
    | assumption | refine onJob_kept ?_ ?_ | refine lineCheckJob_kept ?_ | intro _ | dsimp only)

theorem peakProbeJob_kept {kg : Guard} {sk : State} {o : DirObs} {j : Job} {s : State} (hs : Kept kg sk s) : Kept kg
    sk (peakProbeJob o j s) := by
  unfold peakProbeJob
  repeat' (with_reducible first
    | assumption | refine kept_ite ?_ ?_ | refine engineEnds_kept ?_ | refine dirStarts_kept ?_
    | refine latchPeak_kept ?_ | refine burst_kept ?_ | refine drew_kept ?_ | refine kept_id ?_ | split
    | refine Kept.of_fst (by assumption) ?_ | refine Kept.of_snd (by assumption) ?_ | dsimp only)

theorem execPeakProbe_kept {kg : Guard} {tag : Nat} {o : DirObs} {s : State} {kr : State}
    (hh : execPeakProbe tag o s = .next kr) : Kept kg s kr := by
  have hs := Kept.refl kg s
  unfold execPeakProbe at hh
  first | refine done_kept hh ?_ | refine rated_kept hh ?_
  repeat' (with_reducible first
    | assumption | refine onJob_kept ?_ ?_ | refine peakProbeJob_kept ?_ | intro _ | dsimp only)

theorem rawCaptureJob_kept {kg : Guard} {sk : State} {j : Job} {s : State} (hs : Kept kg sk s) : Kept kg sk
    (rawCaptureJob j s) := by
  unfold rawCaptureJob
  repeat' (with_reducible first
    | assumption | refine kept_ite ?_ ?_ | refine engineEnds_kept ?_ | refine kept_id ?_ | intro _ | split
    | dsimp only)

theorem execRawCapture_kept {kg : Guard} {tag : Nat} {s : State} {kr : State} (hh : execRawCapture tag s = .next kr)
    : Kept kg s kr := by
  have hs := Kept.refl kg s
  unfold execRawCapture at hh
  first | refine done_kept hh ?_ | refine rated_kept hh ?_
  repeat' (with_reducible first
    | assumption | refine onJob_kept ?_ ?_ | refine rawCaptureJob_kept ?_ | intro _ | dsimp only)

theorem execCalibrate_kept {kg : Guard} {tag : Nat} {taps : List Nat} {escaped : Bool} {s : State} {kr : State}
    (hh : execCalibrate tag taps escaped s = .next kr) : Kept kg s kr := by
  have hs := Kept.refl kg s
  unfold execCalibrate at hh
  first | refine done_kept hh ?_ | refine rated_kept hh ?_
  repeat' (with_reducible first
    | assumption | refine kept_ite ?_ ?_ | refine engineEnds_kept ?_ | refine raiseIf_kept ?_
    | refine modFtu_kept ?_ | refine kept_id ?_ | intro _ | split | refine Kept.of_fst (by assumption) ?_
    | refine Kept.of_snd (by assumption) ?_ | dsimp only)

theorem takeDnl_kept {kg : Guard} {sk : State} {counts : List Nat} {s : State} (hs : Kept kg sk s) : Kept kg sk
    (takeDnl counts s).1 := by
  unfold takeDnl
  repeat' (with_reducible first
    | assumption | refine raiseIf_kept ?_ | refine modFtu_kept ?_ | intro _ | split | dsimp only)

theorem densityJob_kept {kg : Guard} {sk : State} {counts : List Nat} {j : Job} {s : State} (hs : Kept kg sk s) :
    Kept kg sk (densityJob counts j s) := by
  unfold densityJob
  repeat' (with_reducible first
    | assumption | refine kept_ite ?_ ?_ | refine takeDnl_kept ?_ | refine engineEnds_kept ?_ | refine kept_id ?_
    | split | refine Kept.of_fst (by assumption) ?_ | refine Kept.of_snd (by assumption) ?_ | dsimp only)

theorem execDensity_kept {kg : Guard} {tag : Nat} {counts : List Nat} {s : State} {kr : State}
    (hh : execDensity tag counts s = .next kr) : Kept kg s kr := by
  have hs := Kept.refl kg s
  unfold execDensity at hh
  first | refine done_kept hh ?_ | refine rated_kept hh ?_
  repeat' (with_reducible first
    | assumption | refine onJob_kept ?_ ?_ | refine densityJob_kept ?_ | intro _ | dsimp only)

theorem execScaleMeasure_kept {kg : Guard} {count : Nat} {s : State} {kr : State}
    (hh : execScaleMeasure count s = .next kr) : Kept kg s kr := by
  have hs := Kept.refl kg s
  unfold execScaleMeasure at hh
  first | refine done_kept hh ?_ | refine rated_kept hh ?_
  repeat' (with_reducible first
    | assumption | refine kept_ite ?_ ?_ | refine modPair_kept ?_ | refine setLevel_kept ?_
    | refine modFtu_kept ?_ | intro _ | split | dsimp only)

theorem execScaleStale_kept {kg : Guard} {s : State} {kr : State} (hh : execScaleStale s = .next kr) : Kept kg s kr
    := by
  have hs := Kept.refl kg s
  unfold execScaleStale at hh
  first | refine done_kept hh ?_ | refine rated_kept hh ?_
  repeat' (with_reducible first | assumption | refine kept_ite ?_ ?_ | refine setLevel_kept ?_ | split | dsimp only)

end Sys2Proof.Machine
end

