-- ==== Sys2Proof/Laws/KeptRadio.lean ====
section
/-! SUPPORT. What each operation of the radio and the link keeps. -/

namespace Sys2Proof.Machine

set_option linter.all false

theorem drawMs_kept {kg : Guard} {sk : State} {lo : Nat} {hi : Nat} {s : State} (hs : Kept kg sk s) : Kept kg sk
    (drawMs lo hi s).2 := by
  unfold drawMs
  repeat' (with_reducible first | assumption | refine drawUpTo_kept ?_ | dsimp only)

theorem enterCtx_kept {kg : Guard} {sk : State} {c : RadioCtx} {s : State} (hs : Kept kg sk s) : Kept kg sk
    (enterCtx c s) := by
  unfold enterCtx
  repeat' (with_reducible first
    | assumption | refine kept_ite ?_ ?_ | refine modRadio_kept ?_ | intro _ | split | dsimp only)

theorem failCtx_kept {kg : Guard} {sk : State} {job : Nat} {st : Status} {q : Nat} {s : State} (hs : Kept kg sk s) :
    Kept kg sk (failCtx job st q s) := by
  unfold failCtx
  repeat' (with_reducible first
    | assumption | refine leaveCtx_kept ?_ | split | refine Kept.of_fst (by assumption) ?_
    | refine Kept.of_snd (by assumption) ?_ | dsimp only)

theorem finishSend_kept {kg : Guard} {sk : State} {job : Nat} {s : State} (hs : Kept kg sk s) : Kept kg sk
    (finishSend job s) := by
  unfold finishSend
  repeat' (with_reducible first
    | assumption | refine kept_ite ?_ ?_ | refine leaveCtx_kept ?_ | split | refine Kept.of_fst (by assumption) ?_
    | refine Kept.of_snd (by assumption) ?_ | dsimp only)

theorem startAct_kept {kg : Guard} {sk : State} {a : Activity} {s : State} (hs : Kept kg sk s) : Kept kg sk
    (startAct a s) := by
  unfold startAct
  repeat' (with_reducible first | assumption | refine modRadio_kept ?_ | intro _ | split | dsimp only)

theorem synthGood_kept {kg : Guard} {sk : State} {s : State} (hs : Kept kg sk s) : Kept kg sk (synthGood s) := by
  unfold synthGood
  repeat' (with_reducible first | assumption | refine modRadio_kept ?_ | intro _ | split | dsimp only)

theorem synthBad_kept {kg : Guard} {sk : State} {s : State} (hs : Kept kg sk s) : Kept kg sk (synthBad s) := by
  unfold synthBad
  repeat' (with_reducible first
    | assumption | refine kept_ite ?_ ?_ | refine modRadio_kept ?_ | refine raiseIf_kept ?_ | intro _ | split
    | dsimp only)

theorem slotMissed_kept {kg : Guard} {sk : State} {job : Nat} {s : State} (hs : Kept kg sk s) : Kept kg sk
    (slotMissed job s) := by
  unfold slotMissed
  repeat' (with_reducible first
    | assumption | refine leaveCtx_kept ?_ | refine modRadio_kept ?_ | intro _ | split | dsimp only)

theorem retrySend_kept {kg : Guard} {sk : State} {job : Nat} {s : State} (hs : Kept kg sk s) : Kept kg sk
    (retrySend job s) := by
  unfold retrySend
  repeat' (with_reducible first
    | assumption | refine drawMs_kept ?_ | refine modCtx_kept ?_ | intro _ | split | dsimp only)

theorem failAct_kept {kg : Guard} {sk : State} {a : Activity} {st : Status} {q : Nat} {s : State} (hs : Kept kg sk s)
    : Kept kg sk (failAct a st q s) := by
  unfold failAct
  repeat' (with_reducible first
    | assumption | refine kept_ite ?_ ?_ | refine failCtx_kept ?_ | refine retrySend_kept ?_ | refine kept_id ?_
    | split | refine Kept.of_fst (by assumption) ?_ | refine Kept.of_snd (by assumption) ?_ | dsimp only)

theorem execTelegramDue_kept {kg : Guard} {s : State} {kr : State} (hh : execTelegramDue s = .next kr) : Kept kg s kr
    := by
  have hs := Kept.refl kg s
  unfold execTelegramDue at hh
  first | refine done_kept hh ?_ | refine rated_kept hh ?_
  repeat' (with_reducible first
    | assumption | refine kept_ite ?_ ?_ | refine modRadio_kept ?_ | intro _ | split | dsimp only)

theorem wmbSendJob_kept {kg : Guard} {sk : State} {j : Job} {s : State} (hs : Kept kg sk s) : Kept kg sk
    (wmbSendJob j s) := by
  unfold wmbSendJob
  repeat' (with_reducible first
    | assumption | refine kept_ite ?_ ?_ | refine drawMs_kept ?_ | refine enterCtx_kept ?_
    | refine modRadio_kept ?_ | refine kept_id ?_ | refine kept_getD ?_ ?_ | intro _ | split | dsimp only)

theorem execWmbSend_kept {kg : Guard} {tag : Nat} {s : State} {kr : State} (hh : execWmbSend tag s = .next kr) : Kept
    kg s kr := by
  have hs := Kept.refl kg s
  unfold execWmbSend at hh
  first | refine done_kept hh ?_ | refine rated_kept hh ?_
  repeat' (with_reducible first
    | assumption | refine onJob_kept ?_ ?_ | refine wmbSendJob_kept ?_ | intro _ | dsimp only)

theorem deferStart_kept {kg : Guard} {sk : State} {c : RadioCtx} {free : Nat} {s : State} (hs : Kept kg sk s) : Kept
    kg sk (deferStart c free s) := by
  unfold deferStart
  repeat' (with_reducible first
    | assumption | refine kept_ite ?_ ?_ | refine drawMs_kept ?_ | refine modCtx_kept ?_ | intro _ | split
    | dsimp only)

theorem beginCtx_kept {kg : Guard} {sk : State} {retry : Bool} {tag : Nat} {s : State} (hs : Kept kg sk s) : Kept kg
    sk (beginCtx retry tag s) := by
  unfold beginCtx
  repeat' (with_reducible first
    | assumption | refine kept_ite ?_ ?_ | refine slotMissed_kept ?_ | refine deferStart_kept ?_
    | refine failCtx_kept ?_ | refine modCtx_kept ?_ | refine startAct_kept ?_ | refine kept_id ?_ | intro _
    | split | refine Kept.of_fst (by assumption) ?_ | refine Kept.of_snd (by assumption) ?_ | dsimp only)

theorem execJitterPoint_kept {kg : Guard} {tag : Nat} {s : State} {kr : State}
    (hh : execJitterPoint tag s = .next kr) : Kept kg s kr := by
  have hs := Kept.refl kg s
  unfold execJitterPoint at hh
  first | refine done_kept hh ?_ | refine rated_kept hh ?_
  repeat' (with_reducible first | assumption | refine beginCtx_kept ?_ | dsimp only)

theorem execSendRetry_kept {kg : Guard} {tag : Nat} {s : State} {kr : State} (hh : execSendRetry tag s = .next kr) :
    Kept kg s kr := by
  have hs := Kept.refl kg s
  unfold execSendRetry at hh
  first | refine done_kept hh ?_ | refine rated_kept hh ?_
  repeat' (with_reducible first | assumption | refine beginCtx_kept ?_ | dsimp only)

theorem beginTx_kept {kg : Guard} {sk : State} {lateUs : Nat} {s : State} (hs : Kept kg sk s) : Kept kg sk
    (beginTx lateUs s) := by
  unfold beginTx
  repeat' (with_reducible first
    | assumption | refine kept_ite ?_ ?_ | refine slotMissed_kept ?_ | refine endAct_kept ?_
    | refine modAct_kept ?_ | refine modLintel_kept (fun _ h => h) ?_ | refine kept_id ?_ | intro _ | split
    | refine Kept.of_fst (by assumption) ?_ | refine Kept.of_snd (by assumption) ?_ | dsimp only)

theorem execSynthLock_kept {kg : Guard} {xo : Option (Nat × Int)} {lateUs : Nat} {s : State} {kr : State}
    (hh : execSynthLock xo lateUs s = .next kr) : Kept kg s kr := by
  have hs := Kept.refl kg s
  unfold execSynthLock at hh
  first | refine done_kept hh ?_ | refine rated_kept hh ?_
  repeat' (with_reducible first
    | assumption | refine kept_ite ?_ ?_ | refine modLintel_kept (fun _ h => h) ?_ | refine modRadio_kept ?_
    | refine modClock_kept ?_ | refine modAct_kept ?_ | refine beginTx_kept ?_ | refine slotMissed_kept ?_
    | refine endAct_kept ?_ | refine kept_id ?_ | refine kept_getD ?_ ?_ | intro _ | split
    | refine Kept.of_fst (by assumption) ?_ | refine Kept.of_snd (by assumption) ?_ | dsimp only)

theorem synthFail_kept {kg : Guard} {sk : State} {lateUs : Nat} {s : State} (hs : Kept kg sk s) : Kept kg sk
    (synthFail lateUs s) := by
  unfold synthFail
  repeat' (with_reducible first
    | assumption | refine kept_ite ?_ ?_ | refine synthBad_kept ?_ | refine endAct_kept ?_
    | refine slotMissed_kept ?_ | refine failAct_kept ?_ | refine kept_id ?_ | split
    | refine Kept.of_fst (by assumption) ?_ | refine Kept.of_snd (by assumption) ?_ | dsimp only)

theorem execSynthTimeout_kept {kg : Guard} {lateUs : Nat} {s : State} {kr : State}
    (hh : execSynthTimeout lateUs s = .next kr) : Kept kg s kr := by
  have hs := Kept.refl kg s
  unfold execSynthTimeout at hh
  first | refine done_kept hh ?_ | refine rated_kept hh ?_
  repeat' (with_reducible first | assumption | refine kept_ite ?_ ?_ | refine synthFail_kept ?_ | split | dsimp only)

theorem execXo39StartTimeout_kept {kg : Guard} {lateUs : Nat} {s : State} {kr : State}
    (hh : execXo39StartTimeout lateUs s = .next kr) : Kept kg s kr := by
  have hs := Kept.refl kg s
  unfold execXo39StartTimeout at hh
  first | refine done_kept hh ?_ | refine rated_kept hh ?_
  repeat' (with_reducible first
    | assumption | refine kept_ite ?_ ?_ | refine synthFail_kept ?_ | refine raise_kept ?_
    | refine modClock_kept ?_ | intro _ | split | dsimp only)

theorem frameLost_kept {kg : Guard} {sk : State} {s : State} (hs : Kept kg sk s) : Kept kg sk (frameLost s) := by
  unfold frameLost
  repeat' (with_reducible first
    | assumption | refine synthBad_kept ?_ | refine endAct_kept ?_ | refine failCtx_kept ?_ | refine kept_id ?_
    | split | refine Kept.of_fst (by assumption) ?_ | refine Kept.of_snd (by assumption) ?_ | dsimp only)

theorem execLockLostInFrame_kept {kg : Guard} {s : State} {kr : State} (hh : execLockLostInFrame s = .next kr) : Kept
    kg s kr := by
  have hs := Kept.refl kg s
  unfold execLockLostInFrame at hh
  first | refine done_kept hh ?_ | refine rated_kept hh ?_
  repeat' (with_reducible first | assumption | refine kept_ite ?_ ?_ | refine frameLost_kept ?_ | split | dsimp only)

theorem execXo39RunOnExpiry_kept {kg : Guard} {s : State} {kr : State} (hh : execXo39RunOnExpiry s = .next kr) : Kept
    kg s kr := by
  have hs := Kept.refl kg s
  unfold execXo39RunOnExpiry at hh
  first | refine done_kept hh ?_ | refine rated_kept hh ?_
  repeat' (with_reducible first
    | assumption | refine kept_ite ?_ ?_ | refine modLintel_kept (fun _ h => h) ?_ | intro _ | split | dsimp only)

theorem execLbtListenEnd_kept {kg : Guard} {rssi : Int} {lateUs : Nat} {s : State} {kr : State}
    (hh : execLbtListenEnd rssi lateUs s = .next kr) : Kept kg s kr := by
  have hs := Kept.refl kg s
  unfold execLbtListenEnd at hh
  first | refine done_kept hh ?_ | refine rated_kept hh ?_
  repeat' (with_reducible first
    | assumption | refine kept_ite ?_ ?_ | refine modAct_kept ?_ | refine beginTx_kept ?_
    | refine slotMissed_kept ?_ | refine endAct_kept ?_ | refine modRadio_kept ?_ | refine synthGood_kept ?_
    | refine failAct_kept ?_ | refine drawMs_kept ?_ | refine kept_id ?_ | intro _ | split
    | refine Kept.of_fst (by assumption) ?_ | refine Kept.of_snd (by assumption) ?_ | dsimp only)

theorem execLbtBackoffEnd_kept {kg : Guard} {s : State} {kr : State} (hh : execLbtBackoffEnd s = .next kr) : Kept kg
    s kr := by
  have hs := Kept.refl kg s
  unfold execLbtBackoffEnd at hh
  first | refine done_kept hh ?_ | refine rated_kept hh ?_
  repeat' (with_reducible first
    | assumption | refine kept_ite ?_ ?_ | refine modAct_kept ?_ | intro _ | split | dsimp only)

theorem watchEval_kept {kg : Guard} {sk : State} {rl : Nat} {s : State} (hs : Kept kg sk s) : Kept kg sk
    (watchEval rl s) := by
  unfold watchEval
  repeat' (with_reducible first
    | assumption | refine kept_ite ?_ ?_ | refine modRadio_kept ?_ | refine raiseIf_kept ?_
    | refine setLevel_kept ?_ | intro _ | split | refine Kept.of_fst (by assumption) ?_
    | refine Kept.of_snd (by assumption) ?_ | dsimp only)

theorem telegramOut_kept {kg : Guard} {sk : State} {job : Nat} {answer : Bool} {s : State} (hs : Kept kg sk s) : Kept
    kg sk (telegramOut job answer s) := by
  unfold telegramOut
  repeat' (with_reducible first
    | assumption | refine kept_ite ?_ ?_ | refine modCtx_kept ?_ | refine finishSend_kept ?_ | intro _ | split
    | refine Kept.of_fst (by assumption) ?_ | refine Kept.of_snd (by assumption) ?_ | dsimp only)

theorem execTxEnd_kept {kg : Guard} {rl : Nat} {low : Bool} {airUs : Nat} {minMv : Nat} {s : State} {kr : State}
    (hh : execTxEnd rl low airUs minMv s = .next kr) : Kept kg s kr := by
  have hs := Kept.refl kg s
  unfold execTxEnd at hh
  first | refine done_kept hh ?_ | refine rated_kept hh ?_
  repeat' (with_reducible first
    | assumption | refine kept_ite ?_ ?_ | refine modRadio_kept ?_ | refine modLintel_kept (fun _ h => h) ?_
    | refine synthGood_kept ?_ | refine endAct_kept ?_ | refine raiseIf_kept ?_ | refine watchEval_kept ?_
    | refine telegramOut_kept ?_ | refine leaveCtx_kept ?_ | refine kept_id ?_ | intro _ | split
    | refine Kept.of_fst (by assumption) ?_ | refine Kept.of_snd (by assumption) ?_ | dsimp only)

theorem execTxBrownout_kept {kg : Guard} {mv : Nat} {s : State} {kr : State} (hh : execTxBrownout mv s = .next kr) :
    Kept kg s kr := by
  have hs := Kept.refl kg s
  unfold execTxBrownout at hh
  first | refine done_kept hh ?_ | refine rated_kept hh ?_
  repeat' (with_reducible first
    | assumption | refine kept_ite ?_ ?_ | refine modLintel_kept (fun _ h => h) ?_ | refine synthGood_kept ?_
    | refine endAct_kept ?_ | refine failCtx_kept ?_ | refine kept_id ?_ | intro _ | split
    | refine Kept.of_fst (by assumption) ?_ | refine Kept.of_snd (by assumption) ?_ | dsimp only)

theorem execWatchProbeDue_kept {kg : Guard} {s : State} {kr : State} (hh : execWatchProbeDue s = .next kr) : Kept kg
    s kr := by
  have hs := Kept.refl kg s
  unfold execWatchProbeDue at hh
  first | refine done_kept hh ?_ | refine rated_kept hh ?_
  repeat' (with_reducible first
    | assumption | refine kept_ite ?_ ?_ | refine modRadio_kept ?_ | intro _ | split | dsimp only)

theorem rfTestJob_kept {kg : Guard} {sk : State} {j : Job} {s : State} (hs : Kept kg sk s) : Kept kg sk
    (rfTestJob j s) := by
  unfold rfTestJob
  repeat' (with_reducible first
    | assumption | refine kept_ite ?_ ?_ | refine engineEnds_kept ?_ | refine enterCtx_kept ?_ | refine kept_id ?_
    | split | refine Kept.of_fst (by assumption) ?_ | refine Kept.of_snd (by assumption) ?_ | dsimp only)

theorem execRfTest_kept {kg : Guard} {tag : Nat} {s : State} {kr : State} (hh : execRfTest tag s = .next kr) : Kept
    kg s kr := by
  have hs := Kept.refl kg s
  unfold execRfTest at hh
  first | refine done_kept hh ?_ | refine rated_kept hh ?_
  repeat' (with_reducible first
    | assumption | refine onJob_kept ?_ ?_ | refine rfTestJob_kept ?_ | intro _ | dsimp only)

theorem slotJob_kept {kg : Guard} {sk : State} {j : Job} {kind : ActKind} {us : Nat} {s : State} (hs : Kept kg sk s)
    : Kept kg sk (slotJob j kind us s) := by
  unfold slotJob
  repeat' (with_reducible first
    | assumption | refine kept_ite ?_ ?_ | refine slotMissed_kept ?_ | refine enterCtx_kept ?_ | refine kept_id ?_
    | split | dsimp only)

theorem slotTxJob_kept {kg : Guard} {sk : State} {j : Job} {s : State} (hs : Kept kg sk s) : Kept kg sk
    (slotTxJob j s) := by
  unfold slotTxJob
  repeat' (with_reducible first
    | assumption | refine kept_ite ?_ ?_ | refine slotMissed_kept ?_ | refine slotJob_kept ?_ | refine kept_id ?_
    | split | refine Kept.of_fst (by assumption) ?_ | refine Kept.of_snd (by assumption) ?_ | dsimp only)

theorem execSlotTx_kept {kg : Guard} {tag : Nat} {s : State} {kr : State} (hh : execSlotTx tag s = .next kr) : Kept
    kg s kr := by
  have hs := Kept.refl kg s
  unfold execSlotTx at hh
  first | refine done_kept hh ?_ | refine rated_kept hh ?_
  repeat' (with_reducible first
    | assumption | refine onJob_kept ?_ ?_ | refine slotTxJob_kept ?_ | intro _ | dsimp only)

theorem slotRxJob_kept {kg : Guard} {sk : State} {j : Job} {s : State} (hs : Kept kg sk s) : Kept kg sk
    (slotRxJob j s) := by
  unfold slotRxJob
  repeat' (with_reducible first
    | assumption | refine kept_ite ?_ ?_ | refine slotMissed_kept ?_ | refine leaveCtx_kept ?_
    | refine synthGood_kept ?_ | refine endAct_kept ?_ | refine slotJob_kept ?_ | refine kept_id ?_ | split
    | refine Kept.of_fst (by assumption) ?_ | refine Kept.of_snd (by assumption) ?_ | dsimp only)

theorem execSlotRx_kept {kg : Guard} {tag : Nat} {s : State} {kr : State} (hh : execSlotRx tag s = .next kr) : Kept
    kg s kr := by
  have hs := Kept.refl kg s
  unfold execSlotRx at hh
  first | refine done_kept hh ?_ | refine rated_kept hh ?_
  repeat' (with_reducible first
    | assumption | refine onJob_kept ?_ ?_ | refine slotRxJob_kept ?_ | intro _ | dsimp only)

theorem execSyncWordDetect_kept {kg : Guard} {s : State} {kr : State} (hh : execSyncWordDetect s = .next kr) : Kept
    kg s kr := by
  have hs := Kept.refl kg s
  unfold execSyncWordDetect at hh
  first | refine done_kept hh ?_ | refine rated_kept hh ?_
  repeat' (with_reducible first
    | assumption | refine kept_ite ?_ ?_ | refine modAct_kept ?_ | intro _ | split | dsimp only)

theorem closeRxWindow_kept {kg : Guard} {sk : State} {s : State} (hs : Kept kg sk s) : Kept kg sk (closeRxWindow s)
    := by
  unfold closeRxWindow
  repeat' (with_reducible first
    | assumption | refine kept_ite ?_ ?_ | refine synthGood_kept ?_ | refine endAct_kept ?_
    | refine finishSend_kept ?_ | refine kept_id ?_ | split | refine Kept.of_fst (by assumption) ?_
    | refine Kept.of_snd (by assumption) ?_ | dsimp only)

theorem closeIfOver_kept {kg : Guard} {sk : State} {s : State} (hs : Kept kg sk s) : Kept kg sk (closeIfOver s) := by
  unfold closeIfOver
  repeat' (with_reducible first
    | assumption | refine kept_ite ?_ ?_ | refine closeRxWindow_kept ?_ | refine synthGood_kept ?_
    | refine endAct_kept ?_ | split | refine Kept.of_fst (by assumption) ?_
    | refine Kept.of_snd (by assumption) ?_ | dsimp only)

theorem execRxInterferenceAbort_kept {kg : Guard} {s : State} {kr : State}
    (hh : execRxInterferenceAbort s = .next kr) : Kept kg s kr := by
  have hs := Kept.refl kg s
  unfold execRxInterferenceAbort at hh
  first | refine done_kept hh ?_ | refine rated_kept hh ?_
  repeat' (with_reducible first
    | assumption | refine kept_ite ?_ ?_ | refine modAct_kept ?_ | refine modRadio_kept ?_
    | refine leaveCtx_kept ?_ | refine synthGood_kept ?_ | refine endAct_kept ?_ | refine closeIfOver_kept ?_
    | refine modCtx_kept ?_ | refine kept_id ?_ | intro _ | split | refine Kept.of_fst (by assumption) ?_
    | refine Kept.of_snd (by assumption) ?_ | dsimp only)

theorem takePeer_kept {kg : Guard} {sk : State} {i : Nat} {x : WmbRx} {s : State} (hs : Kept kg sk s) : Kept kg sk
    (takePeer i x s) := by
  unfold takePeer
  repeat' (with_reducible first
    | assumption | refine writeCounter_kept ?_ | refine modRadio_kept ?_ | intro _ | split | dsimp only)

theorem holdCommand_kept {kg : Guard} {sk : State} {job : Nat} {x : WmbRx} {s : State} (hs : Kept kg sk s) : Kept kg
    sk (holdCommand job x s) := by
  unfold holdCommand
  repeat' (with_reducible first
    | assumption | refine modRadio_kept ?_ | refine modCtx_kept ?_ | intro _ | split | dsimp only)

theorem windowFrame_kept {kg : Guard} {sk : State} {job : Nat} {x : WmbRx} {s : State} (hs : Kept kg sk s) : Kept kg
    sk (windowFrame job x s) := by
  unfold windowFrame
  repeat' (with_reducible first
    | assumption | refine kept_ite ?_ ?_ | refine closeIfOver_kept ?_ | refine modRadio_kept ?_
    | refine closeRxWindow_kept ?_ | refine holdCommand_kept ?_ | refine takePeer_kept ?_ | refine raise_kept ?_
    | intro _ | split | refine Kept.of_fst (by assumption) ?_ | refine Kept.of_snd (by assumption) ?_ | dsimp only)

theorem wakeFrame_kept {kg : Guard} {sk : State} {s : State} (hs : Kept kg sk s) : Kept kg sk (wakeFrame s) := by
  unfold wakeFrame
  repeat' (with_reducible first
    | assumption | refine kept_ite ?_ ?_ | refine modRadio_kept ?_ | refine raise_kept ?_ | refine drawMs_kept ?_
    | refine masonEvent_kept ?_ | intro _ | split | refine Kept.of_fst (by assumption) ?_
    | refine Kept.of_snd (by assumption) ?_ | dsimp only)

theorem execRxFrameEnd_kept {kg : Guard} {obs : RxObs} {s : State} {kr : State}
    (hh : execRxFrameEnd obs s = .next kr) : Kept kg s kr := by
  have hs := Kept.refl kg s
  unfold execRxFrameEnd at hh
  first | refine done_kept hh ?_ | refine rated_kept hh ?_
  repeat' (with_reducible first
    | assumption | refine kept_ite ?_ ?_ | refine modAct_kept ?_ | refine closeIfOver_kept ?_
    | refine modRadio_kept ?_ | refine leaveCtx_kept ?_ | refine synthGood_kept ?_ | refine endAct_kept ?_
    | refine windowFrame_kept ?_ | refine wakeFrame_kept ?_ | refine kept_id ?_ | intro _ | split
    | refine Kept.of_fst (by assumption) ?_ | refine Kept.of_snd (by assumption) ?_ | dsimp only)

theorem execRxWindowOpen_kept {kg : Guard} {s : State} {kr : State} (hh : execRxWindowOpen s = .next kr) : Kept kg s
    kr := by
  have hs := Kept.refl kg s
  unfold execRxWindowOpen at hh
  first | refine done_kept hh ?_ | refine rated_kept hh ?_
  repeat' (with_reducible first
    | assumption | refine kept_ite ?_ ?_ | refine modCtx_kept ?_ | refine startAct_kept ?_
    | refine finishSend_kept ?_ | refine modRadio_kept ?_ | intro _ | split
    | refine Kept.of_fst (by assumption) ?_ | refine Kept.of_snd (by assumption) ?_ | dsimp only)

theorem execRxWindowClose_kept {kg : Guard} {s : State} {kr : State} (hh : execRxWindowClose s = .next kr) : Kept kg
    s kr := by
  have hs := Kept.refl kg s
  unfold execRxWindowClose at hh
  first | refine done_kept hh ?_ | refine rated_kept hh ?_
  repeat' (with_reducible first
    | assumption | refine kept_ite ?_ ?_ | refine closeRxWindow_kept ?_ | split | dsimp only)

theorem execSniff_kept {kg : Guard} {rssi : Int} {rateOk : Bool} {s : State} {kr : State}
    (hh : execSniff rssi rateOk s = .next kr) : Kept kg s kr := by
  have hs := Kept.refl kg s
  unfold execSniff at hh
  first | refine done_kept hh ?_ | refine rated_kept hh ?_
  repeat' (with_reducible first
    | assumption | refine kept_ite ?_ ?_ | refine synthGood_kept ?_ | refine endAct_kept ?_
    | refine modAct_kept ?_ | refine modRadio_kept ?_ | refine startAct_kept ?_ | intro _ | split | dsimp only)

theorem powerLoop_kept {kg : Guard} {sk : State} {port : Nat} {margin : Int} {s : State} (hs : Kept kg sk s) : Kept
    kg sk (powerLoop port margin s) := by
  unfold powerLoop
  repeat' (with_reducible first
    | assumption | refine kept_ite ?_ ?_ | refine modRadio_kept ?_ | intro _ | split | dsimp only)

theorem reserve_kept {kg : Guard} {sk : State} {master : Nat} {kind : Nat} {slot : Nat} {counter : Nat}
    {fail : FaultSrc} {s : State} (hs : Kept kg sk s) : Kept kg sk (reserve master kind slot counter fail s) := by
  unfold reserve
  repeat' (with_reducible first
    | assumption | refine kept_ite ?_ ?_ | refine raise_kept ?_ | refine writeCounter_kept ?_ | split | dsimp only)

theorem noteSpent_kept {kg : Guard} {sk : State} {s : State} (hs : Kept kg sk s) : Kept kg sk (noteSpent s) := by
  unfold noteSpent
  repeat' (with_reducible first | assumption | refine kept_ite ?_ ?_ | refine setLevel_kept ?_ | split | dsimp only)

theorem takeFcnt_kept {kg : Guard} {sk : State} {s : State} (hs : Kept kg sk s) : Kept kg sk (takeFcnt s).2 := by
  unfold takeFcnt
  repeat' (with_reducible first
    | assumption | refine kept_ite ?_ ?_ | refine noteSpent_kept ?_ | refine modLink_kept ?_
    | refine reserve_kept ?_ | intro _ | split | dsimp only)

theorem counterCommitted_kept {kg : Guard} {sk : State} {rec_ : List Byte} {s : State} (hs : Kept kg sk s) : Kept kg
    sk (counterCommitted rec_ s) := by
  unfold counterCommitted
  repeat' (with_reducible first
    | assumption | refine kept_ite ?_ ?_ | refine modRadio_kept ?_ | refine modLink_kept ?_ | intro _ | split
    | dsimp only)

theorem slotTx_kept {kg : Guard} {sk : State} {instant : Nat} {ch : Nat} {phy : Nat} {frame : List Byte} {s : State}
    (hs : Kept kg sk s) : Kept kg sk (slotTx instant ch phy frame s) := by
  unfold slotTx
  repeat' (with_reducible first
    | assumption | refine chipJob_kept ?_ | refine modLink_kept ?_ | intro _ | split | dsimp only)

theorem slotRx_kept {kg : Guard} {sk : State} {start : Nat} {len : Nat} {ch : Nat} {phy : Nat} {s : State}
    (hs : Kept kg sk s) : Kept kg sk (slotRx start len ch phy s) := by
  unfold slotRx
  repeat' (with_reducible first | assumption | refine chipJob_kept ?_ | dsimp only)

theorem takeSn_kept {kg : Guard} {sk : State} {addr : List Byte} {s : State} (hs : Kept kg sk s) : Kept kg sk
    (takeSn addr s).2 := by
  unfold takeSn
  repeat' (with_reducible first
    | assumption | refine modLink_kept ?_ | refine kept_getD ?_ ?_ | intro _ | split | dsimp only)

theorem answerListen_kept {kg : Guard} {sk : State} {c : Nat} {after_ : Nat} {s : State} (hs : Kept kg sk s) : Kept
    kg sk (answerListen c after_ s) := by
  unfold answerListen
  repeat' (with_reducible first | assumption | refine slotRx_kept ?_ | dsimp only)

theorem sendOn_kept {kg : Guard} {sk : State} {c : Nat} {type : Nat} {ackReq : Bool} {more : Bool}
    {payload : List Byte} {sn : Option Nat} {instant : Nat} {s : State} (hs : Kept kg sk s) : Kept kg sk
    (sendOn c type ackReq more payload sn instant s).1 := by
  unfold sendOn
  repeat' (with_reducible first
    | assumption | refine kept_ite ?_ ?_ | refine takeFcnt_kept ?_ | refine takeSn_kept ?_ | refine slotTx_kept ?_
    | refine answerListen_kept ?_ | split | refine Kept.of_fst (by assumption) ?_
    | refine Kept.of_snd (by assumption) ?_ | dsimp only)

theorem pauseRelay_kept {kg : Guard} {sk : State} {n : Nat} {s : State} (hs : Kept kg sk s) : Kept kg sk
    (pauseRelay n s) := by
  unfold pauseRelay
  repeat' (with_reducible first
    | assumption | refine setLevel_kept ?_ | refine modLink_kept ?_ | intro _ | split | dsimp only)

theorem dropForwards_kept {kg : Guard} {sk : State} {c : Nat} {s : State} (hs : Kept kg sk s) : Kept kg sk
    (dropForwards c s) := by
  unfold dropForwards
  repeat' (with_reducible first
    | assumption | refine kept_ite ?_ ?_ | refine pauseRelay_kept ?_ | refine modConn_kept ?_ | intro _ | split
    | dsimp only)

theorem sendNext_kept {kg : Guard} {sk : State} {c : Nat} {instant : Nat} {s : State} (hs : Kept kg sk s) : Kept kg
    sk (sendNext c instant s) := by
  unfold sendNext
  repeat' (with_reducible first
    | assumption | refine kept_ite ?_ ?_ | refine dropForwards_kept ?_ | refine sendOn_kept ?_
    | refine modLink_kept ?_ | refine modConn_kept ?_ | intro _ | split | refine Kept.of_fst (by assumption) ?_
    | refine Kept.of_snd (by assumption) ?_ | dsimp only)

theorem queueFrame_kept {kg : Guard} {sk : State} {c : Nat} {f : LinkFrame} {s : State} (hs : Kept kg sk s) : Kept kg
    sk (queueFrame c f s) := by
  unfold queueFrame
  repeat' (with_reducible first
    | assumption | refine kept_ite ?_ ?_ | refine modConn_kept ?_ | refine modLink_kept ?_ | intro _ | split
    | dsimp only)

theorem checkFrame_kept {kg : Guard} {sk : State} {x : GyaleRx} {exchange : Bool} {s : State} (hs : Kept kg sk s) :
    Kept kg sk (checkFrame x exchange s).2 := by
  unfold checkFrame
  repeat' (with_reducible first
    | assumption | refine kept_ite ?_ ?_ | refine modLink_kept ?_ | refine raise_kept ?_ | intro _ | split
    | refine Kept.of_fst (by assumption) ?_ | refine Kept.of_snd (by assumption) ?_ | dsimp only)

theorem hearConn_kept {kg : Guard} {sk : State} {c : Nat} {s : State} (hs : Kept kg sk s) : Kept kg sk (hearConn c s)
    := by
  unfold hearConn
  repeat' (with_reducible first | assumption | refine modConn_kept ?_ | intro _ | split | dsimp only)

theorem sendAck_kept {kg : Guard} {sk : State} {c : Nat} {h : LinkHdr} {x : GyaleRx} {s0 : State}
    (hs : Kept kg sk s0) : Kept kg sk (sendAck c h x s0) := by
  unfold sendAck
  repeat' (with_reducible first
    | assumption | refine kept_ite ?_ ?_ | refine dropForwards_kept ?_ | refine sendOn_kept ?_
    | refine sendNext_kept ?_ | refine answerListen_kept ?_ | split | refine Kept.of_fst (by assumption) ?_
    | refine Kept.of_snd (by assumption) ?_ | dsimp only)

theorem acceptOn_kept {k : Guard} {s0 : State} {x : GyaleRx} {type : Nat} {deliver : Nat → LinkHdr → State → State}
    {s : State} (hf : ∀ c h t, Kept k s0 t → Kept k s0 (deliver c h t)) (hs : Kept k s0 s) :
    Kept k s0 (acceptOn x type deliver s) := by
  unfold acceptOn
  repeat' (with_reducible first
    | assumption
    | refine kept_ite ?_ ?_
    | refine hearConn_kept ?_
    | refine sendAck_kept ?_
    | refine modLink_kept ?_
    | refine modConn_kept ?_
    | refine kept_id ?_
    | refine hf _ _ _ ?_
    | refine checkFrame_kept ?_
    | split
    | refine Kept.of_snd (by assumption) ?_
    | dsimp only)

theorem execScanListen_kept {kg : Guard} {s : State} {kr : State} (hh : execScanListen s = .next kr) : Kept kg s kr
    := by
  have hs := Kept.refl kg s
  unfold execScanListen at hh
  first | refine done_kept hh ?_ | refine rated_kept hh ?_
  repeat' (with_reducible first
    | assumption | refine kept_ite ?_ ?_ | refine slotRx_kept ?_ | refine modLink_kept ?_ | intro _ | split
    | dsimp only)

theorem execGyaleBeaconRx_kept {kg : Guard} {x : GyaleRx} {ch : Nat} {s : State} {kr : State}
    (hh : execGyaleBeaconRx x ch s = .next kr) : Kept kg s kr := by
  have hs := Kept.refl kg s
  unfold execGyaleBeaconRx at hh
  first | refine done_kept hh ?_ | refine rated_kept hh ?_
  repeat' (with_reducible first
    | assumption | refine kept_ite ?_ ?_ | refine checkFrame_kept ?_ | refine modLink_kept ?_ | intro _ | split
    | refine Kept.of_fst (by assumption) ?_ | refine Kept.of_snd (by assumption) ?_ | dsimp only)

theorem execConnReqSend_kept {kg : Guard} {s : State} {kr : State} (hh : execConnReqSend s = .next kr) : Kept kg s kr
    := by
  have hs := Kept.refl kg s
  unfold execConnReqSend at hh
  first | refine done_kept hh ?_ | refine rated_kept hh ?_
  repeat' (with_reducible first
    | assumption | refine kept_ite ?_ ?_ | refine takeRandom_kept (by assumption) ?_ | refine modLink_kept ?_
    | refine takeFcnt_kept ?_ | refine takeSn_kept ?_ | refine slotRx_kept ?_ | refine slotTx_kept ?_
    | refine kept_getD ?_ ?_ | intro _ | split | refine Kept.of_fst (by assumption) ?_
    | refine Kept.of_snd (by assumption) ?_ | dsimp only)

theorem joinFails_kept {kg : Guard} {sk : State} {s : State} (hs : Kept kg sk s) : Kept kg sk (joinFails s) := by
  unfold joinFails
  repeat' (with_reducible first
    | assumption | refine kept_ite ?_ ?_ | refine modLink_kept ?_ | intro _ | split | dsimp only)

theorem execConnRspTimeout_kept {kg : Guard} {s : State} {kr : State} (hh : execConnRspTimeout s = .next kr) : Kept
    kg s kr := by
  have hs := Kept.refl kg s
  unfold execConnRspTimeout at hh
  first | refine done_kept hh ?_ | refine rated_kept hh ?_
  repeat' (with_reducible first
    | assumption | refine kept_ite ?_ ?_ | refine joinFails_kept ?_ | split
    | refine Kept.of_fst (by assumption) ?_ | refine Kept.of_snd (by assumption) ?_ | dsimp only)

theorem execGyaleConnReqRx_kept {kg : Guard} {x : GyaleRx} {ch : Nat} {s : State} {kr : State}
    (hh : execGyaleConnReqRx x ch s = .next kr) : Kept kg s kr := by
  have hs := Kept.refl kg s
  unfold execGyaleConnReqRx at hh
  first | refine done_kept hh ?_ | refine rated_kept hh ?_
  repeat' (with_reducible first
    | assumption | refine kept_ite ?_ ?_ | refine checkFrame_kept ?_ | refine takeFcnt_kept ?_
    | refine freeConn_kept ?_ | refine takeSn_kept ?_ | refine slotTx_kept ?_ | refine drew_kept ?_
    | refine modConn_kept ?_ | intro _ | split | refine Kept.of_fst (by assumption) ?_
    | refine Kept.of_snd (by assumption) ?_ | dsimp only)

theorem dropStale_kept {kg : Guard} {sk : State} {src : List Byte} {s : State} (hs : Kept kg sk s) : Kept kg sk
    (dropStale src s) := by
  unfold dropStale
  repeat' (with_reducible first
    | assumption | refine kept_ite ?_ ?_ | refine freeConn_kept ?_ | split | refine Kept.of_fst (by assumption) ?_
    | refine Kept.of_snd (by assumption) ?_ | dsimp only)

theorem takeConn_kept {kg : Guard} {sk : State} {j : Candidate} {p : List Byte} {s : State} (hs : Kept kg sk s) :
    Kept kg sk (takeConn j p s) := by
  unfold takeConn
  repeat' (with_reducible first
    | assumption | refine kept_ite ?_ ?_ | refine setLevel_kept ?_ | refine modLink_kept ?_
    | refine modConn_kept ?_ | refine kept_id ?_ | intro _ | split | refine Kept.of_fst (by assumption) ?_
    | refine Kept.of_snd (by assumption) ?_ | dsimp only)

theorem execGyaleConnRspRx_kept {kg : Guard} {x : GyaleRx} {s : State} {kr : State}
    (hh : execGyaleConnRspRx x s = .next kr) : Kept kg s kr := by
  have hs := Kept.refl kg s
  unfold execGyaleConnRspRx at hh
  first | refine done_kept hh ?_ | refine rated_kept hh ?_
  repeat' (with_reducible first
    | assumption | refine kept_ite ?_ ?_ | refine checkFrame_kept ?_ | refine joinFails_kept ?_
    | refine dropStale_kept ?_ | refine takeConn_kept ?_ | split | refine Kept.of_fst (by assumption) ?_
    | refine Kept.of_snd (by assumption) ?_ | dsimp only)

theorem execBeaconSend_kept {kg : Guard} {s : State} {kr : State} (hh : execBeaconSend s = .next kr) : Kept kg s kr
    := by
  have hs := Kept.refl kg s
  unfold execBeaconSend at hh
  first | refine done_kept hh ?_ | refine rated_kept hh ?_
  repeat' (with_reducible first
    | assumption | refine kept_ite ?_ ?_ | refine slotRx_kept ?_ | refine slotTx_kept ?_ | refine modLink_kept ?_
    | intro _ | split | dsimp only)

theorem execOrphanTimeout_kept {kg : Guard} {s : State} {kr : State} (hh : execOrphanTimeout s = .next kr) : Kept kg
    s kr := by
  have hs := Kept.refl kg s
  unfold execOrphanTimeout at hh
  first | refine done_kept hh ?_ | refine rated_kept hh ?_
  repeat' (with_reducible first | assumption | refine kept_ite ?_ ?_ | refine setLevel_kept ?_ | split | dsimp only)

theorem beginEvent_kept {kg : Guard} {sk : State} {c : Nat} {s : State} (hs : Kept kg sk s) : Kept kg sk
    (beginEvent c s) := by
  unfold beginEvent
  repeat' (with_reducible first
    | assumption | refine kept_ite ?_ ?_ | refine modConn_kept ?_ | intro _ | split | dsimp only)

theorem endEvent_kept {kg : Guard} {sk : State} {c : Nat} {s0 : State} (hs : Kept kg sk s0) : Kept kg sk
    (endEvent c s0) := by
  unfold endEvent
  repeat' (with_reducible first
    | assumption | refine kept_ite ?_ ?_ | refine sendDone_kept ?_ | refine modConn_kept ?_
    | refine modLink_kept ?_ | refine slotMissed_kept ?_ | refine loseConn_kept ?_ | refine kept_foldl ?_ ?_
    | refine kept_foldl1 ?_ ?_ | refine kept_foldl2 ?_ ?_ | intro _ | split | dsimp only)

theorem runEvent_kept {kg : Guard} {sk : State} {c : Nat} {s : State} (hs : Kept kg sk s) : Kept kg sk (runEvent c s)
    := by
  unfold runEvent
  repeat' (with_reducible first
    | assumption | refine kept_ite ?_ ?_ | refine dropForwards_kept ?_ | refine beginEvent_kept ?_
    | refine sendOn_kept ?_ | refine linkSync_kept ?_ | refine freeConn_kept ?_ | refine sendNext_kept ?_
    | refine modConn_kept ?_ | refine slotRx_kept ?_ | intro _ | split | refine Kept.of_fst (by assumption) ?_
    | refine Kept.of_snd (by assumption) ?_ | dsimp only)

theorem giveUpSent_kept {kg : Guard} {sk : State} {c : Nat} {s : State} (hs : Kept kg sk s) : Kept kg sk
    (giveUpSent c s) := by
  unfold giveUpSent
  repeat' (with_reducible first
    | assumption | refine kept_ite ?_ ?_ | refine modConn_kept ?_ | refine sendDone_kept ?_
    | refine modLink_kept ?_ | intro _ | split | refine Kept.of_fst (by assumption) ?_
    | refine Kept.of_snd (by assumption) ?_ | dsimp only)

theorem execEventAnswerTimeout_kept {kg : Guard} {c : Nat} {s : State} {kr : State}
    (hh : execEventAnswerTimeout c s = .next kr) : Kept kg s kr := by
  have hs := Kept.refl kg s
  unfold execEventAnswerTimeout at hh
  first | refine done_kept hh ?_ | refine rated_kept hh ?_
  repeat' (with_reducible first
    | assumption | refine kept_ite ?_ ?_ | refine sendOn_kept ?_ | refine modConn_kept ?_
    | refine endEvent_kept ?_ | refine giveUpSent_kept ?_ | intro _ | split
    | refine Kept.of_fst (by assumption) ?_ | refine Kept.of_snd (by assumption) ?_ | dsimp only)

theorem execGuardListenTimeout_kept {kg : Guard} {c : Nat} {s : State} {kr : State}
    (hh : execGuardListenTimeout c s = .next kr) : Kept kg s kr := by
  have hs := Kept.refl kg s
  unfold execGuardListenTimeout at hh
  first | refine done_kept hh ?_ | refine rated_kept hh ?_
  repeat' (with_reducible first | assumption | refine kept_ite ?_ ?_ | refine endEvent_kept ?_ | split | dsimp only)

theorem execSupervisionTimeout_kept {kg : Guard} {c : Nat} {s : State} {kr : State}
    (hh : execSupervisionTimeout c s = .next kr) : Kept kg s kr := by
  have hs := Kept.refl kg s
  unfold execSupervisionTimeout at hh
  first | refine done_kept hh ?_ | refine rated_kept hh ?_
  repeat' (with_reducible first | assumption | refine kept_ite ?_ ?_ | refine loseConn_kept ?_ | split | dsimp only)

theorem execGyaleDataRx_kept {kg : Guard} {x : GyaleRx} {s : State} {kr : State}
    (hh : execGyaleDataRx x s = .next kr) : Kept kg s kr := by
  have hs := Kept.refl kg s
  unfold execGyaleDataRx at hh
  first | refine done_kept hh ?_ | refine rated_kept hh ?_
  repeat' (with_reducible first | assumption | refine acceptOn_kept ?_ ?_ | intro _ | split | dsimp only)

theorem execGyaleAckRx_kept {kg : Guard} {x : GyaleRx} {s : State} {kr : State} (hh : execGyaleAckRx x s = .next kr)
    : Kept kg s kr := by
  have hs := Kept.refl kg s
  unfold execGyaleAckRx at hh
  first | refine done_kept hh ?_ | refine rated_kept hh ?_
  repeat' (with_reducible first
    | assumption | refine kept_ite ?_ ?_ | refine acceptOn_kept ?_ ?_ | refine modConn_kept ?_
    | refine powerLoop_kept ?_ | refine modLink_kept ?_ | refine sendDone_kept ?_ | refine dropForwards_kept ?_
    | refine sendNext_kept ?_ | refine answerListen_kept ?_ | refine endEvent_kept ?_ | intro _ | split
    | refine Kept.of_fst (by assumption) ?_ | refine Kept.of_snd (by assumption) ?_ | dsimp only)

theorem execGyaleTermRx_kept {kg : Guard} {x : GyaleRx} {s : State} {kr : State}
    (hh : execGyaleTermRx x s = .next kr) : Kept kg s kr := by
  have hs := Kept.refl kg s
  unfold execGyaleTermRx at hh
  first | refine done_kept hh ?_ | refine rated_kept hh ?_
  repeat' (with_reducible first
    | assumption | refine kept_ite ?_ ?_ | refine checkFrame_kept ?_ | refine parentGone_kept ?_
    | refine modLink_kept ?_ | refine freeConn_kept ?_ | intro _ | split | refine Kept.of_fst (by assumption) ?_
    | refine Kept.of_snd (by assumption) ?_ | dsimp only)

theorem takeMessage_kept {kg : Guard} {sk : State} {orig : List Byte} {slot : Nat} {ofcnt : Nat} {msg : List Byte}
    {airUs : Nat} {s : State} (hs : Kept kg sk s) : Kept kg sk (takeMessage orig slot ofcnt msg airUs s) := by
  unfold takeMessage
  repeat' (with_reducible first
    | assumption | refine modRadio_kept ?_ | refine writeCounter_kept ?_ | intro _ | split | dsimp only)

theorem failReasm_kept {kg : Guard} {sk : State} {orig : List Byte} {slot : Nat} {base : Nat} {s : State}
    (hs : Kept kg sk s) : Kept kg sk (failReasm orig slot base s) := by
  unfold failReasm
  repeat' (with_reducible first
    | assumption | refine kept_ite ?_ ?_ | refine modLink_kept ?_ | intro _ | split | dsimp only)

theorem dropReasm_kept {kg : Guard} {sk : State} {orig : List Byte} {slot : Nat} {base : Nat} {s : State}
    (hs : Kept kg sk s) : Kept kg sk (dropReasm orig slot base s) := by
  unfold dropReasm
  repeat' (with_reducible first
    | assumption | refine failReasm_kept ?_ | refine kept_foldl ?_ ?_ | refine kept_foldl1 ?_ ?_
    | refine kept_foldl2 ?_ ?_ | intro _ | split | dsimp only)

theorem takeFragment_kept {kg : Guard} {sk : State} {p : List Byte} {airUs : Nat} {s : State} (hs : Kept kg sk s) :
    Kept kg sk (takeFragment p airUs s) := by
  unfold takeFragment
  repeat' (with_reducible first
    | assumption | refine kept_ite ?_ ?_ | refine modLink_kept ?_ | refine failReasm_kept ?_
    | refine dropReasm_kept ?_ | refine takeMessage_kept ?_ | refine kept_getD ?_ ?_ | intro _ | split
    | refine Kept.of_fst (by assumption) ?_ | refine Kept.of_snd (by assumption) ?_ | dsimp only)

theorem floodSleepy_kept {kg : Guard} {sk : State} {c : Nat} {q : List Byte} {s : State} (hs : Kept kg sk s) : Kept
    kg sk (floodSleepy c q s) := by
  unfold floodSleepy
  repeat' (with_reducible first
    | assumption | refine queueFrame_kept ?_ | refine kept_foldl ?_ ?_ | refine kept_foldl1 ?_ ?_
    | refine kept_foldl2 ?_ ?_ | intro _ | split | dsimp only)

theorem takeLower_kept {kg : Guard} {sk : State} {c : Nat} {p : List Byte} {s : State} (hs : Kept kg sk s) : Kept kg
    sk (takeLower c p s) := by
  unfold takeLower
  repeat' (with_reducible first
    | assumption | refine kept_ite ?_ ?_ | refine modLink_kept ?_ | refine floodSleepy_kept ?_ | intro _ | split
    | dsimp only)

theorem routed_kept {kg : Guard} {sk : State} {uplink : Bool} {c : Nat} {h : LinkHdr} {airUs : Nat} {s : State}
    (hs : Kept kg sk s) : Kept kg sk (routed uplink c h airUs s) := by
  unfold routed
  repeat' (with_reducible first
    | assumption | refine kept_ite ?_ ?_ | refine modLink_kept ?_ | refine takeLower_kept ?_
    | refine takeFragment_kept ?_ | refine pauseRelay_kept ?_ | refine drawMs_kept ?_ | refine floodSleepy_kept ?_
    | intro _ | split | dsimp only)

theorem execGyaleFloodRx_kept {kg : Guard} {x : GyaleRx} {s : State} {kr : State}
    (hh : execGyaleFloodRx x s = .next kr) : Kept kg s kr := by
  have hs := Kept.refl kg s
  unfold execGyaleFloodRx at hh
  first | refine done_kept hh ?_ | refine rated_kept hh ?_
  repeat' (with_reducible first
    | assumption | refine acceptOn_kept ?_ ?_ | refine routed_kept ?_ | intro _ | split | dsimp only)

theorem execGyaleUplinkRx_kept {kg : Guard} {x : GyaleRx} {s : State} {kr : State}
    (hh : execGyaleUplinkRx x s = .next kr) : Kept kg s kr := by
  have hs := Kept.refl kg s
  unfold execGyaleUplinkRx at hh
  first | refine done_kept hh ?_ | refine rated_kept hh ?_
  repeat' (with_reducible first
    | assumption | refine acceptOn_kept ?_ ?_ | refine routed_kept ?_ | intro _ | split | dsimp only)

theorem forwardNow_kept {kg : Guard} {sk : State} {f : Forward} {s : State} (hs : Kept kg sk s) : Kept kg sk
    (forwardNow f s) := by
  unfold forwardNow
  repeat' (with_reducible first
    | assumption | refine kept_ite ?_ ?_ | refine pauseRelay_kept ?_ | refine queueFrame_kept ?_
    | refine modLink_kept ?_ | refine kept_foldl ?_ ?_ | refine kept_foldl1 ?_ ?_ | refine kept_foldl2 ?_ ?_
    | intro _ | split | refine Kept.of_fst (by assumption) ?_ | refine Kept.of_snd (by assumption) ?_ | dsimp only)

theorem execRelayForward_kept {kg : Guard} {s : State} {kr : State} (hh : execRelayForward s = .next kr) : Kept kg s
    kr := by
  have hs := Kept.refl kg s
  unfold execRelayForward at hh
  first | refine done_kept hh ?_ | refine rated_kept hh ?_
  repeat' (with_reducible first
    | assumption | refine kept_ite ?_ ?_ | refine forwardNow_kept ?_ | refine modLink_kept ?_
    | refine kept_foldl ?_ ?_ | refine kept_foldl1 ?_ ?_ | refine kept_foldl2 ?_ ?_ | intro _ | split | dsimp only)

theorem execReassemblyTimeout_kept {kg : Guard} {s : State} {kr : State} (hh : execReassemblyTimeout s = .next kr) :
    Kept kg s kr := by
  have hs := Kept.refl kg s
  unfold execReassemblyTimeout at hh
  first | refine done_kept hh ?_ | refine rated_kept hh ?_
  repeat' (with_reducible first
    | assumption | refine failReasm_kept ?_ | refine kept_foldl ?_ ?_ | refine kept_foldl1 ?_ ?_
    | refine kept_foldl2 ?_ ?_ | intro _ | split | dsimp only)

theorem sendMessage_kept {kg : Guard} {sk : State} {uplink : Bool} {ttl : Nat} {fdst : List Byte} {msg : List Byte}
    {job : Option Nat} {s : State} (hs : Kept kg sk s) : Kept kg sk (sendMessage uplink ttl fdst msg job s).1 := by
  unfold sendMessage
  repeat' (with_reducible first
    | assumption | refine kept_ite ?_ ?_ | refine setLevel_kept ?_ | refine reserve_kept ?_
    | refine noteSpent_kept ?_ | refine modLink_kept ?_ | refine queueFrame_kept ?_ | refine kept_foldl ?_ ?_
    | refine kept_foldl1 ?_ ?_ | refine kept_foldl2 ?_ ?_ | intro _ | split
    | refine Kept.of_fst (by assumption) ?_ | refine Kept.of_snd (by assumption) ?_ | dsimp only)

theorem oweAnswer_kept {kg : Guard} {sk : State} {x : OwedAnswer} {s : State} (hs : Kept kg sk s) : Kept kg sk
    (oweAnswer x s) := by
  unfold oweAnswer
  repeat' (with_reducible first | assumption | refine modLink_kept ?_ | intro _ | split | dsimp only)

theorem sendOwed_kept {kg : Guard} {sk : State} {s : State} (hs : Kept kg sk s) : Kept kg sk (sendOwed s) := by
  unfold sendOwed
  repeat' (with_reducible first
    | assumption | refine kept_ite ?_ ?_ | refine modLink_kept ?_ | refine sendMessage_kept ?_
    | refine kept_foldl ?_ ?_ | refine kept_foldl1 ?_ ?_ | refine kept_foldl2 ?_ ?_ | intro _ | split
    | refine Kept.of_fst (by assumption) ?_ | refine Kept.of_snd (by assumption) ?_ | dsimp only)

theorem execConnectionEvent_kept {kg : Guard} {c : Nat} {s : State} {kr : State}
    (hh : execConnectionEvent c s = .next kr) : Kept kg s kr := by
  have hs := Kept.refl kg s
  unfold execConnectionEvent at hh
  first | refine done_kept hh ?_ | refine rated_kept hh ?_
  repeat' (with_reducible first
    | assumption | refine kept_ite ?_ ?_ | refine runEvent_kept ?_ | refine sendOwed_kept ?_ | split | dsimp only)

theorem execSleepySlot_kept {kg : Guard} {c : Nat} {s : State} {kr : State} (hh : execSleepySlot c s = .next kr) :
    Kept kg s kr := by
  have hs := Kept.refl kg s
  unfold execSleepySlot at hh
  first | refine done_kept hh ?_ | refine rated_kept hh ?_
  repeat' (with_reducible first
    | assumption | refine kept_ite ?_ ?_ | refine runEvent_kept ?_ | refine sendOwed_kept ?_ | split | dsimp only)

theorem linkSendJob_kept {kg : Guard} {sk : State} {j : Job} {s : State} (hs : Kept kg sk s) : Kept kg sk
    (linkSendJob j s) := by
  unfold linkSendJob
  repeat' (with_reducible first
    | assumption | refine kept_ite ?_ ?_ | refine engineEnds_kept ?_ | refine sendMessage_kept ?_
    | refine kept_id ?_ | intro _ | split | dsimp only)

theorem execLinkSend_kept {kg : Guard} {tag : Nat} {s : State} {kr : State} (hh : execLinkSend tag s = .next kr) :
    Kept kg s kr := by
  have hs := Kept.refl kg s
  unfold execLinkSend at hh
  first | refine done_kept hh ?_ | refine rated_kept hh ?_
  repeat' (with_reducible first
    | assumption | refine onJob_kept ?_ ?_ | refine linkSendJob_kept ?_ | intro _ | dsimp only)

theorem leaveParent_kept {kg : Guard} {sk : State} {reason : Nat} {s : State} (hs : Kept kg sk s) : Kept kg sk
    (leaveParent reason s) := by
  unfold leaveParent
  repeat' (with_reducible first
    | assumption | refine kept_ite ?_ ?_ | refine enterScan_kept ?_ | refine freeConn_kept ?_
    | refine sendOn_kept ?_ | split | refine Kept.of_fst (by assumption) ?_
    | refine Kept.of_snd (by assumption) ?_ | dsimp only)

theorem linkLeaveJob_kept {kg : Guard} {sk : State} {j : Job} {s : State} (hs : Kept kg sk s) : Kept kg sk
    (linkLeaveJob j s) := by
  unfold linkLeaveJob
  repeat' (with_reducible first
    | assumption | refine kept_ite ?_ ?_ | refine engineEnds_kept ?_ | refine leaveParent_kept ?_
    | refine kept_id ?_ | split | dsimp only)

theorem execLinkLeave_kept {kg : Guard} {tag : Nat} {s : State} {kr : State} (hh : execLinkLeave tag s = .next kr) :
    Kept kg s kr := by
  have hs := Kept.refl kg s
  unfold execLinkLeave at hh
  first | refine done_kept hh ?_ | refine rated_kept hh ?_
  repeat' (with_reducible first
    | assumption | refine onJob_kept ?_ ?_ | refine linkLeaveJob_kept ?_ | intro _ | dsimp only)

theorem linkRescanJob_kept {kg : Guard} {sk : State} {j : Job} {s : State} (hs : Kept kg sk s) : Kept kg sk
    (linkRescanJob j s) := by
  unfold linkRescanJob
  repeat' (with_reducible first
    | assumption | refine kept_ite ?_ ?_ | refine engineEnds_kept ?_ | refine freeConn_kept ?_
    | refine enterScan_kept ?_ | refine kept_id ?_ | split | refine Kept.of_fst (by assumption) ?_
    | refine Kept.of_snd (by assumption) ?_ | dsimp only)

theorem execLinkRescan_kept {kg : Guard} {tag : Nat} {s : State} {kr : State} (hh : execLinkRescan tag s = .next kr)
    : Kept kg s kr := by
  have hs := Kept.refl kg s
  unfold execLinkRescan at hh
  first | refine done_kept hh ?_ | refine rated_kept hh ?_
  repeat' (with_reducible first
    | assumption | refine onJob_kept ?_ ?_ | refine linkRescanJob_kept ?_ | intro _ | dsimp only)

end Sys2Proof.Machine
end

