-- ==== Sys2Proof/Laws/KeptQuoin.lean ====
section
/-! SUPPORT. What each operation of the cipher, the roles and the journal keeps. -/

namespace Sys2Proof.Machine

set_option linter.all false

theorem giveChallenge_kept {kg : Guard} {sk : State} {i : Nat} {w : AuthWait} {nc : List Byte} {s : State}
    (hs : Kept kg sk s) : Kept kg sk (giveChallenge i w nc s) := by
  unfold giveChallenge
  repeat' (with_reducible first
    | assumption | refine modSess_kept ?_ | refine modRoles_kept ?_ | refine engineEnds_kept ?_
    | refine kept_id ?_ | intro _ | split | refine Kept.of_fst (by assumption) ?_
    | refine Kept.of_snd (by assumption) ?_ | dsimp only)

theorem authBegin_kept {kg : Guard} {sk : State} {master : Nat} {role : Nat} {nh : List Byte} {job : Option Nat}
    {s : State} (hs : Kept kg sk s) : Kept kg sk (authBegin master role nh job s).1 := by
  unfold authBegin
  repeat' (with_reducible first
    | assumption | refine kept_ite ?_ ?_ | refine modSess_kept ?_ | refine endSession_kept ?_
    | refine setLevel_kept ?_ | refine takeRandom_kept (by assumption) ?_ | refine giveChallenge_kept ?_ | intro _
    | split | refine Kept.of_fst (by assumption) ?_ | refine Kept.of_snd (by assumption) ?_ | dsimp only)

theorem serveAuth_kept {kg : Guard} {sk : State} {s : State} (hs : Kept kg sk s) : Kept kg sk (serveAuth s) := by
  unfold serveAuth
  repeat' (with_reducible first
    | assumption | refine takeRandom_kept (by assumption) ?_ | refine giveChallenge_kept ?_
    | refine kept_foldl ?_ ?_ | refine kept_foldl1 ?_ ?_ | refine kept_foldl2 ?_ ?_ | intro _ | split
    | refine Kept.of_fst (by assumption) ?_ | refine Kept.of_snd (by assumption) ?_ | dsimp only)

theorem authFailed_kept {kg : Guard} {sk : State} {i : Nat} {role : Nat} {nc : List Byte} {nh : List Byte}
    {s : State} (hs : Kept kg sk s) : Kept kg sk (authFailed i role nc nh s) := by
  unfold authFailed
  repeat' (with_reducible first
    | assumption | refine kept_ite ?_ ?_ | refine raise_kept ?_ | refine modSess_kept ?_ | refine audit_kept ?_
    | intro _ | split | dsimp only)

theorem authFinish_kept {kg : Guard} {sk : State} {master : Nat} {resp : List Byte} {fi : Bool} {s : State}
    (hs : Kept kg sk s) : Kept kg sk (authFinish master resp fi s).1 := by
  unfold authFinish
  repeat' (with_reducible first
    | assumption | refine kept_ite ?_ ?_ | refine modRoles_kept ?_ | refine modSess_kept ?_
    | refine runCmac_kept ?_ | refine faultInject_kept ?_ | refine authFailed_kept ?_ | refine audit_kept ?_
    | refine freePeers_kept ?_ | refine lockedFill_kept ?_ | refine modPorts_kept ?_ | refine setLevel_kept ?_
    | refine kept_id ?_ | intro _ | split | refine Kept.of_fst (by assumption) ?_
    | refine Kept.of_snd (by assumption) ?_ | dsimp only)

theorem sessionEnd_kept {kg : Guard} {sk : State} {master : Nat} {s : State} (hs : Kept kg sk s) : Kept kg sk
    (sessionEnd master s).1 := by
  unfold sessionEnd
  repeat' (with_reducible first
    | assumption | refine endSession_kept ?_ | split | refine Kept.of_fst (by assumption) ?_
    | refine Kept.of_snd (by assumption) ?_ | dsimp only)

theorem execSessionIdleTimeout_kept {kg : Guard} {i : Nat} {s : State} {kr : State}
    (hh : execSessionIdleTimeout i s = .next kr) : Kept kg s kr := by
  have hs := Kept.refl kg s
  unfold execSessionIdleTimeout at hh
  first | refine done_kept hh ?_ | refine rated_kept hh ?_
  repeat' (with_reducible first | assumption | refine kept_ite ?_ ?_ | refine endSession_kept ?_ | split | dsimp only)

theorem execSessionMaxTimeout_kept {kg : Guard} {i : Nat} {s : State} {kr : State}
    (hh : execSessionMaxTimeout i s = .next kr) : Kept kg s kr := by
  have hs := Kept.refl kg s
  unfold execSessionMaxTimeout at hh
  first | refine done_kept hh ?_ | refine rated_kept hh ?_
  repeat' (with_reducible first | assumption | refine kept_ite ?_ ?_ | refine endSession_kept ?_ | split | dsimp only)

theorem execChallengeExpiry_kept {kg : Guard} {i : Nat} {s : State} {kr : State}
    (hh : execChallengeExpiry i s = .next kr) : Kept kg s kr := by
  have hs := Kept.refl kg s
  unfold execChallengeExpiry at hh
  first | refine done_kept hh ?_ | refine rated_kept hh ?_
  repeat' (with_reducible first
    | assumption | refine kept_ite ?_ ?_ | refine modRoles_kept ?_ | refine modSess_kept ?_ | intro _ | split
    | refine Kept.of_fst (by assumption) ?_ | refine Kept.of_snd (by assumption) ?_ | dsimp only)

theorem execLockoutEnd_kept {kg : Guard} {s : State} {kr : State} (hh : execLockoutEnd s = .next kr) : Kept kg s kr
    := by
  have hs := Kept.refl kg s
  unfold execLockoutEnd at hh
  first | refine done_kept hh ?_ | refine rated_kept hh ?_
  repeat' (with_reducible first | assumption | refine kept_ite ?_ ?_ | refine setLevel_kept ?_ | split | dsimp only)

theorem modConsent_kept {kg : Guard} {sk : State} {e : Nat} {f : Consent → Consent} {s : State} (hs : Kept kg sk s) :
    Kept kg sk (modConsent e f s) := by
  unfold modConsent
  repeat' (with_reducible first | assumption | refine modRoles_kept ?_ | intro _ | split | dsimp only)

theorem auditConsent_kept {kg : Guard} {sk : State} {kind : Nat} {a : Actor} {ref : Nat} {its : Nat}
    {digest : List Byte} {st : Status} {s : State} (hs : Kept kg sk s) : Kept kg sk
    (auditConsent kind a ref its digest st s) := by
  unfold auditConsent
  repeat' (with_reducible first | assumption | refine audit_kept ?_ | dsimp only)

theorem tokenFailed_kept {kg : Guard} {sk : State} {a : Actor} {st : Status} {s : State} (hs : Kept kg sk s) : Kept
    kg sk (tokenFailed a st s) := by
  unfold tokenFailed
  repeat' (with_reducible first
    | assumption | refine kept_ite ?_ ?_ | refine authFailed_kept ?_ | refine raise_kept ?_ | split
    | refine Kept.of_fst (by assumption) ?_ | refine Kept.of_snd (by assumption) ?_ | dsimp only)

theorem consentProposeJob_kept {kg : Guard} {sk : State} {j : Job} {s : State} (hs : Kept kg sk s) : Kept kg sk
    (consentProposeJob j s) := by
  unfold consentProposeJob
  repeat' (with_reducible first
    | assumption | refine kept_ite ?_ ?_ | refine engineEnds_kept ?_ | refine auditConsent_kept ?_
    | refine tokenFailed_kept ?_ | refine modRoles_kept ?_ | refine modConsent_kept ?_ | refine kept_id ?_
    | intro _ | split | refine Kept.of_fst (by assumption) ?_ | refine Kept.of_snd (by assumption) ?_ | dsimp only)

theorem execConsentPropose_kept {kg : Guard} {tag : Nat} {s : State} {kr : State}
    (hh : execConsentPropose tag s = .next kr) : Kept kg s kr := by
  have hs := Kept.refl kg s
  unfold execConsentPropose at hh
  first | refine done_kept hh ?_ | refine rated_kept hh ?_
  repeat' (with_reducible first
    | assumption | refine onJob_kept ?_ ?_ | refine consentProposeJob_kept ?_ | intro _ | dsimp only)

theorem consentLock_kept {kg : Guard} {sk : State} {j : Job} {s : State} (hs : Kept kg sk s) : Kept kg sk
    (consentLock j s) := by
  unfold consentLock
  repeat' (with_reducible first
    | assumption | refine kept_ite ?_ ?_ | refine modMason_kept ?_ | intro _ | split | dsimp only)

theorem consentSignJob_kept {kg : Guard} {sk : State} {j : Job} {s0 : State} (hs : Kept kg sk s0) : Kept kg sk
    (consentSignJob j s0) := by
  unfold consentSignJob
  repeat' (with_reducible first
    | assumption | refine kept_ite ?_ ?_ | refine unlockAs_kept ?_ | refine engineEnds_kept ?_
    | refine auditConsent_kept ?_ | refine tokenFailed_kept ?_ | refine modConsent_kept ?_
    | refine raiseIf_kept ?_ | refine kept_id ?_ | intro _ | split | refine Kept.of_fst (by assumption) ?_
    | refine Kept.of_snd (by assumption) ?_ | dsimp only)

theorem execConsentSign_kept {kg : Guard} {tag : Nat} {s : State} {kr : State}
    (hh : execConsentSign tag s = .next kr) : Kept kg s kr := by
  have hs := Kept.refl kg s
  unfold execConsentSign at hh
  first | refine done_kept hh ?_ | refine rated_kept hh ?_
  repeat' (with_reducible first
    | assumption | refine onJob_kept ?_ ?_ | refine consentSignJob_kept ?_ | intro _ | dsimp only)

theorem consentWithdrawJob_kept {kg : Guard} {sk : State} {j : Job} {s : State} (hs : Kept kg sk s) : Kept kg sk
    (consentWithdrawJob j s) := by
  unfold consentWithdrawJob
  repeat' (with_reducible first
    | assumption | refine kept_ite ?_ ?_ | refine engineEnds_kept ?_ | refine auditConsent_kept ?_
    | refine modConsent_kept ?_ | refine kept_id ?_ | intro _ | split | refine Kept.of_fst (by assumption) ?_
    | refine Kept.of_snd (by assumption) ?_ | dsimp only)

theorem execConsentWithdraw_kept {kg : Guard} {tag : Nat} {s : State} {kr : State}
    (hh : execConsentWithdraw tag s = .next kr) : Kept kg s kr := by
  have hs := Kept.refl kg s
  unfold execConsentWithdraw at hh
  first | refine done_kept hh ?_ | refine rated_kept hh ?_
  repeat' (with_reducible first
    | assumption | refine onJob_kept ?_ ?_ | refine consentWithdrawJob_kept ?_ | intro _ | dsimp only)

theorem expireConsent_kept {kg : Guard} {sk : State} {e : Nat} {st : ConsentState} {s : State} (hs : Kept kg sk s) :
    Kept kg sk (expireConsent e st s) := by
  unfold expireConsent
  repeat' (with_reducible first
    | assumption | refine kept_ite ?_ ?_ | refine auditConsent_kept ?_ | refine raise_kept ?_
    | refine modConsent_kept ?_ | intro _ | split | dsimp only)

theorem execConsentSignExpiry_kept {kg : Guard} {e : Nat} {s : State} {kr : State}
    (hh : execConsentSignExpiry e s = .next kr) : Kept kg s kr := by
  have hs := Kept.refl kg s
  unfold execConsentSignExpiry at hh
  first | refine done_kept hh ?_ | refine rated_kept hh ?_
  repeat' (with_reducible first | assumption | refine expireConsent_kept ?_ | dsimp only)

theorem execConsentUseExpiry_kept {kg : Guard} {e : Nat} {s : State} {kr : State}
    (hh : execConsentUseExpiry e s = .next kr) : Kept kg s kr := by
  have hs := Kept.refl kg s
  unfold execConsentUseExpiry at hh
  first | refine done_kept hh ?_ | refine rated_kept hh ?_
  repeat' (with_reducible first | assumption | refine expireConsent_kept ?_ | dsimp only)

theorem execDebugHoursExpiry_kept {kg : Guard} {s : State} {kr : State} (hh : execDebugHoursExpiry s = .next kr) :
    Kept kg s kr := by
  have hs := Kept.refl kg s
  unfold execDebugHoursExpiry at hh
  first | refine done_kept hh ?_ | refine rated_kept hh ?_
  repeat' (with_reducible first
    | assumption | refine kept_ite ?_ ?_ | refine modRoles_kept ?_ | intro _ | split | dsimp only)

theorem cipherJob_kept {kg : Guard} {sk : State} {op : Nat} {tag : Nat} {fi : Option Nat} {s : State}
    (hs : Kept kg sk s) : Kept kg sk (cipherJob op tag fi s) := by
  unfold cipherJob
  repeat' (with_reducible first
    | assumption | refine kept_ite ?_ ?_ | refine engineEnds_kept ?_ | refine runBlocks_kept ?_
    | refine faultInject_kept ?_ | refine modCipher_kept ?_ | refine modGran_kept ?_ | refine kept_id ?_
    | refine kept_getD ?_ ?_ | refine kept_foldl ?_ ?_ | refine kept_foldl1 ?_ ?_ | refine kept_foldl2 ?_ ?_
    | intro _ | split | refine Kept.of_fst (by assumption) ?_ | refine Kept.of_snd (by assumption) ?_ | dsimp only)

theorem execCcmSeal_kept {kg : Guard} {tag : Nat} {fi : Option Nat} {s : State} {kr : State}
    (hh : execCcmSeal tag fi s = .next kr) : Kept kg s kr := by
  have hs := Kept.refl kg s
  unfold execCcmSeal at hh
  first | refine done_kept hh ?_ | refine rated_kept hh ?_
  repeat' (with_reducible first | assumption | refine cipherJob_kept ?_ | dsimp only)

theorem execCcmOpen_kept {kg : Guard} {tag : Nat} {fi : Option Nat} {s : State} {kr : State}
    (hh : execCcmOpen tag fi s = .next kr) : Kept kg s kr := by
  have hs := Kept.refl kg s
  unfold execCcmOpen at hh
  first | refine done_kept hh ?_ | refine rated_kept hh ?_
  repeat' (with_reducible first | assumption | refine cipherJob_kept ?_ | dsimp only)

theorem execCtr_kept {kg : Guard} {tag : Nat} {fi : Option Nat} {s : State} {kr : State}
    (hh : execCtr tag fi s = .next kr) : Kept kg s kr := by
  have hs := Kept.refl kg s
  unfold execCtr at hh
  first | refine done_kept hh ?_ | refine rated_kept hh ?_
  repeat' (with_reducible first | assumption | refine cipherJob_kept ?_ | dsimp only)

theorem execCbcEnc_kept {kg : Guard} {tag : Nat} {fi : Option Nat} {s : State} {kr : State}
    (hh : execCbcEnc tag fi s = .next kr) : Kept kg s kr := by
  have hs := Kept.refl kg s
  unfold execCbcEnc at hh
  first | refine done_kept hh ?_ | refine rated_kept hh ?_
  repeat' (with_reducible first | assumption | refine cipherJob_kept ?_ | dsimp only)

theorem execCbcDec_kept {kg : Guard} {tag : Nat} {fi : Option Nat} {s : State} {kr : State}
    (hh : execCbcDec tag fi s = .next kr) : Kept kg s kr := by
  have hs := Kept.refl kg s
  unfold execCbcDec at hh
  first | refine done_kept hh ?_ | refine rated_kept hh ?_
  repeat' (with_reducible first | assumption | refine cipherJob_kept ?_ | dsimp only)

theorem execCmacGen_kept {kg : Guard} {tag : Nat} {fi : Option Nat} {s : State} {kr : State}
    (hh : execCmacGen tag fi s = .next kr) : Kept kg s kr := by
  have hs := Kept.refl kg s
  unfold execCmacGen at hh
  first | refine done_kept hh ?_ | refine rated_kept hh ?_
  repeat' (with_reducible first | assumption | refine cipherJob_kept ?_ | dsimp only)

theorem execCmacVer_kept {kg : Guard} {tag : Nat} {fi : Option Nat} {s : State} {kr : State}
    (hh : execCmacVer tag fi s = .next kr) : Kept kg s kr := by
  have hs := Kept.refl kg s
  unfold execCmacVer at hh
  first | refine done_kept hh ?_ | refine rated_kept hh ?_
  repeat' (with_reducible first | assumption | refine cipherJob_kept ?_ | dsimp only)

theorem execZeroize_kept {kg : Guard} {tag : Nat} {ns : Nat} {repeats : Nat} {s : State} {kr : State}
    (hh : execZeroize tag ns repeats s = .next kr) : Kept kg s kr := by
  have hs := Kept.refl kg s
  unfold execZeroize at hh
  first | refine done_kept hh ?_ | refine rated_kept hh ?_
  repeat' (with_reducible first
    | assumption | refine kept_ite ?_ ?_ | refine engineEnds_kept ?_ | refine alarm_kept ?_ | refine kept_id ?_
    | split | refine Kept.of_fst (by assumption) ?_ | refine Kept.of_snd (by assumption) ?_ | dsimp only)

theorem stopEngine_kept {kg : Guard} {sk : State} {s : State} (hs : Kept kg sk s) : Kept kg sk (stopEngine s) := by
  unfold stopEngine
  repeat' (with_reducible first
    | assumption | refine raise_kept ?_ | refine modCipher_kept ?_ | refine engineEnds_kept ?_ | refine kept_id ?_
    | refine kept_foldl ?_ ?_ | refine kept_foldl1 ?_ ?_ | refine kept_foldl2 ?_ ?_ | intro _ | split | dsimp only)

theorem execAlarm_kept {kg : Guard} {source : Nat} {ns : Nat} {repeats : Nat} {s : State} {kr : State}
    (hh : execAlarm source ns repeats s = .next kr) : Kept kg s kr := by
  have hs := Kept.refl kg s
  unfold execAlarm at hh
  first | refine done_kept hh ?_ | refine rated_kept hh ?_
  repeat' (with_reducible first
    | assumption | refine kept_ite ?_ ?_ | refine abortLoads_kept ?_ | refine alarm_kept ?_
    | refine stopEngine_kept ?_ | split | dsimp only)

theorem execEraseRepeat_kept {kg : Guard} {failing : Nat} {ns : Nat} {s : State} {kr : State}
    (hh : execEraseRepeat failing ns s = .next kr) : Kept kg s kr := by
  have hs := Kept.refl kg s
  unfold execEraseRepeat at hh
  first | refine done_kept hh ?_ | refine rated_kept hh ?_
  repeat' (with_reducible first
    | assumption | refine kept_ite ?_ ?_ | refine modKeys_kept ?_ | intro _ | split | dsimp only)

theorem takeRaw_kept {kg : Guard} {sk : State} {raw : List Bool} {s : State} (hs : Kept kg sk s) : Kept kg sk
    (takeRaw raw s).1 := by
  unfold takeRaw
  repeat' (with_reducible first
    | assumption | refine modEntropy_kept ?_ | refine healthFail_kept ?_ | intro _ | split
    | refine Kept.of_fst (by assumption) ?_ | refine Kept.of_snd (by assumption) ?_ | dsimp only)

theorem serveRandom_kept {kg : Guard} {sk : State} {j : Job} {s : State} (hs : Kept kg sk s) : Kept kg sk
    (serveRandom j s) := by
  unfold serveRandom
  repeat' (with_reducible first
    | assumption | refine kept_ite ?_ ?_ | refine takeRandom_kept (by assumption) ?_ | refine engineEnds_kept ?_
    | refine modJob_kept ?_ | refine kept_id ?_ | intro _ | split | refine Kept.of_fst (by assumption) ?_
    | refine Kept.of_snd (by assumption) ?_ | dsimp only)

theorem randomJob_kept {kg : Guard} {sk : State} {j : Job} {s : State} (hs : Kept kg sk s) : Kept kg sk
    (randomJob j s) := by
  unfold randomJob
  repeat' (with_reducible first
    | assumption | refine kept_ite ?_ ?_ | refine engineEnds_kept ?_ | refine serveRandom_kept ?_
    | refine modJob_kept ?_ | refine kept_id ?_ | intro _ | split | dsimp only)

theorem execRandom_kept {kg : Guard} {tag : Nat} {s : State} {kr : State} (hh : execRandom tag s = .next kr) : Kept
    kg s kr := by
  have hs := Kept.refl kg s
  unfold execRandom at hh
  first | refine done_kept hh ?_ | refine rated_kept hh ?_
  repeat' (with_reducible first
    | assumption | refine onJob_kept ?_ ?_ | refine randomJob_kept ?_ | intro _ | dsimp only)

theorem rawSamplesJob_kept {kg : Guard} {sk : State} {raw : List Bool} {j : Job} {s : State} (hs : Kept kg sk s) :
    Kept kg sk (rawSamplesJob raw j s) := by
  unfold rawSamplesJob
  repeat' (with_reducible first
    | assumption | refine kept_ite ?_ ?_ | refine engineEnds_kept ?_ | refine takeRaw_kept ?_ | refine kept_id ?_
    | intro _ | split | dsimp only)

theorem execRawSamples_kept {kg : Guard} {tag : Nat} {raw : List Bool} {s : State} {kr : State}
    (hh : execRawSamples tag raw s = .next kr) : Kept kg s kr := by
  have hs := Kept.refl kg s
  unfold execRawSamples at hh
  first | refine done_kept hh ?_ | refine rated_kept hh ?_
  repeat' (with_reducible first
    | assumption | refine onJob_kept ?_ ?_ | refine rawSamplesJob_kept ?_ | intro _ | dsimp only)

theorem execEntropyWaitTimeout_kept {kg : Guard} {w : EntropyWaiter} {s : State} {kr : State}
    (hh : execEntropyWaitTimeout w s = .next kr) : Kept kg s kr := by
  have hs := Kept.refl kg s
  unfold execEntropyWaitTimeout at hh
  first | refine done_kept hh ?_ | refine rated_kept hh ?_
  repeat' (with_reducible first
    | assumption | refine kept_ite ?_ ?_ | refine engineEnds_kept ?_ | refine modRoles_kept ?_
    | refine modSess_kept ?_ | refine modLink_kept ?_ | refine kept_id ?_ | intro _ | split
    | refine Kept.of_fst (by assumption) ?_ | refine Kept.of_snd (by assumption) ?_ | dsimp only)

theorem execConditionedBlock_kept {kg : Guard} {raw : List Bool} {s : State} {kr : State}
    (hh : execConditionedBlock raw s = .next kr) : Kept kg s kr := by
  have hs := Kept.refl kg s
  unfold execConditionedBlock at hh
  first | refine done_kept hh ?_ | refine rated_kept hh ?_
  repeat' (with_reducible first
    | assumption | refine kept_ite ?_ ?_ | refine takeRaw_kept ?_ | refine modEntropy_kept ?_
    | refine seedMask_kept ?_ | refine serveRandom_kept ?_ | refine serveAuth_kept ?_ | refine kept_foldl ?_ ?_
    | refine kept_foldl1 ?_ ?_ | refine kept_foldl2 ?_ ?_ | intro _ | split
    | refine Kept.of_fst (by assumption) ?_ | refine Kept.of_snd (by assumption) ?_ | dsimp only)

theorem execStartupTestPass_kept {kg : Guard} {raw : List Bool} {s : State} {kr : State}
    (hh : execStartupTestPass raw s = .next kr) : Kept kg s kr := by
  have hs := Kept.refl kg s
  unfold execStartupTestPass at hh
  first | refine done_kept hh ?_ | refine rated_kept hh ?_
  repeat' (with_reducible first
    | assumption | refine kept_ite ?_ ?_ | refine takeRaw_kept ?_ | refine modEntropy_kept ?_ | intro _ | split
    | refine Kept.of_fst (by assumption) ?_ | refine Kept.of_snd (by assumption) ?_ | dsimp only)

theorem execHealthTestFail_kept {kg : Guard} {raw : List Bool} {s : State} {kr : State}
    (hh : execHealthTestFail raw s = .next kr) : Kept kg s kr := by
  have hs := Kept.refl kg s
  unfold execHealthTestFail at hh
  first | refine done_kept hh ?_ | refine rated_kept hh ?_
  repeat' (with_reducible first | assumption | refine kept_ite ?_ ?_ | refine takeRaw_kept ?_ | split | dsimp only)

theorem execMaskStale_kept {kg : Guard} {s : State} {kr : State} (hh : execMaskStale s = .next kr) : Kept kg s kr :=
    by
  have hs := Kept.refl kg s
  unfold execMaskStale at hh
  first | refine done_kept hh ?_ | refine rated_kept hh ?_
  repeat' (with_reducible first | assumption | refine kept_ite ?_ ?_ | refine noteStale_kept ?_ | split | dsimp only)

theorem houseSubmit_kept {kg : Guard} {sk : State} {op : Nat} {arg : Nat} {s : State} (hs : Kept kg sk s) : Kept kg
    sk (houseSubmit op arg s) := by
  unfold houseSubmit
  repeat' (with_reducible first
    | assumption | refine chipJob_kept ?_ | intro _ | split | refine Kept.of_fst (by assumption) ?_
    | refine Kept.of_snd (by assumption) ?_ | dsimp only)

theorem houseJob_kept {kg : Guard} {sk : State} {op : Nat} {arg : Nat} {s : State} (hs : Kept kg sk s) : Kept kg sk
    (houseJob op arg s) := by
  unfold houseJob
  repeat' (with_reducible first
    | assumption | refine kept_ite ?_ ?_ | refine houseSubmit_kept ?_ | intro _ | split | dsimp only)

theorem askReclaim_kept {kg : Guard} {sk : State} {s : State} (hs : Kept kg sk s) : Kept kg sk (askReclaim s) := by
  unfold askReclaim
  repeat' (with_reducible first | assumption | refine kept_ite ?_ ?_ | refine houseJob_kept ?_ | split | dsimp only)

theorem fillPending_kept {kg : Guard} {sk : State} {j : Job} {s : State} (hs : Kept kg sk s) : Kept kg sk
    (fillPending j s) := by
  unfold fillPending
  repeat' (with_reducible first
    | assumption | refine kept_ite ?_ ?_ | refine modJob_kept ?_ | refine clearStepSum_kept ?_
    | refine modInteg_kept ?_ | refine pushWork_kept ?_ | refine holdPage_kept ?_ | refine kept_id ?_
    | refine kept_foldl ?_ ?_ | refine kept_foldl1 ?_ ?_ | refine kept_foldl2 ?_ ?_ | intro _ | split | dsimp only)

theorem beginJob_kept {kg : Guard} {sk : State} {mv : Nat} {j : Job} {s : State} (hs : Kept kg sk s) : Kept kg sk
    (beginJob mv j s) := by
  unfold beginJob
  repeat' (with_reducible first
    | assumption | refine modJournal_kept ?_ | refine takeVbat_kept ?_ | refine kept_id ?_ | intro _ | split
    | dsimp only)

theorem writeJob_kept {kg : Guard} {sk : State} {mv : Nat} {j : Job} {s : State} (hs : Kept kg sk s) : Kept kg sk
    (writeJob mv j s) := by
  unfold writeJob
  repeat' (with_reducible first
    | assumption | refine kept_ite ?_ ?_ | refine engineEnds_kept ?_ | refine beginJob_kept ?_
    | refine beginReclaim_kept ?_ | refine fillPending_kept ?_ | refine kept_id ?_ | split
    | refine Kept.of_fst (by assumption) ?_ | refine Kept.of_snd (by assumption) ?_ | dsimp only)

theorem execWrite_kept {kg : Guard} {tag : Nat} {mv : Nat} {s : State} {kr : State}
    (hh : execWrite tag mv s = .next kr) : Kept kg s kr := by
  have hs := Kept.refl kg s
  unfold execWrite at hh
  first | refine done_kept hh ?_ | refine rated_kept hh ?_
  repeat' (with_reducible first
    | assumption | refine onJob_kept ?_ ?_ | refine writeJob_kept ?_ | intro _ | dsimp only)

theorem commitEffects_kept {kg : Guard} {sk : State} {img : List Byte} {s : State} (hs : Kept kg sk s) : Kept kg sk
    (commitEffects img s) := by
  unfold commitEffects
  repeat' (with_reducible first
    | assumption | refine kept_ite ?_ ?_ | refine billJournaled_kept ?_ | refine counterCommitted_kept ?_
    | refine kept_foldl ?_ ?_ | refine kept_foldl1 ?_ ?_ | refine kept_foldl2 ?_ ?_ | intro _ | split | dsimp only)

theorem commitPage_kept {kg : Guard} {sk : State} {p : PendingPage} {s : State} (hs : Kept kg sk s) : Kept kg sk
    (commitPage p s) := by
  unfold commitPage
  repeat' (with_reducible first
    | assumption | refine kept_ite ?_ ?_ | refine journalUnlock_kept ?_ | refine modJournal_kept ?_
    | refine indexPage_kept ?_ | refine askReclaim_kept ?_ | refine engineEnds_kept ?_
    | refine commitEffects_kept ?_ | refine kept_id ?_ | refine kept_foldl ?_ ?_ | refine kept_foldl1 ?_ ?_
    | refine kept_foldl2 ?_ ?_ | intro _ | split | dsimp only)

theorem settleEnd_kept {kg : Guard} {sk : State} {mv : Nat} {s : State} (hs : Kept kg sk s) : Kept kg sk
    (settleEnd mv s) := by
  unfold settleEnd
  repeat' (with_reducible first
    | assumption | refine kept_ite ?_ ?_ | refine settle_kept ?_ | refine takeVbat_kept ?_
    | refine touchFlash_kept ?_ | refine drew_kept ?_ | refine commitPage_kept ?_ | refine pageFailed_kept ?_
    | refine journalUnlock_kept ?_ | refine modJournal_kept ?_ | intro _ | split
    | refine Kept.of_fst (by assumption) ?_ | refine Kept.of_snd (by assumption) ?_ | dsimp only)

theorem pendBrownout_kept {kg : Guard} {sk : State} {s : State} (hs : Kept kg sk s) : Kept kg sk (pendBrownout s) :=
    by
  unfold pendBrownout
  repeat' (with_reducible first
    | assumption | refine engineEnds_kept ?_ | refine modJournal_kept ?_ | refine kept_id ?_
    | refine kept_getD ?_ ?_ | refine kept_foldl ?_ ?_ | refine kept_foldl1 ?_ ?_ | refine kept_foldl2 ?_ ?_
    | intro _ | split | dsimp only)

theorem mountBrownout_kept {kg : Guard} {sk : State} {op : FlashOpSt} {s : State} (hs : Kept kg sk s) : Kept kg sk
    (mountBrownout op s) := by
  unfold mountBrownout
  repeat' (with_reducible first
    | assumption | refine kept_ite ?_ ?_ | refine journalUnlock_kept ?_ | refine freePeak_kept ?_
    | refine modJournal_kept ?_ | refine settle_kept ?_ | intro _ | split | refine Kept.of_fst (by assumption) ?_
    | refine Kept.of_snd (by assumption) ?_ | dsimp only)

theorem flashBrownout_kept {kg : Guard} {sk : State} {s : State} (hs : Kept kg sk s) : Kept kg sk (flashBrownout s)
    := by
  unfold flashBrownout
  repeat' (with_reducible first
    | assumption | refine kept_ite ?_ ?_ | refine cutOp_kept ?_ | refine giveUp_kept ?_
    | refine mountBrownout_kept ?_ | refine pendBrownout_kept ?_ | refine dropWork_kept ?_
    | refine modJournal_kept ?_ | refine fillPending_kept ?_ | refine kept_getD ?_ ?_ | intro _ | split
    | refine Kept.of_fst (by assumption) ?_ | refine Kept.of_snd (by assumption) ?_ | dsimp only)

theorem execBrownoutRewrite_kept {kg : Guard} {mv : Nat} {s : State} {kr : State}
    (hh : execBrownoutRewrite mv s = .next kr) : Kept kg s kr := by
  have hs := Kept.refl kg s
  unfold execBrownoutRewrite at hh
  first | refine done_kept hh ?_ | refine rated_kept hh ?_
  repeat' (with_reducible first
    | assumption | refine kept_ite ?_ ?_ | refine takeVbat_kept ?_ | refine pushWork_kept ?_ | intro _ | split
    | refine Kept.of_fst (by assumption) ?_ | refine Kept.of_snd (by assumption) ?_ | dsimp only)

theorem execFlashBusyTimeout_kept {kg : Guard} {s : State} {kr : State} (hh : execFlashBusyTimeout s = .next kr) :
    Kept kg s kr := by
  have hs := Kept.refl kg s
  unfold execFlashBusyTimeout at hh
  first | refine done_kept hh ?_ | refine rated_kept hh ?_
  repeat' (with_reducible first | assumption | refine kept_ite ?_ ?_ | refine raise_kept ?_ | split | dsimp only)

theorem execFlashIdlePowerDown_kept {kg : Guard} {s : State} {kr : State} (hh : execFlashIdlePowerDown s = .next kr)
    : Kept kg s kr := by
  have hs := Kept.refl kg s
  unfold execFlashIdlePowerDown at hh
  first | refine done_kept hh ?_ | refine rated_kept hh ?_
  repeat' (with_reducible first
    | assumption | refine kept_ite ?_ ?_ | refine modJournal_kept ?_ | intro _ | split | dsimp only)

theorem fetchPage_kept {kg : Guard} {sk : State} {st : Nat} {seq : Nat} {s : State} (hs : Kept kg sk s) : Kept kg sk
    (fetchPage st seq s).2 := by
  unfold fetchPage
  repeat' (with_reducible first
    | assumption | refine kept_ite ?_ ?_ | refine raise_kept ?_ | refine modJournal_kept ?_
    | refine unindex_kept ?_ | refine drew_kept ?_ | refine raiseIf_kept ?_ | refine houseJob_kept ?_ | intro _
    | split | refine Kept.of_fst (by assumption) ?_ | refine Kept.of_snd (by assumption) ?_ | dsimp only)

theorem readJob_kept {kg : Guard} {sk : State} {j : Job} {s : State} (hs : Kept kg sk s) : Kept kg sk (readJob j s)
    := by
  unfold readJob
  repeat' (with_reducible first
    | assumption | refine kept_ite ?_ ?_ | refine engineEnds_kept ?_ | refine onFlash_kept ?_ ?_
    | refine fetchPage_kept ?_ | refine kept_id ?_ | intro _ | split | refine Kept.of_fst (by assumption) ?_
    | refine Kept.of_snd (by assumption) ?_ | dsimp only)

theorem execRead_kept {kg : Guard} {tag : Nat} {s : State} {kr : State} (hh : execRead tag s = .next kr) : Kept kg s
    kr := by
  have hs := Kept.refl kg s
  unfold execRead at hh
  first | refine done_kept hh ?_ | refine rated_kept hh ?_
  repeat' (with_reducible first | assumption | refine onJob_kept ?_ ?_ | refine readJob_kept ?_ | intro _ | dsimp only)

theorem rawReadJob_kept {kg : Guard} {sk : State} {j : Job} {s : State} (hs : Kept kg sk s) : Kept kg sk
    (rawReadJob j s) := by
  unfold rawReadJob
  repeat' (with_reducible first
    | assumption | refine kept_ite ?_ ?_ | refine engineEnds_kept ?_ | refine onFlash_kept ?_ ?_
    | refine drew_kept ?_ | refine kept_id ?_ | intro _ | split | dsimp only)

theorem execRawRead_kept {kg : Guard} {tag : Nat} {s : State} {kr : State} (hh : execRawRead tag s = .next kr) : Kept
    kg s kr := by
  have hs := Kept.refl kg s
  unfold execRawRead at hh
  first | refine done_kept hh ?_ | refine rated_kept hh ?_
  repeat' (with_reducible first
    | assumption | refine onJob_kept ?_ ?_ | refine rawReadJob_kept ?_ | intro _ | dsimp only)

theorem houseStart_kept {k : Guard} {s0 : State} {tag op mv : Nat} {f : Job → State → State} {s : State}
    (hf : ∀ j t, Kept k s0 t → Kept k s0 (f j t)) (hs : Kept k s0 s) : Kept k s0 (houseStart tag op mv f s) :=
  onJob_kept (fun _ _ h => kept_ite (engineEnds_kept h) (kept_ite h (pushWork_kept (hf _ _ (beginJob_kept h))))) hs

theorem reclaimJob_kept {k : Guard} {s0 : State} {pick : State → Option Sector} {j : Job} {s : State}
    (hs : Kept k s0 s) : Kept k s0 (reclaimJob pick j s) := by
  unfold reclaimJob
  split
  · exact pushWork_kept hs
  · exact beginReclaim_kept hs

theorem execReclaim_kept {kg : Guard} {tag : Nat} {mv : Nat} {s : State} {kr : State}
    (hh : execReclaim tag mv s = .next kr) : Kept kg s kr := by
  have hs := Kept.refl kg s
  unfold execReclaim at hh
  first | refine done_kept hh ?_ | refine rated_kept hh ?_
  repeat' (with_reducible first
    | assumption | refine houseStart_kept ?_ ?_ | refine reclaimJob_kept ?_ | intro _ | dsimp only)

theorem execRelocate_kept {kg : Guard} {tag : Nat} {mv : Nat} {s : State} {kr : State}
    (hh : execRelocate tag mv s = .next kr) : Kept kg s kr := by
  have hs := Kept.refl kg s
  unfold execRelocate at hh
  first | refine done_kept hh ?_ | refine rated_kept hh ?_
  repeat' (with_reducible first
    | assumption | refine houseStart_kept ?_ ?_ | refine reclaimJob_kept ?_ | intro _ | dsimp only)

theorem execJournalRefresh_kept {kg : Guard} {tag : Nat} {mv : Nat} {s : State} {kr : State}
    (hh : execJournalRefresh tag mv s = .next kr) : Kept kg s kr := by
  have hs := Kept.refl kg s
  unfold execJournalRefresh at hh
  first | refine done_kept hh ?_ | refine rated_kept hh ?_
  repeat' (with_reducible first
    | assumption | refine houseStart_kept ?_ ?_ | refine pushWork_kept ?_ | intro _ | split | dsimp only)

theorem houseEnd_kept {kg : Guard} {sk : State} {k : HouseKind} {s : State} (hs : Kept kg sk s) : Kept kg sk
    (houseEnd k s) := by
  unfold houseEnd
  repeat' (with_reducible first
    | assumption | refine kept_ite ?_ ?_ | refine askReclaim_kept ?_ | refine modJournal_kept ?_
    | refine engineEnds_kept ?_ | refine kept_id ?_ | intro _ | split | refine Kept.of_fst (by assumption) ?_
    | refine Kept.of_snd (by assumption) ?_ | dsimp only)

theorem wearDay_kept {kg : Guard} {sk : State} {day : Nat} {s : State} (hs : Kept kg sk s) : Kept kg sk
    (wearDay day s) := by
  unfold wearDay
  repeat' (with_reducible first
    | assumption | refine kept_ite ?_ ?_ | refine modJournal_kept ?_ | refine setLevel_kept ?_
    | refine houseSubmit_kept ?_ | refine houseJob_kept ?_ | refine kept_foldl ?_ ?_ | refine kept_foldl1 ?_ ?_
    | refine kept_foldl2 ?_ ?_ | intro _ | split | dsimp only)

theorem mountDefects_kept {kg : Guard} {sk : State} {s : State} (hs : Kept kg sk s) : Kept kg sk (mountDefects s) :=
    by
  unfold mountDefects
  repeat' (with_reducible first
    | assumption | refine kept_ite ?_ ?_ | refine raise_kept ?_ | refine modJournal_kept ?_
    | refine raiseIf_kept ?_ | refine kept_getD ?_ ?_ | intro _ | split | refine Kept.of_fst (by assumption) ?_
    | refine Kept.of_snd (by assumption) ?_ | dsimp only)

theorem mountPage_kept {kg : Guard} {sk : State} {a : Nat} {s : State} (hs : Kept kg sk s) : Kept kg sk
    (mountPage a s) := by
  unfold mountPage
  repeat' (with_reducible first
    | assumption | refine kept_ite ?_ ?_ | refine modJournal_kept ?_ | refine indexPage_kept ?_ | intro _ | split
    | dsimp only)

theorem mountScan_kept {kg : Guard} {sk : State} {s : State} (hs : Kept kg sk s) : Kept kg sk (mountScan s) := by
  unfold mountScan
  repeat' (with_reducible first
    | assumption | refine modJournal_kept ?_ | refine mountPage_kept ?_ | refine kept_foldl ?_ ?_
    | refine kept_foldl1 ?_ ?_ | refine kept_foldl2 ?_ ?_ | intro _ | split | dsimp only)

theorem mountPending_kept {kg : Guard} {sk : State} {s : State} (hs : Kept kg sk s) : Kept kg sk (mountPending s) :=
    by
  unfold mountPending
  repeat' (with_reducible first
    | assumption | refine kept_ite ?_ ?_ | refine modJournal_kept ?_ | refine raise_kept ?_
    | refine pushWork_kept ?_ | refine commitEffects_kept ?_ | intro _ | split
    | refine Kept.of_fst (by assumption) ?_ | refine Kept.of_snd (by assumption) ?_ | dsimp only)

theorem mountSummary_kept {kg : Guard} {sk : State} {ms : Nat} {s : State} (hs : Kept kg sk s) : Kept kg sk
    (mountSummary ms s) := by
  unfold mountSummary
  repeat' (with_reducible first
    | assumption | refine kept_ite ?_ ?_ | refine pushWork_kept ?_ | refine holdPage_kept ?_
    | refine clearStepSum_kept ?_ | split | dsimp only)

end Sys2Proof.Machine
end

