-- ==== Sys2Proof/Laws/KeptBoot.lean ====
section
/-! SUPPORT. What each operation of start-up, the image, supplies and time keeps. -/

namespace Sys2Proof.Machine

set_option linter.all false

theorem mainOff_kept {k : Guard} {s0 s : State} (hkfence : k.fence = false) (hkgrave : k.grave = false)
    (hs : Kept k s0 s) : Kept k s0 (mainOff s) :=
  have h1 := kept_foldl (f := fun t i => emptySlot (sessionSlot i) t) (l := List.range 4) (cutFlash_kept hs)
    fun _ _ h => emptySlot_kept h
  ⟨h1.pending, h1.otp, h1.otpWf, h1.crcWf, h1.flashWf, fun _ => rfl, h1.dt, fun g => by simp [hkgrave] at g,
    fun _ _ => rfl, h1.img, h1.lost, fun g => by simp [hkfence] at g⟩

theorem nth_map_fenced {n : Nat} (v : Vector FaultWin n) (f : FaultWin → FaultWin)
    (hf : ∀ w, (f w).fenced = w.fenced) (i : Nat) (h : (nth v i).fenced = true) :
    (nth (v.map f) i).fenced = true := by
  unfold nth at *
  by_cases hi : i < n
  · simpa [Vector.getElem?_eq_getElem, hi, hf] using h
  · have : v[i]? = none := by simp; omega
    rw [this] at h
    exact absurd h (by decide)

theorem coldAon_kept {k : Guard} {s0 s : State} (hkdt : k.dt = false) (hs : Kept k s0 s) : Kept k s0 (coldAon s) :=
  ⟨hs.pending, hs.otp, hs.otpWf, hs.crcWf, hs.flashWf, hs.sramWf, fun g => by simp [hkdt] at g, hs.grave,
    hs.bare, hs.img, hs.lost,
    fun g b i h => nth_map_fenced _ (fun w => { w with histDropped := 0 }) (fun _ => rfl) i (hs.fence g b i h)⟩

theorem enterBare_kept {k : Guard} {s0 : State} {reason : Nat} {s : State} (hkfence : k.fence = false)
    (hkimg : k.img = false) (hs : Kept k s0 s) : Kept k s0 (enterBare reason s) := by
  unfold enterBare
  refine setLevel_kept (kept_ite (fillSlot_kept ?_) (setAttr_kept ?_)) <;>
    exact modBoot_kept_bare hkimg hkfence (abortLoads_kept hs)

theorem checkSlots_kept {kg : Guard} {sk : State} {bad : List Nat} {s : State} (hs : Kept kg sk s) : Kept kg sk
    (checkSlots bad s) := by
  unfold checkSlots
  repeat' (with_reducible first
    | assumption | refine kept_ite ?_ ?_ | refine modSlot_kept ?_ | refine raise_kept ?_
    | refine emptySlot_kept ?_ | refine kept_foldl ?_ ?_ | refine kept_foldl1 ?_ ?_ | refine kept_foldl2 ?_ ?_
    | intro _ | split | dsimp only)

theorem stageOtp_kept {kg : Guard} {sk : State} {o : BootObs} {s : State} (hkfence : kg.fence = false)
    (hkimg : kg.img = false) (hs : Kept kg sk s) : Kept kg sk (stageOtp o s) := by
  unfold stageOtp
  repeat' (with_reducible first
    | assumption | refine kept_ite ?_ ?_ | refine checkSlots_kept ?_
    | refine modBoot_kept (fun _ => rfl) (fun _ h => h) ?_ | refine abortLoads_kept ?_
    | refine enterBare_kept (by assumption) (by assumption) ?_ | refine loadSlot0_kept ?_ | intro _ | split
    | dsimp only)

theorem stageProbe_kept {kg : Guard} {sk : State} {o : BootObs} {s : State} (hkfence : kg.fence = false)
    (hkimg : kg.img = false) (hs : Kept kg sk s) : Kept kg sk (stageProbe o s) := by
  unfold stageProbe
  repeat' (with_reducible first
    | assumption | refine kept_ite ?_ ?_ | refine modJournal_kept ?_
    | refine enterBare_kept (by assumption) (by assumption) ?_ | refine kept_id ?_ | intro _ | split
    | refine Kept.of_fst (by assumption) ?_ | refine Kept.of_snd (by assumption) ?_ | dsimp only)

theorem setCopy_kept {kg : Guard} {sk : State} {isB : Bool} {c : CopyStatus} {s : State} (hs : Kept kg sk s) : Kept
    kg sk (setCopy isB c s) := by
  unfold setCopy
  repeat' (with_reducible first
    | assumption | refine kept_ite ?_ ?_ | refine modBoot_kept (fun _ => rfl) (fun _ h => h) ?_ | intro _ | split
    | dsimp only)

theorem judged_kept {kg : Guard} {sk : State} {isB : Bool} {j : Judged} {s : State} (hs : Kept kg sk s) : Kept kg sk
    (judged isB j s) := by
  unfold judged
  repeat' (with_reducible first | assumption | refine raiseIf_kept ?_ | refine setCopy_kept ?_ | dsimp only)

theorem verified_kept {kg : Guard} {sk : State} {isB : Bool} {s : State} (hs : Kept kg sk s) : Kept kg sk
    (verified isB s) := by
  unfold verified
  repeat' (with_reducible first | assumption | refine judged_kept ?_ | refine maskedBlocks_kept ?_ | dsimp only)

theorem selectRun_kept {kg : Guard} {sk : State} {a : Judged} {b : Judged} {s : State} (hkfence : kg.fence = false)
    (hkimg : kg.img = false) (hs : Kept kg sk s) : Kept kg sk (selectRun a b s) := by
  unfold selectRun
  repeat' (with_reducible first
    | assumption | refine kept_ite ?_ ?_ | refine raiseIf_kept ?_
    | refine modBoot_kept (fun _ => rfl) (fun _ h => h) ?_
    | refine enterBare_kept (by assumption) (by assumption) ?_ | intro _ | split
    | refine Kept.of_fst (by assumption) ?_ | refine Kept.of_snd (by assumption) ?_ | dsimp only)

theorem applyImage_kept {k : Guard} {s0 : State} {j : Judged} {s : State} (hkfence : k.fence = false)
    (hkimg : k.img = false) (hs : Kept k s0 s) : Kept k s0 (applyImage j s) :=
  kept_faultsF hkfence (fun h => h) (modBoot_kept_img hkimg (fun _ h => h) hs)

theorem loadSlots_kept {kg : Guard} {sk : State} {fi : List Nat} {s : State} (hs : Kept kg sk s) : Kept kg sk
    (loadSlots fi s) := by
  unfold loadSlots
  repeat' (with_reducible first
    | assumption | refine kept_ite ?_ ?_ | refine loadEntry_kept ?_ | refine modSlot_kept ?_
    | refine setAttr_kept ?_ | refine kept_foldl ?_ ?_ | refine kept_foldl1 ?_ ?_ | refine kept_foldl2 ?_ ?_
    | intro _ | split | refine Kept.of_fst (by assumption) ?_ | refine Kept.of_snd (by assumption) ?_ | dsimp only)

theorem applyCopy_kept {k : Guard} {s0 : State} {cold isB : Bool} {fi : List Nat} {j : Judged} {s : State}
    (hkfence : k.fence = false) (hkimg : k.img = false) (hs : Kept k s0 s) : Kept k s0 (applyCopy cold fi isB j s) := by
  unfold applyCopy
  have h1 : Kept k s0 (if j.active then s
      else setCopy isB { j.status with active := true } (programByte {} (copyBase isB + 0x13) 0x5A s)) :=
    kept_ite hs (setCopy_kept (programByte_kept hs))
  have h2 := loadSlots_kept (fi := fi) (applyImage_kept (j := j) hkfence hkimg h1)
  refine kept_ite ?_ h2
  exact h2.same rfl rfl rfl rfl rfl rfl rfl rfl rfl rfl

theorem stageApply_kept {kg : Guard} {sk : State} {cold : Bool} {o : BootObs} {s : State}
    (hkfence : kg.fence = false) (hkimg : kg.img = false) (hs : Kept kg sk s) : Kept kg sk (stageApply cold o s) :=
    by
  unfold stageApply
  repeat' (with_reducible first
    | assumption | refine kept_ite ?_ ?_ | refine applyCopy_kept (by assumption) (by assumption) ?_
    | refine selectRun_kept (by assumption) (by assumption) ?_
    | refine modBoot_kept (fun _ => rfl) (fun _ h => h) ?_ | refine judged_kept ?_ | intro _ | split | dsimp only)

theorem refence_kept {kg : Guard} {sk : State} {failed : Bool} {u : FaultUnit} {s : State} (hs : Kept kg sk s) : Kept
    kg sk (refence failed u s) := by
  unfold refence
  repeat' (with_reducible first
    | assumption | refine kept_ite ?_ ?_ | refine andThen_kept ?_ | intro _ | split
    | refine Kept.of_fst (by assumption) ?_ | refine Kept.of_snd (by assumption) ?_ | dsimp only)

theorem testGranules_kept {k : Guard} {s0 : State} {bad : List Nat} {s : State} (hs : Kept k s0 s) :
    Kept k s0 (testGranules bad s) := by
  unfold testGranules
  refine kept_foldl ?_ fun _ _ h => raise_kept (modGran_kept h)
  exact hs.sram_of (fun _ => rfl) rfl rfl rfl rfl rfl rfl rfl rfl rfl

theorem testEntropy_kept {kg : Guard} {sk : State} {bits : List Bool} {s : State} (hs : Kept kg sk s) : Kept kg sk
    (testEntropy bits s) := by
  unfold testEntropy
  repeat' (with_reducible first
    | assumption | refine kept_ite ?_ ?_ | refine modEntropy_kept ?_ | refine takeRaw_kept ?_
    | refine refence_kept ?_ | intro _ | split | dsimp only)

theorem testFtu_kept {kg : Guard} {sk : State} {o : BootObs} {s : State} (hs : Kept kg sk s) : Kept kg sk
    (testFtu o s) := by
  unfold testFtu
  repeat' (with_reducible first
    | assumption | refine modFtu_kept ?_ | refine raiseIf_kept ?_ | refine takeDnl_kept ?_
    | refine refence_kept ?_ | intro _ | split | refine Kept.of_fst (by assumption) ?_
    | refine Kept.of_snd (by assumption) ?_ | dsimp only)

theorem testLanes_kept {kg : Guard} {sk : State} {o : BootObs} {s : State} (hs : Kept kg sk s) : Kept kg sk
    (testLanes o s) := by
  unfold testLanes
  repeat' (with_reducible first
    | assumption | refine modScribe_kept ?_ | refine refence_kept ?_ | refine setLevel_kept ?_
    | refine kept_getD ?_ ?_ | refine kept_foldl ?_ ?_ | refine kept_foldl1 ?_ ?_ | refine kept_foldl2 ?_ ?_
    | intro _ | split | dsimp only)

theorem testLines_kept {kg : Guard} {sk : State} {o : BootObs} {s : State} (hs : Kept kg sk s) : Kept kg sk
    (testLines o s) := by
  unfold testLines
  repeat' (with_reducible first
    | assumption | refine checkLine_kept ?_ | refine refence_kept ?_ | refine kept_foldl ?_ ?_
    | refine kept_foldl1 ?_ ?_ | refine kept_foldl2 ?_ ?_ | intro _ | split | dsimp only)

theorem testSegments_kept {kg : Guard} {sk : State} {o : BootObs} {s : State} (hs : Kept kg sk s) : Kept kg sk
    (testSegments o s) := by
  unfold testSegments
  repeat' (with_reducible first
    | assumption | refine kept_ite ?_ ?_ | refine refence_kept ?_ | refine raise_kept ?_ | refine modLcd_kept ?_
    | intro _ | split | refine Kept.of_fst (by assumption) ?_ | refine Kept.of_snd (by assumption) ?_ | dsimp only)

theorem stageTest_kept {kg : Guard} {sk : State} {o : BootObs} {s : State} (hs : Kept kg sk s) : Kept kg sk
    (stageTest o s) := by
  unfold stageTest
  repeat' (with_reducible first
    | assumption | refine testSegments_kept ?_ | refine testLines_kept ?_ | refine testLanes_kept ?_
    | refine testFtu_kept ?_ | refine testEntropy_kept ?_ | refine testGranules_kept ?_ | dsimp only)

theorem checkInteg_kept {kg : Guard} {sk : State} {bad1 : Bool} {bad2 : Bool} {s : State} (hs : Kept kg sk s) : Kept
    kg sk (checkInteg bad1 bad2 s) := by
  unfold checkInteg
  repeat' (with_reducible first
    | assumption | refine kept_ite ?_ ?_ | refine raise_kept ?_ | refine modJournal_kept ?_
    | refine modInteg_kept ?_ | refine raiseIf_kept ?_ | intro _ | split | dsimp only)

theorem checkBill_kept {kg : Guard} {sk : State} {bad : List Nat} {s : State} (hs : Kept kg sk s) : Kept kg sk
    (checkBill bad s) := by
  unfold checkBill
  repeat' (with_reducible first
    | assumption | refine kept_ite ?_ ?_ | refine raise_kept ?_ | refine modBill_kept ?_ | refine kept_foldl ?_ ?_
    | refine kept_foldl1 ?_ ?_ | refine kept_foldl2 ?_ ?_ | intro _ | split | dsimp only)

theorem checkTamper_kept {kg : Guard} {sk : State} {bad : Bool} {s : State} (hs : Kept kg sk s) : Kept kg sk
    (checkTamper bad s) := by
  unfold checkTamper
  repeat' (with_reducible first
    | assumption | refine kept_ite ?_ ?_ | refine raise_kept ?_ | refine modTamper_kept ?_ | intro _ | split
    | dsimp only)

theorem checkAon_kept {kg : Guard} {sk : State} {cold : Bool} {o : BootObs} {s : State} (hs : Kept kg sk s) : Kept kg
    sk (checkAon cold o s) := by
  unfold checkAon
  repeat' (with_reducible first
    | assumption | refine kept_ite ?_ ?_ | refine modJournal_kept ?_ | refine modTamper_kept ?_
    | refine checkTamper_kept ?_ | refine checkBill_kept ?_ | refine checkInteg_kept ?_ | intro _ | split
    | dsimp only)

theorem raiseLatched_kept {kg : Guard} {sk : State} {s : State} (hs : Kept kg sk s) : Kept kg sk (raiseLatched s) :=
    by
  unfold raiseLatched
  repeat' (with_reducible first
    | assumption | refine raiseAt_kept ?_ | refine modFaults_kept (fun _ h => h) (fun _ => rfl) ?_
    | refine kept_foldl ?_ ?_ | refine kept_foldl1 ?_ ?_ | refine kept_foldl2 ?_ ?_ | intro _ | split | dsimp only)

theorem raiseLevels_kept {kg : Guard} {sk : State} {s : State} (hs : Kept kg sk s) : Kept kg sk (raiseLevels s) := by
  unfold raiseLevels
  repeat' (with_reducible first
    | assumption | refine setLevel_kept ?_ | refine kept_foldl ?_ ?_ | refine kept_foldl1 ?_ ?_
    | refine kept_foldl2 ?_ ?_ | intro _ | split | dsimp only)

theorem moveAlarms_kept {kg : Guard} {sk : State} {s : State} (hs : Kept kg sk s) : Kept kg sk (moveAlarms s) := by
  unfold moveAlarms
  repeat' (with_reducible first | assumption | refine modKeys_kept ?_ | intro _ | split | dsimp only)

theorem startEngines_kept {k : Guard} {s0 s : State} (hs : Kept k s0 s) : Kept k s0 (startEngines s) :=
  hs.same rfl rfl rfl rfl rfl rfl rfl rfl rfl rfl

theorem submitMount_kept {kg : Guard} {sk : State} {s : State} (hs : Kept kg sk s) : Kept kg sk (submitMount s) := by
  unfold submitMount
  repeat' (with_reducible first | assumption | refine chipJob_kept ?_ | dsimp only)

theorem startTamper_kept {kg : Guard} {sk : State} {s : State} (hs : Kept kg sk s) : Kept kg sk (startTamper s) := by
  unfold startTamper
  repeat' (with_reducible first | assumption | refine modTamper_kept ?_ | intro _ | split | dsimp only)

theorem stageRun_kept {kg : Guard} {sk : State} {cold : Bool} {cause : StartCause} {o : BootObs} {s : State}
    (hs : Kept kg sk s) : Kept kg sk (stageRun cold cause o s) := by
  unfold stageRun
  repeat' (with_reducible first
    | assumption | refine kept_ite ?_ ?_ | refine react_kept ?_ | refine startTamper_kept ?_
    | refine startEngines_kept ?_ | refine modBoot_kept (fun _ => rfl) (fun _ h => h) ?_ | refine raiseIf_kept ?_
    | refine raiseLevels_kept ?_ | refine raiseLatched_kept ?_ | refine submitMount_kept ?_
    | refine drainTamper_kept ?_ | refine moveAlarms_kept ?_ | refine kept_id ?_ | intro _ | split | dsimp only)

theorem stalled_kept {kg : Guard} {sk : State} {o : BootObs} {stage : Nat} {s : State} (hs : Kept kg sk s) : Kept kg
    sk (stalled o stage s) := by
  unfold stalled
  repeat' (with_reducible first
    | assumption | refine kept_ite ?_ ?_ | refine beginLoad_kept ?_ | split
    | refine Kept.of_fst (by assumption) ?_ | refine Kept.of_snd (by assumption) ?_ | dsimp only)

theorem runStage_kept {k : Guard} {s0 : State} {o : BootObs} {s : State} {x : Nat × (State → State)}
    (hf : ∀ t, Kept k s0 t → Kept k s0 (x.2 t)) (hs : Kept k s0 s) : Kept k s0 (runStage o s x) := by
  unfold runStage
  repeat' (with_reducible first
    | assumption
    | refine kept_ite ?_ ?_
    | refine hf _ ?_
    | refine stalled_kept ?_
    | refine modBoot_kept (fun _ => rfl) (fun _ h => h) ?_
    | dsimp only)

theorem lateStages_kept {k : Guard} {s0 : State} {cold : Bool} {cause : StartCause} {o : BootObs} {s : State}
    (hkfence : k.fence = false) (hkimg : k.img = false) (hs : Kept k s0 s) :
    Kept k s0 ((lateStages cold cause o).foldl (runStage o) s) := by
  refine kept_foldl_mem hs fun t x hx h => runStage_kept (fun u hu => ?_) h
  simp only [lateStages, List.mem_cons, List.not_mem_nil, or_false] at hx
  rcases hx with rfl | rfl | rfl | rfl | rfl | rfl | rfl <;> dsimp only
  · exact stageProbe_kept hkfence hkimg hu
  · exact verified_kept hu
  · exact verified_kept hu
  · exact selectRun_kept hkfence hkimg hu
  · exact stageApply_kept hkfence hkimg hu
  · exact checkAon_kept (stageTest_kept hu)
  · exact stageRun_kept hu

theorem stageReset_kept {k : Guard} {s0 : State} {cause : StartCause} {o : BootObs} {s : State}
    (hkdt : k.dt = false) (hkfence : k.fence = false) (hkimg : k.img = false) (hklost : k.lost = false)
    (hs : Kept k s0 s) : Kept k s0 (stageReset cause o s) := by
  unfold stageReset
  have h1 : Kept k s0 (if (s.lintel.retlost || !o.patternOk || o.vretTouch) = true then coldAon s else s) :=
    kept_ite (coldAon_kept hkdt hs) hs
  refine resetWindows_kept hkfence ?_
  exact ⟨h1.pending, h1.otp, h1.otpWf, h1.crcWf, h1.flashWf, h1.sramWf, h1.dt, h1.grave,
    fun _ _ => rfl, fun g => by simp [hkimg] at g, fun g => by simp [hklost] at g, h1.fence⟩

theorem bringUp_kept {k : Guard} {s0 : State} {cause : StartCause} {o : BootObs} {s : State}
    (hkdt : k.dt = false) (hkfence : k.fence = false) (hkimg : k.img = false) (hklost : k.lost = false)
    (hs : Kept k s0 s) : Kept k s0 (bringUp cause o s) := by
  have h := stageReset_kept (cause := cause) (o := o) hkdt hkfence hkimg hklost hs
  unfold bringUp
  generalize stageReset cause o s = u at h
  rw [List.foldl_cons, List.foldl_cons]
  refine lateStages_kept hkfence hkimg ?_
  refine runStage_kept ?_ (runStage_kept ?_ h) <;> intro t ht
  · dsimp only
    exact stageOtp_kept hkfence hkimg ht
  · dsimp only
    exact modEntropy_kept ht

theorem takeCharge_kept {kg : Guard} {sk : State} {c : Charge} {s : State} (hs : Kept kg sk s) : Kept kg sk
    (takeCharge c s) := by
  unfold takeCharge
  repeat' (with_reducible first
    | assumption | refine kept_ite ?_ ?_ | refine modGov_kept ?_ | refine kept_foldl ?_ ?_
    | refine kept_foldl1 ?_ ?_ | refine kept_foldl2 ?_ ?_ | intro _ | split | dsimp only)

theorem evaluateAllow_kept {kg : Guard} {sk : State} {day : Nat} {s : State} (hs : Kept kg sk s) : Kept kg sk
    (evaluateAllow day s) := by
  unfold evaluateAllow
  repeat' (with_reducible first | assumption | refine modGov_kept ?_ | dsimp only)

theorem evaluateRoll_kept {kg : Guard} {sk : State} {day : Nat} {s : State} (hs : Kept kg sk s) : Kept kg sk
    (evaluateRoll day s) := by
  unfold evaluateRoll
  repeat' (with_reducible first
    | assumption | refine kept_ite ?_ ?_ | refine modGov_kept ?_ | refine writeEvent_kept ?_
    | refine wearDay_kept ?_ | split | dsimp only)

theorem execGovernorDayRoll_kept {kg : Guard} {c : Charge} {s : State} {kr : State}
    (hh : execGovernorDayRoll c s = .next kr) : Kept kg s kr := by
  have hs := Kept.refl kg s
  unfold execGovernorDayRoll at hh
  first | refine done_kept hh ?_ | refine rated_kept hh ?_
  repeat' (with_reducible first
    | assumption | refine kept_ite ?_ ?_ | refine modGov_kept ?_ | refine takeCharge_kept ?_
    | refine evaluateRoll_kept ?_ | refine modLcd_kept ?_ | refine linkDayRoll_kept ?_ | intro _ | split
    | dsimp only)

theorem execGovernorCatchup_kept {kg : Guard} {s : State} {kr : State} (hh : execGovernorCatchup s = .next kr) : Kept
    kg s kr := by
  have hs := Kept.refl kg s
  unfold execGovernorCatchup at hh
  first | refine done_kept hh ?_ | refine rated_kept hh ?_
  repeat' (with_reducible first
    | assumption | refine kept_ite ?_ ?_ | refine evaluateRoll_kept ?_ | refine modGov_kept ?_
    | refine kept_foldl ?_ ?_ | refine kept_foldl1 ?_ ?_ | refine kept_foldl2 ?_ ?_ | intro _ | split | dsimp only)

theorem restoreAcc_kept {kg : Guard} {sk : State} {src : State} {s : State} (hs : Kept kg sk s) : Kept kg sk
    (restoreAcc src s) := by
  unfold restoreAcc
  repeat' (with_reducible first
    | assumption | refine kept_ite ?_ ?_ | refine modLintel_kept (fun _ h => h) ?_ | refine modTamper_kept ?_
    | refine modInteg_kept ?_ | refine writeEvent_kept ?_ | refine kept_getD ?_ ?_ | intro _ | split
    | refine Kept.of_fst (by assumption) ?_ | refine Kept.of_snd (by assumption) ?_ | dsimp only)

theorem restoreDt_kept {kg : Guard} {sk : State} {src : State} {s : State} (hkdt : kg.dt = false) (hs : Kept kg sk s)
    : Kept kg sk (restoreDt src s) := by
  unfold restoreDt
  repeat' (with_reducible first
    | assumption | refine modTime_kept (fun _ => rfl) ?_ | refine modTime_kept_dt (by assumption) ?_ | intro _
    | split | refine Kept.of_fst (by assumption) ?_ | refine Kept.of_snd (by assumption) ?_ | dsimp only)

theorem restoreGov_kept {kg : Guard} {sk : State} {src : State} {s : State} (hs : Kept kg sk s) : Kept kg sk
    (restoreGov src s) := by
  unfold restoreGov
  repeat' (with_reducible first
    | assumption | refine evaluateAllow_kept ?_ | refine modGov_kept ?_ | intro _ | split
    | refine Kept.of_fst (by assumption) ?_ | refine Kept.of_snd (by assumption) ?_ | dsimp only)

theorem restoreColdCount_kept {kg : Guard} {sk : State} {src : State} {s : State} (hs : Kept kg sk s) : Kept kg sk
    (restoreColdCount src s) := by
  unfold restoreColdCount
  repeat' (with_reducible first
    | assumption | refine modLintel_kept (fun _ h => h) ?_ | refine kept_getD ?_ ?_ | intro _ | split | dsimp only)

theorem restoreBill_kept {kg : Guard} {sk : State} {src : State} {s : State} (hs : Kept kg sk s) : Kept kg sk
    (restoreBill src s) := by
  unfold restoreBill
  repeat' (with_reducible first
    | assumption | refine modBill_kept ?_ | intro _ | split | refine Kept.of_fst (by assumption) ?_
    | refine Kept.of_snd (by assumption) ?_ | dsimp only)

theorem restoreZero_kept {kg : Guard} {sk : State} {src : State} {s : State} (hs : Kept kg sk s) : Kept kg sk
    (restoreZero src s) := by
  unfold restoreZero
  repeat' (with_reducible first
    | assumption | refine modShotPath_kept ?_ | refine kept_foldl ?_ ?_ | refine kept_foldl1 ?_ ?_
    | refine kept_foldl2 ?_ ?_ | intro _ | split | refine Kept.of_fst (by assumption) ?_
    | refine Kept.of_snd (by assumption) ?_ | dsimp only)

theorem restoreCounter_kept {kg : Guard} {sk : State} {r : List Byte} {s : State} (hs : Kept kg sk s) : Kept kg sk
    (restoreCounter r s) := by
  unfold restoreCounter
  repeat' (with_reducible first
    | assumption | refine kept_ite ?_ ?_ | refine modRadio_kept ?_ | refine modLink_kept ?_ | intro _ | split
    | refine Kept.of_fst (by assumption) ?_ | refine Kept.of_snd (by assumption) ?_ | dsimp only)

theorem restoreRoles_kept {kg : Guard} {sk : State} {src : State} {s : State} (hs : Kept kg sk s) : Kept kg sk
    (restoreRoles src s) := by
  unfold restoreRoles
  repeat' (with_reducible first
    | assumption | refine kept_ite ?_ ?_ | refine modRoles_kept ?_ | refine kept_foldl ?_ ?_
    | refine kept_foldl1 ?_ ?_ | refine kept_foldl2 ?_ ?_ | intro _ | split | dsimp only)

theorem restoreTamper_kept {kg : Guard} {sk : State} {src : State} {s : State} (hs : Kept kg sk s) : Kept kg sk
    (restoreTamper src s) := by
  unfold restoreTamper
  repeat' (with_reducible first
    | assumption | refine kept_ite ?_ ?_ | refine modTamper_kept ?_ | refine noteTamper_kept ?_
    | refine kept_foldl ?_ ?_ | refine kept_foldl1 ?_ ?_ | refine kept_foldl2 ?_ ?_ | intro _ | split | dsimp only)

theorem restoreCold_kept {kg : Guard} {sk : State} {src : State} {s : State} (hkdt : kg.dt = false)
    (hklost : kg.lost = false) (hs : Kept kg sk s) : Kept kg sk (restoreCold src s) := by
  unfold restoreCold
  repeat' (with_reducible first
    | assumption | refine restoreColdCount_kept ?_ | refine restoreGov_kept ?_
    | refine restoreDt_kept (by assumption) ?_ | refine restoreRoles_kept ?_ | refine restoreZero_kept ?_
    | refine restoreBill_kept ?_ | refine restoreCounter_kept ?_ | refine modLintel_kept (fun _ h => h) ?_
    | refine modLintel_kept_lost (by assumption) ?_ | refine restoreAcc_kept ?_ | refine kept_foldl ?_ ?_
    | refine kept_foldl1 ?_ ?_ | refine kept_foldl2 ?_ ?_ | intro _ | split | dsimp only)

theorem restoreAll_kept {kg : Guard} {sk : State} {src : State} {s : State} (hkdt : kg.dt = false)
    (hklost : kg.lost = false) (hs : Kept kg sk s) : Kept kg sk (restoreAll src s) := by
  unfold restoreAll
  repeat' (with_reducible first
    | assumption | refine kept_ite ?_ ?_ | refine modJournal_kept ?_
    | refine restoreCold_kept (by assumption) (by assumption) ?_ | refine evaluateCalendar_kept ?_
    | refine restoreAcc_kept ?_ | intro _ | split | dsimp only)

theorem writeQueues_kept {kg : Guard} {sk : State} {s : State} (hs : Kept kg sk s) : Kept kg sk (writeQueues s) := by
  unfold writeQueues
  repeat' (with_reducible first
    | assumption | refine submitRecord_kept ?_ | refine modFaults_kept (fun _ h => h) (fun _ => rfl) ?_
    | refine modRoles_kept ?_ | refine kept_foldl ?_ ?_ | refine kept_foldl1 ?_ ?_ | refine kept_foldl2 ?_ ?_
    | intro _ | split | dsimp only)

theorem noteReads_kept {kg : Guard} {sk : State} {l : List (Nat × Nat)} {s : State} (hs : Kept kg sk s) : Kept kg sk
    (noteReads l s) := by
  unfold noteReads
  repeat' (with_reducible first
    | assumption | refine fetchPage_kept ?_ | refine kept_foldl ?_ ?_ | refine kept_foldl1 ?_ ?_
    | refine kept_foldl2 ?_ ?_ | intro _ | split | dsimp only)

theorem mountEnd_kept {kg : Guard} {sk : State} {ms : Nat} {seq : Option Nat} {s : State} (hkdt : kg.dt = false)
    (hklost : kg.lost = false) (hs : Kept kg sk s) : Kept kg sk (mountEnd ms seq s) := by
  unfold mountEnd
  repeat' (with_reducible first
    | assumption | refine kept_ite ?_ ?_ | refine unindex_kept ?_
    | refine restoreAll_kept (by assumption) (by assumption) ?_ | refine modJournal_kept ?_
    | refine noteReads_kept ?_ | refine restoreTamper_kept ?_ | refine pushWork_kept ?_
    | refine askReclaim_kept ?_ | refine writeQueues_kept ?_ | refine journalSlots_kept ?_
    | refine engineEnds_kept ?_ | refine kept_id ?_ | intro _ | split | refine Kept.of_fst (by assumption) ?_
    | refine Kept.of_snd (by assumption) ?_ | dsimp only)

theorem mountJob_kept {k : Guard} {s0 : State} {mv ms : Nat} {j : Job} {s : State} (hs : Kept k s0 s) :
    Kept k s0 (mountJob mv ms j s) := by
  unfold mountJob
  exact kept_ite hs (kept_ite (engineEnds_kept hs)
    (onFlash_kept (fun _ h => modJournal_kept (beginJob_kept (takeKeep_kept h))) hs))

theorem stagedEnd_kept {kg : Guard} {sk : State} {id : Nat} {s : State} (hs : Kept kg sk s) : Kept kg sk
    (stagedEnd id s) := by
  unfold stagedEnd
  repeat' (with_reducible first
    | assumption | refine kept_ite ?_ ?_ | refine judged_kept ?_ | refine stageFails_kept ?_
    | refine modBoot_kept (fun _ => rfl) (fun _ h => h) ?_ | refine modConsent_kept ?_ | refine engineEnds_kept ?_
    | refine stagingEnds_kept ?_ | refine kept_id ?_ | intro _ | split | refine Kept.of_fst (by assumption) ?_
    | refine Kept.of_snd (by assumption) ?_ | dsimp only)

theorem workStep_kept {kg : Guard} {sk : State} {t : FlashTask} {s : State} (hkdt : kg.dt = false)
    (hklost : kg.lost = false) (hs : Kept kg sk s) : Kept kg sk (workStep t s) := by
  unfold workStep
  repeat' (with_reducible first
    | assumption | refine houseEnd_kept ?_ | refine fillPending_kept ?_ | refine mountDefects_kept ?_
    | refine mountScan_kept ?_ | refine mountPending_kept ?_ | refine mountSummary_kept ?_
    | refine mountEnd_kept (by assumption) (by assumption) ?_ | refine stagedEnd_kept ?_
    | refine flashStep_kept ?_ | refine kept_id ?_ | split | refine Kept.of_fst (by assumption) ?_
    | refine Kept.of_snd (by assumption) ?_ | dsimp only)

theorem runWork_kept {k : Guard} {s0 : State} {fuel : Nat} {s : State} (hkdt : k.dt = false) (hklost : k.lost = false)
    (hs : Kept k s0 s) : Kept k s0 (runWork fuel s) := by
  induction fuel generalizing s with
  | zero => exact hs
  | succ n ih =>
    unfold runWork
    refine kept_ite hs ?_
    split
    · exact hs
    · exact ih (workStep_kept hkdt hklost (modJournal_kept hs))

theorem endOp_kept {kg : Guard} {sk : State} {o : FlashObs} {s : State} (hs : Kept kg sk s) : Kept kg sk (endOp o s)
    := by
  unfold endOp
  repeat' (with_reducible first
    | assumption | refine programFlash_kept ?_ | refine eraseFlash_kept ?_ | refine freePeak_kept ?_
    | refine modJournal_kept ?_ | intro _ | split | refine Kept.of_fst (by assumption) ?_
    | refine Kept.of_snd (by assumption) ?_ | dsimp only)

theorem execFlashOpReady_kept {kg : Guard} {o : FlashObs} {s : State} {kr : State} (hkdt : kg.dt = false)
    (hklost : kg.lost = false) (hh : execFlashOpReady o s = .next kr) : Kept kg s kr := by
  have hs := Kept.refl kg s
  unfold execFlashOpReady at hh
  first | refine done_kept hh ?_ | refine rated_kept hh ?_
  repeat' (with_reducible first
    | assumption | refine kept_ite ?_ ?_ | refine runWork_kept (by assumption) (by assumption) ?_
    | refine endOp_kept ?_ | split | dsimp only)

theorem execCommitSettleEnd_kept {kg : Guard} {mv : Nat} {s : State} {kr : State} (hkdt : kg.dt = false)
    (hklost : kg.lost = false) (hh : execCommitSettleEnd mv s = .next kr) : Kept kg s kr := by
  have hs := Kept.refl kg s
  unfold execCommitSettleEnd at hh
  first | refine done_kept hh ?_ | refine rated_kept hh ?_
  repeat' (with_reducible first
    | assumption | refine runWork_kept (by assumption) (by assumption) ?_ | refine settleEnd_kept ?_ | dsimp only)

theorem execMount_kept {kg : Guard} {tag : Nat} {mv : Nat} {ms : Nat} {s : State} {kr : State} (hkdt : kg.dt = false)
    (hklost : kg.lost = false) (hh : execMount tag mv ms s = .next kr) : Kept kg s kr := by
  have hs := Kept.refl kg s
  unfold execMount at hh
  first | refine done_kept hh ?_ | refine rated_kept hh ?_
  repeat' (with_reducible first
    | assumption | refine runWork_kept (by assumption) (by assumption) ?_ | refine onJob_kept ?_ ?_
    | refine mountJob_kept ?_ | intro _ | dsimp only)

theorem eraseCopy_kept {kg : Guard} {sk : State} {isB : Bool} {o : FlashObs} {s : State} (hs : Kept kg sk s) : Kept
    kg sk (eraseCopy isB o s) := by
  unfold eraseCopy
  repeat' (with_reducible first
    | assumption | refine eraseFlash_kept ?_ | refine kept_foldl ?_ ?_ | refine kept_foldl1 ?_ ?_
    | refine kept_foldl2 ?_ ?_ | intro _ | split | dsimp only)

theorem loadErase_kept {kg : Guard} {sk : State} {isB : Bool} {o : FlashObs} {s : State} (hs : Kept kg sk s) : Kept
    kg sk (loadErase isB o s).1 := by
  unfold loadErase
  repeat' (with_reducible first
    | assumption | refine kept_ite ?_ ?_ | refine modBoot_kept (fun _ => rfl) (fun _ h => h) ?_
    | refine eraseCopy_kept ?_ | intro _ | split | dsimp only)

theorem loadProgram_kept {kg : Guard} {sk : State} {isB : Bool} {o : FlashObs} {s : State} (hs : Kept kg sk s) : Kept
    kg sk (loadProgram isB o s).1 := by
  unfold loadProgram
  repeat' (with_reducible first
    | assumption | refine kept_ite ?_ ?_ | refine programFlash_kept ?_
    | refine modBoot_kept (fun _ => rfl) (fun _ h => h) ?_ | intro _ | split | dsimp only)

theorem loadFinish_kept {k : Guard} {s0 : State} {a : Actor} {named : Bool} {o : FlashObs} {boot : BootObs} {s : State}
    (hs : Kept k s0 s) : Kept k s0 (loadFinish a named o boot s).1 := by
  unfold loadFinish
  dsimp only
  generalize loadCopy named s = isB
  split
  · exact hs
  · rename_i hopen
    have hb : s.boot.bare = true := by
      simp only [loadOpen, Bool.not_eq_true', Bool.not_eq_false, Bool.and_eq_true] at hopen
      exact hopen.1
    refine Kept.of_bare hs hb ?_
    have hw := hs.weaken
    have hfence : ({ k with img := false, fence := false } : Guard).fence = false := rfl
    have himg : ({ k with img := false, fence := false } : Guard).img = false := rfl
    generalize ({ k with img := false, fence := false } : Guard) = k' at hw hfence himg ⊢
    split
    · exact hw
    · have h1 : Kept k' s0 (modBoot (fun b => { b with loadHead := none }) (match s.boot.loadHead with
          | some h => programFlash o (copyBase isB) h s
          | none => s)) := by
        refine modBoot_kept (fun _ => rfl) (fun _ h => h) ?_
        split
        · exact programFlash_kept hw
        · exact hw
      generalize modBoot _ _ = s1 at h1 ⊢
      split
      · exact audit_kept (judged_kept h1)
      · refine writeAmendment_kept (lateStages_kept hfence himg (react_kept (modBoot_kept_bare himg hfence
          (setLevel_kept (emptySlot_kept (endSession_kept (audit_kept (setCopy_kept (programByte_kept h1)))))))))

theorem otp_or_all {l : List (Byte × Nat)} {a : Nat} {f : Nat → Byte} (m : Mem) :
    (∀ c i, (Mem.get 0 m c).getLsbD i = true → (Mem.get 0 (l.foldl (fun m b =>
      m.set 0 (a + b.2) (m.get 0 (a + b.2) ||| (b.1 &&& f (a + b.2)))) m) c).getLsbD i = true)
    ∧ (Mem.wf 0 m = true → Mem.wf 0 (l.foldl (fun m b =>
      m.set 0 (a + b.2) (m.get 0 (a + b.2) ||| (b.1 &&& f (a + b.2)))) m) = true) := by
  induction l generalizing m with
  | nil => exact ⟨fun _ _ h => h, id⟩
  | cons x rest ih =>
    refine ⟨fun c i h => (ih _).1 c i (Mem.get_set_or m h), fun h => (ih _).2 (Mem.wf_set m h)⟩

theorem programOtp_kept {k : Guard} {s0 : State} {stuck : OtpStuck} {a : Nat} {bs : List Byte} {s : State}
    (hs : Kept k s0 s) : Kept k s0 (programOtp stuck a bs s) := by
  have h := otp_or_all (l := bs.zipIdx) (a := a)
    (f := fun n => ~~~(((stuck.find? fun x => x.1 == n).map (·.2)).getD 0)) s.otp
  exact hs.otp_of h.1 h.2

theorem programCompanion_kept {k : Guard} {s0 : State} {stuck : OtpStuck} {off : Nat} {b : Byte} {s : State}
    (hs : Kept k s0 s) : Kept k s0 (programCompanion stuck off b s) :=
  hs.crc_of (Mem.wf_set _)

theorem sealProgram_kept {kg : Guard} {sk : State} {stuck : OtpStuck} {off : Nat} {bs : List Byte} {s : State}
    (hs : Kept kg sk s) : Kept kg sk (sealProgram stuck off bs s).1 := by
  unfold sealProgram
  repeat' (with_reducible first
    | assumption | refine kept_ite ?_ ?_ | refine programOtp_kept ?_ | refine programCompanion_kept ?_ | split
    | dsimp only)

theorem sealCrc_kept {kg : Guard} {sk : State} {stuck : OtpStuck} {metro : Word} {s : State} {kr : State} {kb : Bool}
    (hh : sealCrc stuck metro s = some (kr, kb)) (hs : Kept kg sk s) : Kept kg sk kr := by
  unfold sealCrc at hh
  (repeat' (first | (cases hh; done) | (obtain ⟨rfl, rfl⟩ := hh) | split at hh | (injection hh with hh) | dsimp only at hh))
  repeat' (with_reducible first
    | assumption | refine kept_ite ?_ ?_ | refine sealProgram_kept ?_ | split
    | refine Kept.of_fst (by assumption) ?_ | refine Kept.of_snd (by assumption) ?_ | dsimp only)

theorem sealDt_kept {kg : Guard} {sk : State} {stuck : OtpStuck} {s : State} (hs : Kept kg sk s) : Kept kg sk
    (sealDt stuck s).1 := by
  unfold sealDt
  repeat' (with_reducible first
    | assumption | refine sealProgram_kept ?_ | split | refine Kept.of_fst (by assumption) ?_
    | refine Kept.of_snd (by assumption) ?_ | dsimp only)

theorem rejudgeStandby_kept {kg : Guard} {sk : State} {s : State} (hs : Kept kg sk s) : Kept kg sk (rejudgeStandby s)
    := by
  unfold rejudgeStandby
  repeat' (with_reducible first | assumption | refine kept_ite ?_ ?_ | refine judged_kept ?_ | split | dsimp only)

theorem sealEffect_kept {kg : Guard} {sk : State} {metro : Word} {stuck : OtpStuck} {s : State} (hs : Kept kg sk s) :
    Kept kg sk (sealEffect metro stuck s).1 := by
  unfold sealEffect
  repeat' (with_reducible first
    | assumption | refine kept_ite ?_ ?_ | refine sealCrc_kept (by assumption) ?_ | refine sealDt_kept ?_
    | refine programOtp_kept ?_ | refine rejudgeStandby_kept ?_ | refine modClock_kept ?_ | refine alarmBy_kept ?_
    | intro _ | split | refine Kept.of_fst (by assumption) ?_ | refine Kept.of_snd (by assumption) ?_ | dsimp only)

theorem sealChip_kept {kg : Guard} {sk : State} {a : Actor} {metro : Word} {stuck : OtpStuck} {s : State}
    (hs : Kept kg sk s) : Kept kg sk (sealChip a metro stuck s).1 := by
  unfold sealChip
  repeat' (with_reducible first
    | assumption | refine kept_ite ?_ ?_ | refine sealEffect_kept ?_ | refine audit_kept ?_ | split | dsimp only)

theorem lapseConsent_kept {kg : Guard} {sk : State} {a : Amend} {s : State} (hs : Kept kg sk s) : Kept kg sk
    (lapseConsent a s) := by
  unfold lapseConsent
  repeat' (with_reducible first
    | assumption | refine kept_ite ?_ ?_ | refine expireConsent_kept ?_ | refine auditConsent_kept ?_
    | refine modConsent_kept ?_ | intro _ | split | refine Kept.of_fst (by assumption) ?_
    | refine Kept.of_snd (by assumption) ?_ | dsimp only)

theorem stageWrite_kept {kg : Guard} {sk : State} {j : Job} {a : Amend} {img : List Byte} {s : State}
    (hs : Kept kg sk s) : Kept kg sk (stageWrite j a img s) := by
  unfold stageWrite
  repeat' (with_reducible first
    | assumption | refine modJournal_kept ?_ | refine setCopy_kept ?_
    | refine modBoot_kept (fun _ => rfl) (fun _ h => h) ?_ | refine kept_id ?_ | intro _ | split | dsimp only)

theorem stageBegin_kept {kg : Guard} {sk : State} {j : Job} {mv : Nat} {s : State} (hs : Kept kg sk s) : Kept kg sk
    (stageBegin j mv s) := by
  unfold stageBegin
  repeat' (with_reducible first
    | assumption | refine kept_ite ?_ ?_ | refine takeVbat_kept ?_ | refine stageFails_kept ?_
    | refine lapseConsent_kept ?_ | refine stageWrite_kept ?_ | split | refine Kept.of_fst (by assumption) ?_
    | refine Kept.of_snd (by assumption) ?_ | dsimp only)

theorem stageJob_kept {kg : Guard} {sk : State} {mv : Nat} {j : Job} {s : State} (hs : Kept kg sk s) : Kept kg sk
    (stageJob mv j s) := by
  unfold stageJob
  repeat' (with_reducible first
    | assumption | refine kept_ite ?_ ?_ | refine modBoot_kept (fun _ => rfl) (fun _ h => h) ?_
    | refine stageBegin_kept ?_ | refine kept_id ?_ | intro _ | split | dsimp only)

theorem execStage_kept {kg : Guard} {tag : Nat} {mv : Nat} {s : State} {kr : State}
    (hh : execStage tag mv s = .next kr) : Kept kg s kr := by
  have hs := Kept.refl kg s
  unfold execStage at hh
  first | refine done_kept hh ?_ | refine rated_kept hh ?_
  repeat' (with_reducible first
    | assumption | refine onJob_kept ?_ ?_ | refine stageJob_kept ?_ | intro _ | dsimp only)

theorem stageDrop_kept {kg : Guard} {sk : State} {j : Job} {st : Status} {s : State} (hs : Kept kg sk s) : Kept kg sk
    (stageDrop j st s) := by
  unfold stageDrop
  repeat' (with_reducible first
    | assumption | refine kept_ite ?_ ?_ | refine modBoot_kept (fun _ => rfl) (fun _ h => h) ?_
    | refine freePeak_kept ?_ | refine modJournal_kept ?_ | refine cutOp_kept ?_ | refine stagingEnds_kept ?_
    | refine kept_id ?_ | intro _ | split | dsimp only)

theorem reseatResult_kept {kg : Guard} {sk : State} {st : Status} {s : State} (hs : Kept kg sk s) : Kept kg sk
    (reseatResult st s) := by
  unfold reseatResult
  repeat' (with_reducible first
    | assumption | refine modBoot_kept (fun _ => rfl) (fun _ h => h) ?_ | intro _ | split | dsimp only)

theorem askReseat_kept {kg : Guard} {sk : State} {job : Option Nat} {a : Actor} {d : Deferred} {s : State}
    (hs : Kept kg sk s) : Kept kg sk (askReseat job a d s) := by
  unfold askReseat
  repeat' (with_reducible first
    | assumption | refine kept_ite ?_ ?_ | refine modBoot_kept (fun _ => rfl) (fun _ h => h) ?_
    | refine engineEnds_kept ?_ | refine reseatResult_kept ?_ | refine kept_id ?_ | intro _ | split
    | refine Kept.of_fst (by assumption) ?_ | refine Kept.of_snd (by assumption) ?_ | dsimp only)

theorem reseatWrite_kept {kg : Guard} {sk : State} {a : Actor} {s : State} (hs : Kept kg sk s) : Kept kg sk
    (reseatWrite a s) := by
  unfold reseatWrite
  repeat' (with_reducible first | assumption | refine askReseat_kept ?_ | dsimp only)

theorem reseatJobJob_kept {kg : Guard} {sk : State} {rivals : List Nat} {j : Job} {s : State} (hs : Kept kg sk s) :
    Kept kg sk (reseatJobJob rivals j s) := by
  unfold reseatJobJob
  repeat' (with_reducible first
    | assumption | refine kept_ite ?_ ?_ | refine engineEnds_kept ?_ | refine askReseat_kept ?_
    | refine kept_id ?_ | split | refine Kept.of_fst (by assumption) ?_ | refine Kept.of_snd (by assumption) ?_
    | dsimp only)

theorem execReseatJob_kept {kg : Guard} {ask : ReseatAsk} {s : State} {kr : State}
    (hh : execReseatJob ask s = .next kr) : Kept kg s kr := by
  have hs := Kept.refl kg s
  unfold execReseatJob at hh
  first | refine done_kept hh ?_ | refine rated_kept hh ?_
  repeat' (with_reducible first
    | assumption | refine onJob_kept ?_ ?_ | refine reseatJobJob_kept ?_ | intro _ | dsimp only)

theorem execActivateDtReached_kept {kg : Guard} {s : State} {kr : State} (hh : execActivateDtReached s = .next kr) :
    Kept kg s kr := by
  have hs := Kept.refl kg s
  unfold execActivateDtReached at hh
  first | refine done_kept hh ?_ | refine rated_kept hh ?_
  repeat' (with_reducible first | assumption | refine kept_ite ?_ ?_ | refine askReseat_kept ?_ | split | dsimp only)

theorem execStageDeferredResume_kept {kg : Guard} {mv : Nat} {s : State} {kr : State}
    (hh : execStageDeferredResume mv s = .next kr) : Kept kg s kr := by
  have hs := Kept.refl kg s
  unfold execStageDeferredResume at hh
  first | refine done_kept hh ?_ | refine rated_kept hh ?_
  repeat' (with_reducible first
    | assumption | refine kept_ite ?_ ?_ | refine modBoot_kept (fun _ => rfl) (fun _ h => h) ?_
    | refine stageBegin_kept ?_ | refine askReseat_kept ?_ | refine reseatWrite_kept ?_ | refine kept_id ?_
    | intro _ | split | refine Kept.of_fst (by assumption) ?_ | refine Kept.of_snd (by assumption) ?_ | dsimp only)

theorem dropJob_kept {kg : Guard} {sk : State} {j : Job} {st : Status} {s : State} (hs : Kept kg sk s) : Kept kg sk
    (dropJob j st s) := by
  unfold dropJob
  repeat' (with_reducible first
    | assumption | refine kept_ite ?_ ?_ | refine modBoot_kept (fun _ => rfl) (fun _ h => h) ?_
    | refine stageDrop_kept ?_ | refine undoSnapshot_kept ?_ | refine modBill_kept ?_ | refine modShot_kept ?_
    | refine modTemp_kept ?_ | refine leaveWork_kept ?_ | refine modJournal_kept ?_ | refine radioDrop_kept ?_
    | refine linkDrop_kept ?_ | refine unlockAs_kept ?_ | refine modRoles_kept ?_ | refine modLcd_kept ?_
    | refine kept_id ?_ | intro _ | split | refine Kept.of_fst (by assumption) ?_
    | refine Kept.of_snd (by assumption) ?_ | dsimp only)

theorem stopJobs_kept {kg : Guard} {sk : State} {p : Job → Bool} {st : Status} {s : State} (hs : Kept kg sk s) : Kept
    kg sk (stopJobs p st s) := by
  unfold stopJobs
  repeat' (with_reducible first
    | assumption | refine stalled_kept ?_ | refine endJob_kept ?_ | refine dropJob_kept ?_
    | refine kept_foldl ?_ ?_ | refine kept_foldl1 ?_ ?_ | refine kept_foldl2 ?_ ?_ | intro _ | split | dsimp only)

theorem reseatStop_kept {kg : Guard} {sk : State} {s : State} (hs : Kept kg sk s) : Kept kg sk (reseatStop s) := by
  unfold reseatStop
  repeat' (with_reducible first
    | assumption | refine radioReseat_kept ?_ | refine stopJobs_kept ?_ | intro _ | split | dsimp only)

theorem reraise_kept {kg : Guard} {sk : State} {old : List TrigEntry} {s : State} (hs : Kept kg sk s) : Kept kg sk
    (reraise old s) := by
  unfold reraise
  repeat' (with_reducible first
    | assumption | refine kept_ite ?_ ?_ | refine modMason_kept ?_ | refine raise_kept ?_
    | refine kept_foldl ?_ ?_ | refine kept_foldl1 ?_ ?_ | refine kept_foldl2 ?_ ?_ | intro _ | split
    | refine Kept.of_fst (by assumption) ?_ | refine Kept.of_snd (by assumption) ?_ | dsimp only)

theorem keepRecipes_kept {kg : Guard} {sk : State} {s : State} (hs : Kept kg sk s) : Kept kg sk (keepRecipes s) := by
  unfold keepRecipes
  repeat' (with_reducible first
    | assumption | refine kept_ite ?_ ?_ | refine modMason_kept ?_ | intro _ | split
    | refine Kept.of_fst (by assumption) ?_ | refine Kept.of_snd (by assumption) ?_ | dsimp only)

theorem restartLoops_kept {k : Guard} {s0 s : State} (hs : Kept k s0 s) : Kept k s0 (restartLoops s) :=
  hs.same rfl rfl rfl rfl rfl rfl rfl rfl rfl rfl

theorem restartTemp_kept {kg : Guard} {sk : State} {s : State} (hs : Kept kg sk s) : Kept kg sk (restartTemp s) := by
  unfold restartTemp
  repeat' (with_reducible first
    | assumption | refine modTemp_kept ?_ | refine setLevel_kept ?_ | refine unusedChan_kept ?_
    | refine kept_foldl ?_ ?_ | refine kept_foldl1 ?_ ?_ | refine kept_foldl2 ?_ ?_ | intro _ | split | dsimp only)

theorem switchImage_kept {k : Guard} {s0 : State} {img : RunImage} {s : State} (hkimg : k.img = false)
    (hs : Kept k s0 s) : Kept k s0 (switchImage img s) := by
  unfold switchImage
  have h1 := modBoot_kept_img (f := fun b => { b with img := img }) hkimg (fun _ h => h)
    (kept_foldl (l := List.range (pathCount s)) hs fun t p h =>
      modShotPath_kept (p := p) (f := fun x => { x with plumbDue := plumbDueNow s p }) h)
  dsimp only
  generalize modBoot _ _ = s1 at h1 ⊢
  refine stopJobs_kept (kept_ite (restartTemp_kept ?_) ?_) <;>
    exact reraise_kept (keepRecipes_kept (restartLoops_kept (h1.same rfl rfl rfl rfl rfl rfl rfl rfl rfl rfl)))

theorem changeSlots_kept {kg : Guard} {sk : State} {old : KeyItems} {new : KeyItems} {s : State} (hs : Kept kg sk s)
    : Kept kg sk (changeSlots old new s) := by
  unfold changeSlots
  repeat' (with_reducible first
    | assumption | refine kept_ite ?_ ?_ | refine setAttr_kept ?_ | refine emptySlot_kept ?_
    | refine modBoot_kept (fun _ => rfl) (fun _ h => h) ?_ | refine freePeers_kept ?_ | refine kept_foldl ?_ ?_
    | refine kept_foldl1 ?_ ?_ | refine kept_foldl2 ?_ ?_ | intro _ | split
    | refine Kept.of_fst (by assumption) ?_ | refine Kept.of_snd (by assumption) ?_ | dsimp only)

theorem heldTrigger_kept {kg : Guard} {sk : State} {x : Nat × Nat} {s : State} (hs : Kept kg sk s) : Kept kg sk
    (heldTrigger x s) := by
  unfold heldTrigger
  repeat' (with_reducible first
    | assumption | refine kept_ite ?_ ?_ | refine shotSubmit_kept ?_ | refine submitTrigger_kept ?_
    | refine fireTrigger_kept ?_ | split | dsimp only)

theorem reseatUnlock_kept {kg : Guard} {sk : State} {st : Status} {dur : LockDur} {kind : Nat} {old : RunImage}
    {x : Judged} {bytes : List Byte} {s : State} (hs : Kept kg sk s) : Kept kg sk
    (reseatUnlock st dur kind old x bytes s) := by
  unfold reseatUnlock
  repeat' (with_reducible first
    | assumption | refine kept_ite ?_ ?_ | refine modBoot_kept (fun _ => rfl) (fun _ h => h) ?_
    | refine reseatResult_kept ?_ | refine modInteg_kept ?_ | refine heldTrigger_kept ?_ | refine modMason_kept ?_
    | refine engineEnds_kept ?_ | refine audit_kept ?_ | refine writeAmendment_kept ?_ | refine kept_id ?_
    | refine kept_foldl ?_ ?_ | refine kept_foldl1 ?_ ?_ | refine kept_foldl2 ?_ ?_ | intro _ | split
    | refine Kept.of_fst (by assumption) ?_ | refine Kept.of_snd (by assumption) ?_ | dsimp only)

theorem reseatTake_kept {kg : Guard} {sk : State} {s : State} (hs : Kept kg sk s) : Kept kg sk (reseatTake s) := by
  unfold reseatTake
  repeat' (with_reducible first
    | assumption | refine react_kept ?_ | refine reseatStop_kept ?_ | refine modMason_kept ?_
    | refine modBoot_kept (fun _ => rfl) (fun _ h => h) ?_ | intro _ | split | dsimp only)

theorem keepPhase_kept {kg : Guard} {sk : State} {s : State} (hs : Kept kg sk s) : Kept kg sk (keepPhase s) := by
  unfold keepPhase
  repeat' (with_reducible first
    | assumption | refine kept_ite ?_ ?_ | refine shotMoves_kept ?_ | refine modFabric_kept ?_ | intro _ | split
    | dsimp only)

theorem reseatSwitch_kept {kg : Guard} {sk : State} {dur : LockDur} {s : State} (hkimg : kg.img = false)
    (hs : Kept kg sk s) : Kept kg sk (reseatSwitch dur s) := by
  unfold reseatSwitch
  repeat' (with_reducible first
    | assumption | refine kept_ite ?_ ?_ | refine setCopy_kept ?_ | refine verified_kept ?_
    | refine reseatUnlock_kept ?_ | refine raise_kept ?_ | refine switchImage_kept (by assumption) ?_
    | refine keepPhase_kept ?_ | refine modBoot_kept (fun _ => rfl) (fun _ h => h) ?_
    | refine maskedBlocks_kept ?_ | intro _ | split | dsimp only)

theorem reseatStore_kept {kg : Guard} {sk : State} {o : FlashObs} {s : State} (hs : Kept kg sk s) : Kept kg sk
    (reseatStore o s) := by
  unfold reseatStore
  repeat' (with_reducible first
    | assumption | refine changeSlots_kept ?_ | refine modBoot_kept (fun _ => rfl) (fun _ h => h) ?_
    | refine setCopy_kept ?_ | refine programByte_kept ?_ | refine touchFlash_kept ?_ | refine kept_getD ?_ ?_
    | intro _ | split | dsimp only)

theorem reseatLoad_kept {kg : Guard} {sk : State} {s : State} (hs : Kept kg sk s) : Kept kg sk (reseatLoad s) := by
  unfold reseatLoad
  repeat' (with_reducible first
    | assumption | refine loadLeft_kept ?_ | refine beginLoad_kept ?_ | refine kept_foldl ?_ ?_
    | refine kept_foldl1 ?_ ?_ | refine kept_foldl2 ?_ ?_ | intro _ | split
    | refine Kept.of_fst (by assumption) ?_ | refine Kept.of_snd (by assumption) ?_ | dsimp only)

theorem reseatFinish_kept {kg : Guard} {sk : State} {st : Status} {dur : LockDur} {s : State} (hs : Kept kg sk s) :
    Kept kg sk (reseatFinish st dur s) := by
  unfold reseatFinish
  repeat' (with_reducible first
    | assumption | refine endSessions_kept ?_ | refine modBoot_kept (fun _ => rfl) (fun _ h => h) ?_
    | refine linkReseat_kept ?_ | refine reseatUnlock_kept ?_ | refine kept_getD ?_ ?_ | intro _ | split
    | dsimp only)

theorem reseatWhole_kept {kg : Guard} {sk : State} {o : FlashObs} {dur : Nat} {s : State} (hkimg : kg.img = false)
    (hs : Kept kg sk s) : Kept kg sk (reseatWhole o dur s) := by
  unfold reseatWhole
  repeat' (with_reducible first
    | assumption | refine kept_ite ?_ ?_ | refine reseatSwitch_kept (by assumption) ?_ | refine reseatTake_kept ?_
    | refine reseatFinish_kept ?_ | refine resumeSlots_kept ?_ | refine reseatStore_kept ?_ | split | dsimp only)

theorem reseatCut_kept {kg : Guard} {sk : State} {st : Status} {after : Status} {o : FlashObs} {s : State}
    (hs : Kept kg sk s) : Kept kg sk (reseatCut st after o s) := by
  unfold reseatCut
  repeat' (with_reducible first
    | assumption | refine kept_ite ?_ ?_ | refine abortLoads_kept ?_ | refine reseatUnlock_kept ?_
    | refine reseatFinish_kept ?_ | refine reseatStore_kept ?_ | split | dsimp only)

theorem execReseatLock_kept {kg : Guard} {o : ReseatObs} {dur : Nat} {s : State} {kr : State}
    (hkimg : kg.img = false) (hh : execReseatLock o dur s = .next kr) : Kept kg s kr := by
  have hs := Kept.refl kg s
  unfold execReseatLock at hh
  first | refine done_kept hh ?_ | refine rated_kept hh ?_
  repeat' (with_reducible first
    | assumption | refine kept_ite ?_ ?_ | refine reseatWhole_kept (by assumption) ?_ | refine reseatTake_kept ?_
    | refine reseatCut_kept ?_ | refine reseatSwitch_kept (by assumption) ?_ | refine reseatStore_kept ?_
    | refine reseatLoad_kept ?_ | refine reseatFinish_kept ?_ | refine resumeSlots_kept ?_ | intro _ | split
    | refine Kept.of_fst (by assumption) ?_ | refine Kept.of_snd (by assumption) ?_ | dsimp only)

theorem rated_kept {k : Guard} {s0 u t : State} {b : Bool} (hh : rated b u = .next t) (hs : Kept k s0 u) :
    Kept k s0 t := by
  cases b
  · cases hh
  · exact done_kept hh hs

theorem execVbatFall_kept {kg : Guard} {mv : Int} {s : State} {kr : State} (hkfence : kg.fence = false)
    (hkgrave : kg.grave = false) (hh : execVbatFall mv s = .next kr) : Kept kg s kr := by
  have hs := Kept.refl kg s
  unfold execVbatFall at hh
  first | refine done_kept hh ?_ | refine rated_kept hh ?_
  repeat' (with_reducible first
    | assumption | refine kept_ite ?_ ?_ | refine modLintel_kept (fun _ h => h) ?_
    | refine mainOff_kept (by assumption) (by assumption) ?_ | intro _ | split | dsimp only)

theorem touchVret_kept {kg : Guard} {sk : State} {s : State} (hs : Kept kg sk s) : Kept kg sk (touchVret s) := by
  unfold touchVret
  repeat' (with_reducible first
    | assumption
    | refine modFaults_kept (by first | exact fun _ => rfl | exact fun _ h => h | exact fun h => h | (intro _; intros; split <;> first | rfl | assumption) | (intro _; intros; first | rfl | assumption)) (by first | exact fun _ => rfl | exact fun _ h => h | exact fun h => h | (intro _; intros; split <;> first | rfl | assumption) | (intro _; intros; first | rfl | assumption)) ?_
    | refine modLintel_kept (by first | exact fun _ => rfl | exact fun _ h => h | exact fun h => h | (intro _; intros; split <;> first | rfl | assumption) | (intro _; intros; first | rfl | assumption)) ?_
    | intro _ | split | dsimp only)

theorem execVbatRise_kept {kg : Guard} {mv : Int} {o : BootObs} {s : State} {kr : State} (hkdt : kg.dt = false)
    (hkfence : kg.fence = false) (hkimg : kg.img = false) (hklost : kg.lost = false)
    (hh : execVbatRise mv o s = .next kr) : Kept kg s kr := by
  have hs := Kept.refl kg s
  unfold execVbatRise at hh
  first | refine done_kept hh ?_ | refine rated_kept hh ?_
  repeat' (with_reducible first
    | assumption | refine kept_ite ?_ ?_ | refine modLintel_kept (fun _ h => h) ?_
    | refine modLintel_kept_lost (by assumption) ?_
    | refine bringUp_kept (by assumption) (by assumption) (by assumption) (by assumption) ?_
    | refine touchVret_kept ?_ | intro _ | split | dsimp only)

theorem execVioFall_kept {kg : Guard} {mv : Int} {s : State} {kr : State} (hkfence : kg.fence = false)
    (hkgrave : kg.grave = false) (hh : execVioFall mv s = .next kr) : Kept kg s kr := by
  have hs := Kept.refl kg s
  unfold execVioFall at hh
  first | refine done_kept hh ?_ | refine rated_kept hh ?_
  repeat' (with_reducible first
    | assumption | refine kept_ite ?_ ?_ | refine modLintel_kept (fun _ h => h) ?_
    | refine mainOff_kept (by assumption) (by assumption) ?_ | intro _ | split | dsimp only)

theorem execVioRise_kept {kg : Guard} {mv : Int} {o : BootObs} {s : State} {kr : State} (hkdt : kg.dt = false)
    (hkfence : kg.fence = false) (hkimg : kg.img = false) (hklost : kg.lost = false)
    (hh : execVioRise mv o s = .next kr) : Kept kg s kr := by
  have hs := Kept.refl kg s
  unfold execVioRise at hh
  first | refine done_kept hh ?_ | refine rated_kept hh ?_
  repeat' (with_reducible first
    | assumption | refine kept_ite ?_ ?_ | refine modLintel_kept (fun _ h => h) ?_
    | refine modLintel_kept_lost (by assumption) ?_
    | refine bringUp_kept (by assumption) (by assumption) (by assumption) (by assumption) ?_ | intro _ | split
    | dsimp only)

theorem execResetNPulse_kept {kg : Guard} {us : Nat} {taken : Bool} {fall : Bool} {o : BootObs} {s : State}
    {kr : State} (hkdt : kg.dt = false) (hkfence : kg.fence = false) (hkgrave : kg.grave = false)
    (hkimg : kg.img = false) (hklost : kg.lost = false) (hh : execResetNPulse us taken fall o s = .next kr) : Kept kg
    s kr := by
  have hs := Kept.refl kg s
  unfold execResetNPulse at hh
  first | refine done_kept hh ?_ | refine rated_kept hh ?_
  repeat' (with_reducible first
    | assumption | refine kept_ite ?_ ?_
    | refine bringUp_kept (by assumption) (by assumption) (by assumption) (by assumption) ?_
    | refine mainOff_kept (by assumption) (by assumption) ?_ | split | dsimp only)

theorem execVaonSourceSwitch_kept {kg : Guard} {vbatMv : Int} {vbakMv : Int} {dipMv : Nat} {s : State} {kr : State}
    (hh : execVaonSourceSwitch vbatMv vbakMv dipMv s = .next kr) : Kept kg s kr := by
  have hs := Kept.refl kg s
  unfold execVaonSourceSwitch at hh
  first | refine done_kept hh ?_ | refine rated_kept hh ?_
  repeat' (with_reducible first
    | assumption | refine kept_ite ?_ ?_ | refine modLintel_kept (fun _ h => h) ?_ | refine raiseIf_kept ?_
    | refine touchVret_kept ?_ | intro _ | split | dsimp only)

theorem execVaonTouchesVret_kept {kg : Guard} {s : State} {kr : State} (hh : execVaonTouchesVret s = .next kr) : Kept
    kg s kr := by
  have hs := Kept.refl kg s
  unfold execVaonTouchesVret at hh
  first | refine done_kept hh ?_ | refine rated_kept hh ?_
  repeat' (with_reducible first | assumption | refine touchVret_kept ?_ | dsimp only)

theorem execVaonPowerOn_kept {kg : Guard} {s t : State} (hkdt : kg.dt = false) (hkfence : kg.fence = false)
    (hkgrave : kg.grave = false) (hkimg : kg.img = false) (hklost : kg.lost = false)
    (hh : execVaonPowerOn s = .next t) : Kept kg s t := by
  have hs := Kept.refl kg s
  unfold execVaonPowerOn at hh
  refine done_kept hh (kept_ite hs ?_)
  exact ⟨rfl, hs.otp, hs.otpWf, hs.crcWf, hs.flashWf, fun _ => rfl, fun g => by simp [hkdt] at g,
    fun g => by simp [hkgrave] at g, fun _ _ => rfl, fun g => by simp [hkimg] at g, fun g => by simp [hklost] at g,
    fun g => by simp [hkfence] at g⟩

theorem execVbakLowChange_kept {kg : Guard} {mv : Int} {s : State} {kr : State}
    (hh : execVbakLowChange mv s = .next kr) : Kept kg s kr := by
  have hs := Kept.refl kg s
  unfold execVbakLowChange at hh
  first | refine done_kept hh ?_ | refine rated_kept hh ?_
  repeat' (with_reducible first
    | assumption | refine kept_ite ?_ ?_ | refine modLintel_kept (fun _ h => h) ?_ | refine setLevel_kept ?_
    | intro _ | split | dsimp only)

theorem execVbatReversal_kept {kg : Guard} {mv : Int} {s : State} {kr : State}
    (hh : execVbatReversal mv s = .next kr) : Kept kg s kr := by
  have hs := Kept.refl kg s
  unfold execVbatReversal at hh
  first | refine done_kept hh ?_ | refine rated_kept hh ?_
  repeat' (with_reducible first
    | assumption | refine kept_ite ?_ ?_ | refine raise_kept ?_ | refine modLintel_kept (fun _ h => h) ?_
    | intro _ | split | dsimp only)

theorem execStageTimeout_kept {kg : Guard} {s : State} {kr : State} (hkfence : kg.fence = false)
    (hkimg : kg.img = false) (hh : execStageTimeout s = .next kr) : Kept kg s kr := by
  have hs := Kept.refl kg s
  unfold execStageTimeout at hh
  first | refine done_kept hh ?_ | refine rated_kept hh ?_
  repeat' (with_reducible first
    | assumption | refine kept_ite ?_ ?_ | refine enterBare_kept (by assumption) (by assumption) ?_ | split
    | dsimp only)

theorem execWatchdogExpiry_kept {kg : Guard} {fall : Bool} {o : BootObs} {s : State} {kr : State}
    (hkdt : kg.dt = false) (hkfence : kg.fence = false) (hkgrave : kg.grave = false) (hkimg : kg.img = false)
    (hklost : kg.lost = false) (hh : execWatchdogExpiry fall o s = .next kr) : Kept kg s kr := by
  have hs := Kept.refl kg s
  unfold execWatchdogExpiry at hh
  first | refine done_kept hh ?_ | refine rated_kept hh ?_
  repeat' (with_reducible first
    | assumption | refine kept_ite ?_ ?_
    | refine bringUp_kept (by assumption) (by assumption) (by assumption) (by assumption) ?_
    | refine mainOff_kept (by assumption) (by assumption) ?_ | split | dsimp only)

theorem moveDt_kept {kg : Guard} {sk : State} {new : Nat} {s : State} (hkdt : kg.dt = false) (hs : Kept kg sk s) :
    Kept kg sk (moveDt new s) := by
  unfold moveDt
  repeat' (with_reducible first
    | assumption | refine modTime_kept (fun _ => rfl) ?_ | refine modTime_kept_dt (by assumption) ?_ | intro _
    | split | dsimp only)

theorem countTicks_kept {kg : Guard} {sk : State} {n : Nat} {s : State} (hs : Kept kg sk s) : Kept kg sk
    (countTicks n s) := by
  unfold countTicks
  repeat' (with_reducible first
    | assumption | refine kept_ite ?_ ?_ | refine modTime_kept (fun _ => rfl) ?_ | refine setLevel_kept ?_
    | intro _ | split | dsimp only)

theorem advance_kept {kg : Guard} {sk : State} {n : Nat} {s : State} (hkdt : kg.dt = false) (hs : Kept kg sk s) :
    Kept kg sk (advance n s) := by
  unfold advance
  repeat' (with_reducible first
    | assumption | refine countTicks_kept ?_ | refine moveDt_kept (by assumption) ?_ | dsimp only)

theorem applySet_kept {kg : Guard} {sk : State} {p : PendingSet} {s : State} (hkdt : kg.dt = false)
    (hs : Kept kg sk s) : Kept kg sk (applySet p s) := by
  unfold applySet
  repeat' (with_reducible first
    | assumption | refine kept_ite ?_ ?_ | refine modTime_kept (fun _ => rfl) ?_
    | refine modTime_kept_dt (by assumption) ?_ | refine advance_kept (by assumption) ?_
    | refine countTicks_kept ?_ | refine moveDt_kept (by assumption) ?_ | refine modInteg_kept ?_
    | refine setLevel_kept ?_ | refine raiseIf_kept ?_ | refine writeEvent_kept ?_
    | refine evaluateCalendar_kept ?_ | intro _ | split | refine Kept.of_fst (by assumption) ?_
    | refine Kept.of_snd (by assumption) ?_ | dsimp only)

theorem tick_kept {kg : Guard} {sk : State} {s : State} (hkdt : kg.dt = false) (hs : Kept kg sk s) : Kept kg sk
    (tick s) := by
  unfold tick
  repeat' (with_reducible first
    | assumption | refine applySet_kept (by assumption) ?_ | refine advance_kept (by assumption) ?_ | split
    | refine Kept.of_fst (by assumption) ?_ | refine Kept.of_snd (by assumption) ?_ | dsimp only)

theorem execD04Tick_kept {kg : Guard} {s : State} {kr : State} (hkdt : kg.dt = false) (hh : execD04Tick s = .next kr)
    : Kept kg s kr := by
  have hs := Kept.refl kg s
  unfold execD04Tick at hh
  first | refine done_kept hh ?_ | refine rated_kept hh ?_
  repeat' (with_reducible first | assumption | refine tick_kept (by assumption) ?_ | dsimp only)

theorem execTimeSetApply_kept {kg : Guard} {s : State} {kr : State} (hkdt : kg.dt = false)
    (hh : execTimeSetApply s = .next kr) : Kept kg s kr := by
  have hs := Kept.refl kg s
  unfold execTimeSetApply at hh
  first | refine done_kept hh ?_ | refine rated_kept hh ?_
  repeat' (with_reducible first
    | assumption | refine kept_ite ?_ ?_ | refine tick_kept (by assumption) ?_ | split | dsimp only)

theorem execXlFailDetect_kept {kg : Guard} {makeup : Nat} {s : State} {kr : State} (hkdt : kg.dt = false)
    (hh : execXlFailDetect makeup s = .next kr) : Kept kg s kr := by
  have hs := Kept.refl kg s
  unfold execXlFailDetect at hh
  first | refine done_kept hh ?_ | refine rated_kept hh ?_
  repeat' (with_reducible first
    | assumption | refine kept_ite ?_ ?_ | refine advance_kept (by assumption) ?_ | refine modClock_kept ?_
    | refine setLevel_kept ?_ | refine modTime_kept (fun _ => rfl) ?_ | refine modTime_kept_dt (by assumption) ?_
    | intro _ | split | dsimp only)

theorem execXlRetry_kept {kg : Guard} {ok : Bool} {ppm : Option Int} {s : State} {kr : State}
    (hh : execXlRetry ok ppm s = .next kr) : Kept kg s kr := by
  have hs := Kept.refl kg s
  unfold execXlRetry at hh
  first | refine done_kept hh ?_ | refine rated_kept hh ?_
  repeat' (with_reducible first
    | assumption | refine kept_ite ?_ ?_ | refine modClock_kept ?_ | refine setLevel_kept ?_
    | refine kept_getD ?_ ?_ | intro _ | split | dsimp only)

theorem execClockMonitorFail_kept {kg : Guard} {d06 : Bool} {s : State} {kr : State}
    (hh : execClockMonitorFail d06 s = .next kr) : Kept kg s kr := by
  have hs := Kept.refl kg s
  unfold execClockMonitorFail at hh
  first | refine done_kept hh ?_ | refine rated_kept hh ?_
  repeat' (with_reducible first
    | assumption | refine kept_ite ?_ ?_ | refine raise_kept ?_ | refine modClock_kept ?_ | intro _ | split
    | dsimp only)

theorem execTestEnChange_kept {kg : Guard} {level : Bool} {runs : Bool} {s : State} {kr : State}
    (hh : execTestEnChange level runs s = .next kr) : Kept kg s kr := by
  have hs := Kept.refl kg s
  unfold execTestEnChange at hh
  first | refine done_kept hh ?_ | refine rated_kept hh ?_
  repeat' (with_reducible first
    | assumption | refine kept_ite ?_ ?_ | refine modClock_kept ?_ | refine setLevel_kept ?_
    | refine alarmBy_kept ?_ | intro _ | split | dsimp only)

theorem execVbatMeasure_kept {kg : Guard} {vbatMv : Nat} {vbakMv : Nat} {c : Charge} {s : State} {kr : State}
    (hh : execVbatMeasure vbatMv vbakMv c s = .next kr) : Kept kg s kr := by
  have hs := Kept.refl kg s
  unfold execVbatMeasure at hh
  first | refine done_kept hh ?_ | refine rated_kept hh ?_
  repeat' (with_reducible first
    | assumption | refine kept_ite ?_ ?_ | refine takeCharge_kept ?_ | refine modLintel_kept (fun _ h => h) ?_
    | refine takeVbat_kept ?_ | intro _ | split | dsimp only)

theorem execVbatRecovery_kept {kg : Guard} {mv : Nat} {s : State} {kr : State}
    (hh : execVbatRecovery mv s = .next kr) : Kept kg s kr := by
  have hs := Kept.refl kg s
  unfold execVbatRecovery at hh
  first | refine done_kept hh ?_ | refine rated_kept hh ?_
  repeat' (with_reducible first
    | assumption | refine kept_ite ?_ ?_ | refine modLintel_kept (fun _ h => h) ?_ | refine takeVbat_kept ?_
    | intro _ | split | dsimp only)

theorem execFlashBrownout_kept {kg : Guard} {mv : Nat} {s : State} {kr : State}
    (hh : execFlashBrownout mv s = .next kr) : Kept kg s kr := by
  have hs := Kept.refl kg s
  unfold execFlashBrownout at hh
  first | refine done_kept hh ?_ | refine rated_kept hh ?_
  repeat' (with_reducible first
    | assumption | refine kept_ite ?_ ?_ | refine flashBrownout_kept ?_ | refine takeVbat_kept ?_ | split
    | dsimp only)

end Sys2Proof.Machine
end

