-- ==== Sys2Proof/Laws/KeptPorts.lean ====
section
/-! SUPPORT. What each operation of registers, ports, the fabric commands and the display keeps. -/

namespace Sys2Proof.Machine

set_option linter.all false

theorem latchRead_kept {kg : Guard} {sk : State} {now : State} {master : Nat} {a : Nat} {s : State}
    (hs : Kept kg sk s) : Kept kg sk (latchRead now master a s) := by
  unfold latchRead
  repeat' (with_reducible first
    | assumption | refine kept_ite ?_ ?_ | refine modTime_kept (fun _ => rfl) ?_ | intro _ | split
    | refine Kept.of_fst (by assumption) ?_ | refine Kept.of_snd (by assumption) ?_ | dsimp only)

theorem popFor_kept {kg : Guard} {sk : State} {master : Nat} {q : Nat} {s : State} (hs : Kept kg sk s) : Kept kg sk
    (popFor master q s) := by
  unfold popFor
  repeat' (with_reducible first
    | assumption | refine kept_ite ?_ ?_ | refine popRing_kept ?_ | refine modPorts_kept ?_ | intro _ | split
    | refine Kept.of_fst (by assumption) ?_ | refine Kept.of_snd (by assumption) ?_ | dsimp only)

theorem rsEffect_kept {kg : Guard} {sk : State} {master : Nat} {p : Place} {s : State} (hs : Kept kg sk s) : Kept kg
    sk (rsEffect master p s) := by
  unfold rsEffect
  repeat' (with_reducible first
    | assumption | refine kept_ite ?_ ?_ | refine modBoot_kept (fun _ => rfl) (fun _ h => h) ?_
    | refine popFor_kept ?_ | intro _ | split | refine Kept.of_fst (by assumption) ?_
    | refine Kept.of_snd (by assumption) ?_ | dsimp only)

theorem granRefused_kept {kg : Guard} {sk : State} {master : Nat} {access : Nat} {a : Nat} {s : State}
    (hs : Kept kg sk s) : Kept kg sk (granRefused master access a s) := by
  unfold granRefused
  repeat' (with_reducible first | assumption | refine raiseBy_kept ?_ | dsimp only)

theorem readWord_kept {kg : Guard} {sk : State} {now : State} {master : Nat} {role : Nat} {a : Nat} {s : State}
    (hs : Kept kg sk s) : Kept kg sk (readWord now master role a s).1 := by
  unfold readWord
  repeat' (with_reducible first
    | assumption | refine kept_ite ?_ ?_ | refine latchRead_kept ?_ | refine granRefused_kept ?_
    | refine rsEffect_kept ?_ | split | refine Kept.of_fst (by assumption) ?_
    | refine Kept.of_snd (by assumption) ?_ | dsimp only)

theorem readWords_kept {kg : Guard} {sk : State} {master : Nat} {role : Nat} {addrs : List Nat} {s : State}
    (hs : Kept kg sk s) : Kept kg sk (readWords master role addrs s).1 := by
  unfold readWords
  repeat' (with_reducible first
    | assumption | refine readWord_kept ?_ | refine kept_foldl ?_ ?_ | refine kept_foldl1 ?_ ?_
    | refine kept_foldl2 ?_ ?_ | intro _ | split | dsimp only)

theorem portRequest_kept {kg : Guard} {sk : State} {master : Nat} {s : State} (hs : Kept kg sk s) : Kept kg sk
    (portRequest master s) := by
  unfold portRequest
  repeat' (with_reducible first
    | assumption | refine modPorts_kept ?_ | refine touchSession_kept ?_ | intro _ | split | dsimp only)

theorem displayRefreshJob_kept {kg : Guard} {sk : State} {j : Job} {s : State} (hs : Kept kg sk s) : Kept kg sk
    (displayRefreshJob j s) := by
  unfold displayRefreshJob
  repeat' (with_reducible first
    | assumption | refine engineEnds_kept ?_ | refine modLcd_kept ?_ | refine kept_id ?_ | intro _ | split
    | dsimp only)

theorem execDisplayRefresh_kept {kg : Guard} {tag : Nat} {s : State} {kr : State}
    (hh : execDisplayRefresh tag s = .next kr) : Kept kg s kr := by
  have hs := Kept.refl kg s
  unfold execDisplayRefresh at hh
  first | refine done_kept hh ?_ | refine rated_kept hh ?_
  repeat' (with_reducible first
    | assumption | refine onJob_kept ?_ ?_ | refine displayRefreshJob_kept ?_ | intro _ | dsimp only)

theorem pendRender_kept {kg : Guard} {sk : State} {r : JobResult} {s : State} (hs : Kept kg sk s) : Kept kg sk
    (pendRender r s) := by
  unfold pendRender
  repeat' (with_reducible first
    | assumption | refine kept_ite ?_ ?_ | refine modLcd_kept ?_ | intro _ | split | dsimp only)

theorem takeRender_kept {kg : Guard} {sk : State} {s : State} (hs : Kept kg sk s) : Kept kg sk (takeRender s) := by
  unfold takeRender
  repeat' (with_reducible first
    | assumption | refine modLcd_kept ?_ | intro _ | split | refine Kept.of_fst (by assumption) ?_
    | refine Kept.of_snd (by assumption) ?_ | dsimp only)

theorem latchFaultPage_kept {kg : Guard} {sk : State} {s : State} (hs : Kept kg sk s) : Kept kg sk (latchFaultPage s)
    := by
  unfold latchFaultPage
  repeat' (with_reducible first
    | assumption | refine modLcd_kept ?_ | intro _ | split | refine Kept.of_fst (by assumption) ?_
    | refine Kept.of_snd (by assumption) ?_ | dsimp only)

theorem noteShort_kept {kg : Guard} {sk : State} {p : Option (Nat × Nat)} {s : State} (hs : Kept kg sk s) : Kept kg
    sk (noteShort p s) := by
  unfold noteShort
  repeat' (with_reducible first
    | assumption | refine raise_kept ?_ | refine modLcd_kept ?_ | intro _ | split
    | refine Kept.of_fst (by assumption) ?_ | refine Kept.of_snd (by assumption) ?_ | dsimp only)

theorem segFrame_kept {kg : Guard} {sk : State} {s : State} (hs : Kept kg sk s) : Kept kg sk (segFrame s) := by
  unfold segFrame
  repeat' (with_reducible first
    | assumption | refine kept_ite ?_ ?_ | refine noteShort_kept ?_ | refine modLcd_kept ?_
    | refine engineEnds_kept ?_ | refine kept_id ?_ | intro _ | split | refine Kept.of_fst (by assumption) ?_
    | refine Kept.of_snd (by assumption) ?_ | dsimp only)

theorem evenFrame_kept {kg : Guard} {sk : State} {s : State} (hs : Kept kg sk s) : Kept kg sk (evenFrame s) := by
  unfold evenFrame
  repeat' (with_reducible first
    | assumption | refine segFrame_kept ?_ | refine latchFaultPage_kept ?_ | refine takeRender_kept ?_
    | refine modLcd_kept ?_ | intro _ | split | dsimp only)

theorem execLcdFrameStart_kept {kg : Guard} {s : State} {kr : State} (hh : execLcdFrameStart s = .next kr) : Kept kg
    s kr := by
  have hs := Kept.refl kg s
  unfold execLcdFrameStart at hh
  first | refine done_kept hh ?_ | refine rated_kept hh ?_
  repeat' (with_reducible first
    | assumption | refine kept_ite ?_ ?_ | refine modLcd_kept ?_ | refine evenFrame_kept ?_ | intro _ | split
    | refine Kept.of_fst (by assumption) ?_ | refine Kept.of_snd (by assumption) ?_ | dsimp only)

theorem execSegCheck_kept {kg : Guard} {tag : Option Nat} {short : Option (Nat × Nat)} {s : State} {kr : State}
    (hh : execSegCheck tag short s = .next kr) : Kept kg s kr := by
  have hs := Kept.refl kg s
  unfold execSegCheck at hh
  first | refine done_kept hh ?_ | refine rated_kept hh ?_
  repeat' (with_reducible first
    | assumption | refine kept_ite ?_ ?_ | refine modLcd_kept ?_ | refine kept_id ?_ | intro _ | split
    | refine Kept.of_fst (by assumption) ?_ | refine Kept.of_snd (by assumption) ?_ | dsimp only)

theorem noteVlcd_kept {kg : Guard} {sk : State} {mv : Int} {s : State} (hs : Kept kg sk s) : Kept kg sk
    (noteVlcd mv s) := by
  unfold noteVlcd
  repeat' (with_reducible first
    | assumption | refine kept_ite ?_ ?_ | refine modLcd_kept ?_ | refine kept_getD ?_ ?_ | intro _ | split
    | dsimp only)

theorem execContrastUpdate_kept {kg : Guard} {tDie : Int} {mv : Int} {s : State} {kr : State}
    (hh : execContrastUpdate tDie mv s = .next kr) : Kept kg s kr := by
  have hs := Kept.refl kg s
  unfold execContrastUpdate at hh
  first | refine done_kept hh ?_ | refine rated_kept hh ?_
  repeat' (with_reducible first
    | assumption | refine kept_ite ?_ ?_ | refine modLcd_kept ?_ | refine noteVlcd_kept ?_ | intro _ | split
    | refine Kept.of_fst (by assumption) ?_ | refine Kept.of_snd (by assumption) ?_ | dsimp only)

theorem execVlcdRangeTimer_kept {kg : Guard} {mv : Int} {s : State} {kr : State}
    (hh : execVlcdRangeTimer mv s = .next kr) : Kept kg s kr := by
  have hs := Kept.refl kg s
  unfold execVlcdRangeTimer at hh
  first | refine done_kept hh ?_ | refine rated_kept hh ?_
  repeat' (with_reducible first
    | assumption | refine kept_ite ?_ ?_ | refine noteVlcd_kept ?_ | refine setLevel_kept ?_ | split
    | refine Kept.of_fst (by assumption) ?_ | refine Kept.of_snd (by assumption) ?_ | dsimp only)

theorem execPageDwellEnd_kept {kg : Guard} {s : State} {kr : State} (hh : execPageDwellEnd s = .next kr) : Kept kg s
    kr := by
  have hs := Kept.refl kg s
  unfold execPageDwellEnd at hh
  first | refine done_kept hh ?_ | refine rated_kept hh ?_
  repeat' (with_reducible first
    | assumption | refine kept_ite ?_ ?_ | refine modLcd_kept ?_ | intro _ | split | dsimp only)

theorem execHoldTimeout_kept {kg : Guard} {s : State} {kr : State} (hh : execHoldTimeout s = .next kr) : Kept kg s kr
    := by
  have hs := Kept.refl kg s
  unfold execHoldTimeout at hh
  first | refine done_kept hh ?_ | refine rated_kept hh ?_
  repeat' (with_reducible first
    | assumption | refine kept_ite ?_ ?_ | refine modLcd_kept ?_ | intro _ | split | dsimp only)

theorem writeLoadCtrl_kept {kg : Guard} {sk : State} {o : WriteObs} {a : Actor} {v : Word} {s : State}
    (hs : Kept kg sk s) : Kept kg sk (writeLoadCtrl o a v s).1 := by
  unfold writeLoadCtrl
  repeat' (with_reducible first
    | assumption | refine kept_ite ?_ ?_ | refine modBoot_kept (fun _ => rfl) (fun _ h => h) ?_
    | refine loadErase_kept ?_ | refine loadProgram_kept ?_ | refine loadFinish_kept ?_ | intro _ | split
    | refine Kept.of_fst (by assumption) ?_ | refine Kept.of_snd (by assumption) ?_ | dsimp only)

theorem writeSeal_kept {kg : Guard} {sk : State} {o : WriteObs} {a : Actor} {v : Word} {s : State}
    (hs : Kept kg sk s) : Kept kg sk (writeSeal o a v s).1 := by
  unfold writeSeal
  repeat' (with_reducible first | assumption | refine kept_ite ?_ ?_ | refine sealChip_kept ?_ | split | dsimp only)

theorem writeReseatCtrl_kept {kg : Guard} {sk : State} {a : Actor} {v : Word} {s : State} (hs : Kept kg sk s) : Kept
    kg sk (writeReseatCtrl a v s).1 := by
  unfold writeReseatCtrl
  repeat' (with_reducible first | assumption | refine kept_ite ?_ ?_ | refine reseatWrite_kept ?_ | split | dsimp only)

theorem writeSetCtrl_kept {kg : Guard} {sk : State} {a : Actor} {v : Word} {s : State} (hs : Kept kg sk s) : Kept kg
    sk (writeSetCtrl a v s).1 := by
  unfold writeSetCtrl
  repeat' (with_reducible first
    | assumption | refine kept_ite ?_ ?_ | refine modTime_kept (fun _ => rfl) ?_ | intro _ | split | dsimp only)

theorem queueAccess_kept {kg : Guard} {sk : State} {a : Actor} {addr : Nat} {s : State} (hs : Kept kg sk s) : Kept kg
    sk (queueAccess a addr s) := by
  unfold queueAccess
  repeat' (with_reducible first | assumption | refine raiseBy_kept ?_ | dsimp only)

theorem writeDesc_kept {kg : Guard} {sk : State} {a : Actor} {q : Nat} {k : Nat} {v : Word} {s : State}
    (hs : Kept kg sk s) : Kept kg sk (writeDesc a q k v s).1 := by
  unfold writeDesc
  repeat' (with_reducible first
    | assumption | refine kept_ite ?_ ?_ | refine modQueue_kept ?_ | refine submitJob_kept ?_
    | refine queueAccess_kept ?_ | intro _ | split | refine Kept.of_fst (by assumption) ?_
    | refine Kept.of_snd (by assumption) ?_ | dsimp only)

theorem writeQCtrl_kept {kg : Guard} {sk : State} {a : Actor} {q : Nat} {v : Word} {s : State} (hs : Kept kg sk s) :
    Kept kg sk (writeQCtrl a q v s).1 := by
  unfold writeQCtrl
  repeat' (with_reducible first
    | assumption | refine kept_ite ?_ ?_ | refine queueAccess_kept ?_ | refine modQueue_kept ?_ | intro _ | split
    | dsimp only)

theorem writeQueue_kept {kg : Guard} {sk : State} {a : Actor} {off : Nat} {v : Word} {s : State} (hs : Kept kg sk s)
    : Kept kg sk (writeQueue a off v s).1 := by
  unfold writeQueue
  repeat' (with_reducible first
    | assumption | refine kept_ite ?_ ?_ | refine writeDesc_kept ?_ | refine writeQCtrl_kept ?_
    | refine queueAccess_kept ?_ | split | dsimp only)

theorem writeForce_kept {kg : Guard} {sk : State} {a : Actor} {b : Block} {real : Nat} {v : Word} {s : State}
    (hs : Kept kg sk s) : Kept kg sk (writeForce a b real v s).1 := by
  unfold writeForce
  repeat' (with_reducible first
    | assumption | refine kept_ite ?_ ?_ | refine raiseBy_kept ?_ | refine kept_foldl ?_ ?_
    | refine kept_foldl1 ?_ ?_ | refine kept_foldl2 ?_ ?_ | intro _ | split | dsimp only)

theorem writeWindow_kept {kg : Guard} {sk : State} {a : Actor} {b : Block} {off : Nat} {real : Nat} {v : Word}
    {s : State} (hs : Kept kg sk s) : Kept kg sk (writeWindow a b off real v s).1 := by
  unfold writeWindow
  repeat' (with_reducible first
    | assumption | refine clearStatus_kept ?_ | refine modWin_kept (fun _ h => h) ?_ | refine writeForce_kept ?_
    | intro _ | split | refine Kept.of_fst (by assumption) ?_ | refine Kept.of_snd (by assumption) ?_ | dsimp only)

theorem writeEraseCmd_kept {kg : Guard} {sk : State} {o : WriteObs} {v : Word} {s : State} (hs : Kept kg sk s) : Kept
    kg sk (writeEraseCmd o v s).1 := by
  unfold writeEraseCmd
  repeat' (with_reducible first | assumption | refine kept_ite ?_ ?_ | refine alarm_kept ?_ | split | dsimp only)

theorem writeAuthCtrl_kept {kg : Guard} {sk : State} {o : WriteObs} {a : Actor} {v : Word} {s : State}
    (hs : Kept kg sk s) : Kept kg sk (writeAuthCtrl o a v s).1 := by
  unfold writeAuthCtrl
  repeat' (with_reducible first
    | assumption | refine kept_ite ?_ ?_ | refine modRoles_kept ?_ | refine authBegin_kept ?_
    | refine authFinish_kept ?_ | refine sessionEnd_kept ?_ | intro _ | split | dsimp only)

theorem writeAuth_kept {kg : Guard} {sk : State} {o : WriteObs} {a : Actor} {off : Nat} {v : Word} {s : State}
    (hs : Kept kg sk s) : Kept kg sk (writeAuth o a off v s).1 := by
  unfold writeAuth
  repeat' (with_reducible first
    | assumption | refine kept_ite ?_ ?_ | refine writeAuthCtrl_kept ?_ | refine modRoles_kept ?_ | intro _
    | split | dsimp only)

theorem writeLcdCtrl_kept {kg : Guard} {sk : State} {v : Word} {s : State} (hs : Kept kg sk s) : Kept kg sk
    (writeLcdCtrl v s).1 := by
  unfold writeLcdCtrl
  repeat' (with_reducible first
    | assumption | refine kept_ite ?_ ?_ | refine modLcd_kept ?_ | intro _ | split | dsimp only)

theorem portAlloc_kept {kg : Guard} {sk : State} {cls : Nat} {a : Actor} {s : State} (hs : Kept kg sk s) : Kept kg sk
    (portAlloc cls a s).1 := by
  unfold portAlloc
  repeat' (with_reducible first
    | assumption | refine kept_ite ?_ ?_ | refine drew_kept ?_ | refine modGran_kept ?_ | intro _ | split
    | refine Kept.of_fst (by assumption) ?_ | refine Kept.of_snd (by assumption) ?_ | dsimp only)

theorem granCommand_kept {kg : Guard} {sk : State} {a : Actor} {cmd : Nat} {g : Nat} {s : State} (hs : Kept kg sk s)
    : Kept kg sk (granCommand a cmd g s).1 := by
  unfold granCommand
  repeat' (with_reducible first
    | assumption | refine kept_ite ?_ ?_ | refine portAlloc_kept ?_ | refine dropPortGran_kept ?_ | split
    | refine Kept.of_fst (by assumption) ?_ | refine Kept.of_snd (by assumption) ?_ | dsimp only)

theorem writeGranCtrl_kept {kg : Guard} {sk : State} {a : Actor} {v : Word} {s : State} (hs : Kept kg sk s) : Kept kg
    sk (writeGranCtrl a v s).1 := by
  unfold writeGranCtrl
  repeat' (with_reducible first
    | assumption | refine kept_ite ?_ ?_ | refine granCommand_kept ?_ | refine modPorts_kept ?_ | intro _ | split
    | dsimp only)

theorem writeSram_kept {k : Guard} {s0 : State} {a : Actor} {x : Nat} {v : Word} {s : State} (hs : Kept k s0 s) :
    Kept k s0 (writeSram a x v s).1 := by
  unfold writeSram
  split
  · exact kept_sramR (Mem.wf_write _ _ _) hs
  · exact granRefused_kept hs

theorem writeEffect_kept {kg : Guard} {sk : State} {o : WriteObs} {a : Actor} {p : Place} {v : Word} {s : State}
    (hs : Kept kg sk s) : Kept kg sk (writeEffect o a p v s).1 := by
  unfold writeEffect
  repeat' (with_reducible first
    | assumption | refine kept_ite ?_ ?_ | refine writeSram_kept ?_ | refine writeQueue_kept ?_
    | refine writeWindow_kept ?_ | refine writeReseatCtrl_kept ?_ | refine writeLoadCtrl_kept ?_
    | refine modBoot_kept (fun _ => rfl) (fun _ h => h) ?_ | refine writeSeal_kept ?_ | refine writeAuth_kept ?_
    | refine modClock_kept ?_ | refine modTime_kept (fun _ => rfl) ?_ | refine writeSetCtrl_kept ?_
    | refine modBill_kept ?_ | refine writeEraseCmd_kept ?_ | refine writeLcdCtrl_kept ?_
    | refine writeGranCtrl_kept ?_ | intro _ | split | refine Kept.of_fst (by assumption) ?_
    | refine Kept.of_snd (by assumption) ?_ | dsimp only)

theorem auditWrite_kept {kg : Guard} {sk : State} {a : Actor} {addr : Nat} {before : Nat} {after : Nat} {st : Status}
    {s : State} (hs : Kept kg sk s) : Kept kg sk (auditWrite a addr before after st s) := by
  unfold auditWrite
  repeat' (with_reducible first | assumption | refine kept_ite ?_ ?_ | refine audit_kept ?_ | split | dsimp only)

theorem noteSetCtrl_kept {kg : Guard} {sk : State} {p : Place} {st : Status} {s : State} (hs : Kept kg sk s) : Kept
    kg sk (noteSetCtrl p st s) := by
  unfold noteSetCtrl
  repeat' (with_reducible first
    | assumption | refine kept_ite ?_ ?_ | refine modTime_kept (fun _ => rfl) ?_ | intro _ | split | dsimp only)

theorem writeWord_kept {kg : Guard} {sk : State} {o : WriteObs} {w : WriteCtx} {role : Nat} {addr : Nat} {v : Word}
    {s : State} (hs : Kept kg sk s) : Kept kg sk (writeWord o w role addr v s).1 := by
  unfold writeWord
  repeat' (with_reducible first
    | assumption | refine kept_ite ?_ ?_ | refine modFabric_kept ?_ | refine writeEffect_kept ?_
    | refine noteSetCtrl_kept ?_ | refine auditWrite_kept ?_ | intro _ | split
    | refine Kept.of_fst (by assumption) ?_ | refine Kept.of_snd (by assumption) ?_ | dsimp only)

theorem readFrame_kept {kg : Guard} {sk : State} {master : Nat} {role : Nat} {addr : Nat} {n : Nat} {s : State}
    (hs : Kept kg sk s) : Kept kg sk (readFrame master role addr n s).1 := by
  unfold readFrame
  repeat' (with_reducible first
    | assumption | refine readWords_kept ?_ | split | refine Kept.of_fst (by assumption) ?_
    | refine Kept.of_snd (by assumption) ?_ | dsimp only)

theorem auditRefused_kept {kg : Guard} {sk : State} {w : WriteCtx} {role : Nat} {st : Status} {addrs : List Nat}
    {s : State} (hs : Kept kg sk s) : Kept kg sk (auditRefused w role st addrs s) := by
  unfold auditRefused
  repeat' (with_reducible first
    | assumption | refine kept_ite ?_ ?_ | refine noteSetCtrl_kept ?_ | refine auditWrite_kept ?_
    | refine kept_foldl ?_ ?_ | refine kept_foldl1 ?_ ?_ | refine kept_foldl2 ?_ ?_ | intro _ | split | dsimp only)

theorem writeFrame_kept {kg : Guard} {sk : State} {o : WriteObs} {w : WriteCtx} {role : Nat} {addr : Nat}
    {vs : List Word} {s : State} (hs : Kept kg sk s) : Kept kg sk (writeFrame o w role addr vs s).1 := by
  unfold writeFrame
  repeat' (with_reducible first
    | assumption | refine kept_ite ?_ ?_ | refine auditRefused_kept ?_ | refine writeWord_kept ?_
    | refine settle_kept ?_ | refine kept_foldl ?_ ?_ | refine kept_foldl1 ?_ ?_ | refine kept_foldl2 ?_ ?_
    | intro _ | split | refine Kept.of_fst (by assumption) ?_ | refine Kept.of_snd (by assumption) ?_ | dsimp only)

theorem writeAccess_kept {kg : Guard} {sk : State} {o : WriteObs} {w : WriteCtx} {addr : Nat} {v : Word} {s : State}
    (hs : Kept kg sk s) : Kept kg sk (writeAccess o w addr v s) := by
  unfold writeAccess
  repeat' (with_reducible first
    | assumption | refine kept_ite ?_ ?_ | refine writeWord_kept ?_ | refine portRequest_kept ?_ | split
    | dsimp only)

theorem readAccess_kept {kg : Guard} {sk : State} {master : Nat} {addr : Nat} {s : State} (hs : Kept kg sk s) : Kept
    kg sk (readAccess master addr s) := by
  unfold readAccess
  repeat' (with_reducible first
    | assumption | refine kept_ite ?_ ?_ | refine readFrame_kept ?_ | refine portRequest_kept ?_ | split
    | dsimp only)

theorem execTimeSetRequest_kept {kg : Guard} {w : WriteCtx} {key : Half} {s : State} {kr : State}
    (hh : execTimeSetRequest w key s = .next kr) : Kept kg s kr := by
  have hs := Kept.refl kg s
  unfold execTimeSetRequest at hh
  first | refine done_kept hh ?_ | refine rated_kept hh ?_
  repeat' (with_reducible first | assumption | refine writeAccess_kept ?_ | dsimp only)

theorem execTimeAdjustRequest_kept {kg : Guard} {w : WriteCtx} {key : Half} {s : State} {kr : State}
    (hh : execTimeAdjustRequest w key s = .next kr) : Kept kg s kr := by
  have hs := Kept.refl kg s
  unfold execTimeAdjustRequest at hh
  first | refine done_kept hh ?_ | refine rated_kept hh ?_
  repeat' (with_reducible first | assumption | refine writeAccess_kept ?_ | dsimp only)

theorem loadAccess_kept {kg : Guard} {sk : State} {o : WriteObs} {w : WriteCtx} {cmd : Nat} {copyB : Bool}
    {s : State} (hs : Kept kg sk s) : Kept kg sk (loadAccess o w cmd copyB s) := by
  unfold loadAccess
  repeat' (with_reducible first | assumption | refine writeAccess_kept ?_ | dsimp only)

theorem execImageLoadErase_kept {kg : Guard} {w : WriteCtx} {copyB : Bool} {o : FlashObs} {s : State} {kr : State}
    (hh : execImageLoadErase w copyB o s = .next kr) : Kept kg s kr := by
  have hs := Kept.refl kg s
  unfold execImageLoadErase at hh
  first | refine done_kept hh ?_ | refine rated_kept hh ?_
  repeat' (with_reducible first | assumption | refine loadAccess_kept ?_ | dsimp only)

theorem execImageLoadProgram_kept {kg : Guard} {w : WriteCtx} {copyB : Bool} {o : FlashObs} {s : State} {kr : State}
    (hh : execImageLoadProgram w copyB o s = .next kr) : Kept kg s kr := by
  have hs := Kept.refl kg s
  unfold execImageLoadProgram at hh
  first | refine done_kept hh ?_ | refine rated_kept hh ?_
  repeat' (with_reducible first | assumption | refine loadAccess_kept ?_ | dsimp only)

theorem execImageLoadFinish_kept {kg : Guard} {w : WriteCtx} {copyB : Bool} {o : FlashObs} {boot : BootObs}
    {s : State} {kr : State} (hh : execImageLoadFinish w copyB o boot s = .next kr) : Kept kg s kr := by
  have hs := Kept.refl kg s
  unfold execImageLoadFinish at hh
  first | refine done_kept hh ?_ | refine rated_kept hh ?_
  repeat' (with_reducible first | assumption | refine loadAccess_kept ?_ | dsimp only)

theorem execSealCommand_kept {kg : Guard} {w : WriteCtx} {metro : Word} {stuck : List (Nat × Byte)} {s : State}
    {kr : State} (hh : execSealCommand w metro stuck s = .next kr) : Kept kg s kr := by
  have hs := Kept.refl kg s
  unfold execSealCommand at hh
  first | refine done_kept hh ?_ | refine rated_kept hh ?_
  repeat' (with_reducible first | assumption | refine writeAccess_kept ?_ | dsimp only)

theorem execReseatRequestGo_kept {kg : Guard} {w : WriteCtx} {key : Half} {s : State} {kr : State}
    (hh : execReseatRequestGo w key s = .next kr) : Kept kg s kr := by
  have hs := Kept.refl kg s
  unfold execReseatRequestGo at hh
  first | refine done_kept hh ?_ | refine rated_kept hh ?_
  repeat' (with_reducible first | assumption | refine writeAccess_kept ?_ | dsimp only)

theorem execJobSubmit_kept {kg : Guard} {w : WriteCtx} {q : Nat} {word7 : Word} {s : State} {kr : State}
    (hh : execJobSubmit w q word7 s = .next kr) : Kept kg s kr := by
  have hs := Kept.refl kg s
  unfold execJobSubmit at hh
  first | refine done_kept hh ?_ | refine rated_kept hh ?_
  repeat' (with_reducible first | assumption | refine kept_ite ?_ ?_ | refine writeAccess_kept ?_ | split | dsimp only)

theorem execQueueOverrunClear_kept {kg : Guard} {w : WriteCtx} {q : Nat} {notifyEn : Bool} {s : State} {kr : State}
    (hh : execQueueOverrunClear w q notifyEn s = .next kr) : Kept kg s kr := by
  have hs := Kept.refl kg s
  unfold execQueueOverrunClear at hh
  first | refine done_kept hh ?_ | refine rated_kept hh ?_
  repeat' (with_reducible first | assumption | refine kept_ite ?_ ?_ | refine writeAccess_kept ?_ | split | dsimp only)

theorem execCompletionPop_kept {kg : Guard} {q : Nat} {s : State} {kr : State}
    (hh : execCompletionPop q s = .next kr) : Kept kg s kr := by
  have hs := Kept.refl kg s
  unfold execCompletionPop at hh
  first | refine done_kept hh ?_ | refine rated_kept hh ?_
  repeat' (with_reducible first | assumption | refine kept_ite ?_ ?_ | refine readAccess_kept ?_ | split | dsimp only)

theorem execRegisterWrite_kept {kg : Guard} {w : WriteCtx} {addr : Nat} {v : Word} {o : WriteObs} {s : State}
    {kr : State} (hh : execRegisterWrite w addr v o s = .next kr) : Kept kg s kr := by
  have hs := Kept.refl kg s
  unfold execRegisterWrite at hh
  first | refine done_kept hh ?_ | refine rated_kept hh ?_
  repeat' (with_reducible first | assumption | refine writeAccess_kept ?_ | dsimp only)

theorem execResetCauseRead_kept {kg : Guard} {s : State} {kr : State} (hh : execResetCauseRead s = .next kr) : Kept
    kg s kr := by
  have hs := Kept.refl kg s
  unfold execResetCauseRead at hh
  first | refine done_kept hh ?_ | refine rated_kept hh ?_
  repeat' (with_reducible first | assumption | refine readAccess_kept ?_ | dsimp only)

theorem execLatchedWordRead_kept {kg : Guard} {master : Nat} {addr : Nat} {s : State} {kr : State}
    (hh : execLatchedWordRead master addr s = .next kr) : Kept kg s kr := by
  have hs := Kept.refl kg s
  unfold execLatchedWordRead at hh
  first | refine done_kept hh ?_ | refine rated_kept hh ?_
  repeat' (with_reducible first | assumption | refine kept_ite ?_ ?_ | refine readAccess_kept ?_ | split | dsimp only)

theorem execGranAllocC_kept {kg : Guard} {w : WriteCtx} {s : State} {kr : State} (hh : execGranAllocC w s = .next kr)
    : Kept kg s kr := by
  have hs := Kept.refl kg s
  unfold execGranAllocC at hh
  first | refine done_kept hh ?_ | refine rated_kept hh ?_
  repeat' (with_reducible first | assumption | refine writeAccess_kept ?_ | dsimp only)

theorem execGranAllocH_kept {kg : Guard} {w : WriteCtx} {s : State} {kr : State} (hh : execGranAllocH w s = .next kr)
    : Kept kg s kr := by
  have hs := Kept.refl kg s
  unfold execGranAllocH at hh
  first | refine done_kept hh ?_ | refine rated_kept hh ?_
  repeat' (with_reducible first | assumption | refine writeAccess_kept ?_ | dsimp only)

theorem execGranFree_kept {kg : Guard} {w : WriteCtx} {g : Nat} {s : State} {kr : State}
    (hh : execGranFree w g s = .next kr) : Kept kg s kr := by
  have hs := Kept.refl kg s
  unfold execGranFree at hh
  first | refine done_kept hh ?_ | refine rated_kept hh ?_
  repeat' (with_reducible first | assumption | refine writeAccess_kept ?_ | dsimp only)

theorem execPortGranuleIdleFree_kept {kg : Guard} {master : Nat} {s : State} {kr : State}
    (hh : execPortGranuleIdleFree master s = .next kr) : Kept kg s kr := by
  have hs := Kept.refl kg s
  unfold execPortGranuleIdleFree at hh
  first | refine done_kept hh ?_ | refine rated_kept hh ?_
  repeat' (with_reducible first
    | assumption | refine kept_ite ?_ ?_ | refine freePortGrans_kept ?_ | split | dsimp only)

theorem execFaultStatusClear_kept {kg : Guard} {w : WriteCtx} {b : Block} {mask : Half} {s : State} {kr : State}
    (hh : execFaultStatusClear w b mask s = .next kr) : Kept kg s kr := by
  have hs := Kept.refl kg s
  unfold execFaultStatusClear at hh
  first | refine done_kept hh ?_ | refine rated_kept hh ?_
  repeat' (with_reducible first | assumption | refine writeAccess_kept ?_ | dsimp only)

theorem execFaultForce_kept {kg : Guard} {w : WriteCtx} {b : Block} {forced : Forced} {s : State} {kr : State}
    (hh : execFaultForce w b forced s = .next kr) : Kept kg s kr := by
  have hs := Kept.refl kg s
  unfold execFaultForce at hh
  first | refine done_kept hh ?_ | refine rated_kept hh ?_
  repeat' (with_reducible first | assumption | refine writeAccess_kept ?_ | dsimp only)

theorem execAliveToggle_kept {kg : Guard} {s : State} {kr : State} (hh : execAliveToggle s = .next kr) : Kept kg s kr
    := by
  have hs := Kept.refl kg s
  unfold execAliveToggle at hh
  first | refine done_kept hh ?_ | refine rated_kept hh ?_
  repeat' (with_reducible first
    | assumption | refine kept_ite ?_ ?_ | refine modFaults_kept (fun _ h => h) (fun _ => rfl) ?_ | intro _
    | split | dsimp only)

theorem execEraseCmd_kept {kg : Guard} {w : WriteCtx} {key : Half} {ns : Nat} {repeats : Nat} {s : State}
    {kr : State} (hh : execEraseCmd w key ns repeats s = .next kr) : Kept kg s kr := by
  have hs := Kept.refl kg s
  unfold execEraseCmd at hh
  first | refine done_kept hh ?_ | refine rated_kept hh ?_
  repeat' (with_reducible first | assumption | refine writeAccess_kept ?_ | dsimp only)

theorem execPageSelect_kept {kg : Guard} {w : WriteCtx} {page : Nat} {hold : Bool} {s : State} {kr : State}
    (hh : execPageSelect w page hold s = .next kr) : Kept kg s kr := by
  have hs := Kept.refl kg s
  unfold execPageSelect at hh
  first | refine done_kept hh ?_ | refine rated_kept hh ?_
  repeat' (with_reducible first | assumption | refine writeAccess_kept ?_ | dsimp only)

theorem execPageHold_kept {kg : Guard} {w : WriteCtx} {page : Nat} {hold : Bool} {s : State} {kr : State}
    (hh : execPageHold w page hold s = .next kr) : Kept kg s kr := by
  have hs := Kept.refl kg s
  unfold execPageHold at hh
  first | refine done_kept hh ?_ | refine rated_kept hh ?_
  repeat' (with_reducible first | assumption | refine writeAccess_kept ?_ | dsimp only)

theorem authAccess_kept {kg : Guard} {sk : State} {w : WriteCtx} {v : Word} {actBit : Nat} {s : State}
    (hs : Kept kg sk s) : Kept kg sk (authAccess w v actBit s) := by
  unfold authAccess
  repeat' (with_reducible first | assumption | refine writeAccess_kept ?_ | dsimp only)

theorem execAuthBegin_kept {kg : Guard} {via : AuthVia} {s : State} {kr : State}
    (hh : execAuthBegin via s = .next kr) : Kept kg s kr := by
  have hs := Kept.refl kg s
  unfold execAuthBegin at hh
  first | refine done_kept hh ?_ | refine rated_kept hh ?_
  repeat' (with_reducible first
    | assumption | refine kept_ite ?_ ?_ | refine authAccess_kept ?_ | refine authBegin_kept ?_
    | refine engineEnds_kept ?_ | refine kept_id ?_ | split | refine Kept.of_fst (by assumption) ?_
    | refine Kept.of_snd (by assumption) ?_ | dsimp only)

theorem execAuthFinish_kept {kg : Guard} {via : AuthVia} {s : State} {kr : State}
    (hh : execAuthFinish via s = .next kr) : Kept kg s kr := by
  have hs := Kept.refl kg s
  unfold execAuthFinish at hh
  first | refine done_kept hh ?_ | refine rated_kept hh ?_
  repeat' (with_reducible first
    | assumption | refine authAccess_kept ?_ | refine authFinish_kept ?_ | refine engineEnds_kept ?_
    | refine kept_id ?_ | split | refine Kept.of_fst (by assumption) ?_ | refine Kept.of_snd (by assumption) ?_
    | dsimp only)

theorem execSessionEnd_kept {kg : Guard} {via : AuthVia} {s : State} {kr : State}
    (hh : execSessionEnd via s = .next kr) : Kept kg s kr := by
  have hs := Kept.refl kg s
  unfold execSessionEnd at hh
  first | refine done_kept hh ?_ | refine rated_kept hh ?_
  repeat' (with_reducible first
    | assumption | refine authAccess_kept ?_ | refine sessionEnd_kept ?_ | refine engineEnds_kept ?_
    | refine kept_id ?_ | split | refine Kept.of_fst (by assumption) ?_ | refine Kept.of_snd (by assumption) ?_
    | dsimp only)

theorem startJob_kept {kg : Guard} {sk : State} {j : Job} {s : State} (hs : Kept kg sk s) : Kept kg sk (startJob j s)
    := by
  unfold startJob
  repeat' (with_reducible first
    | assumption | refine kept_ite ?_ ?_ | refine modJob_kept ?_ | refine modMason_kept ?_
    | refine engineEnds_kept ?_ | refine consentLock_kept ?_ | refine shotDispatch_kept ?_
    | refine modTemp_kept ?_ | refine kept_id ?_ | intro _ | split | refine Kept.of_fst (by assumption) ?_
    | refine Kept.of_snd (by assumption) ?_ | dsimp only)

theorem execJobDispatch_kept {kg : Guard} {n : Nat} {waitUs : Nat} {c : Charge} {s : State} {kr : State}
    (hh : execJobDispatch n waitUs c s = .next kr) : Kept kg s kr := by
  have hs := Kept.refl kg s
  unfold execJobDispatch at hh
  first | refine done_kept hh ?_ | refine rated_kept hh ?_
  repeat' (with_reducible first
    | assumption | refine kept_ite ?_ ?_ | refine takeCharge_kept ?_ | refine completeWith_kept ?_
    | refine startJob_kept ?_ | refine countDelay_kept ?_ | refine kept_id ?_ | split
    | refine Kept.of_fst (by assumption) ?_ | refine Kept.of_snd (by assumption) ?_ | dsimp only)

theorem timeOutJob_kept {kg : Guard} {sk : State} {j : Job} {s : State} (hs : Kept kg sk s) : Kept kg sk
    (timeOutJob j s) := by
  unfold timeOutJob
  repeat' (with_reducible first
    | assumption | refine completeJob_kept ?_ | refine dropJob_kept ?_ | refine kept_id ?_ | dsimp only)

theorem execJobCompletion_kept {kg : Guard} {tag : Nat} {c : Charge} {s : State} {kr : State}
    (hh : execJobCompletion tag c s = .next kr) : Kept kg s kr := by
  have hs := Kept.refl kg s
  unfold execJobCompletion at hh
  first | refine done_kept hh ?_ | refine rated_kept hh ?_
  repeat' (with_reducible first
    | assumption | refine kept_ite ?_ ?_ | refine takeCharge_kept ?_ | refine timeOutJob_kept ?_
    | refine publishTemp_kept ?_ | refine pendRender_kept ?_ | refine snapshotDone_kept ?_
    | refine completeJob_kept ?_ | refine kept_id ?_ | split | refine Kept.of_fst (by assumption) ?_
    | refine Kept.of_snd (by assumption) ?_ | dsimp only)

theorem execJobWatchdogExpiry_kept {kg : Guard} {tag : Nat} {s : State} {kr : State}
    (hh : execJobWatchdogExpiry tag s = .next kr) : Kept kg s kr := by
  have hs := Kept.refl kg s
  unfold execJobWatchdogExpiry at hh
  first | refine done_kept hh ?_ | refine rated_kept hh ?_
  repeat' (with_reducible first
    | assumption | refine kept_ite ?_ ?_ | refine timeOutJob_kept ?_ | split
    | refine Kept.of_fst (by assumption) ?_ | refine Kept.of_snd (by assumption) ?_ | dsimp only)

theorem execHeldJobTimeout_kept {kg : Guard} {tag : Nat} {s : State} {kr : State}
    (hh : execHeldJobTimeout tag s = .next kr) : Kept kg s kr := by
  have hs := Kept.refl kg s
  unfold execHeldJobTimeout at hh
  first | refine done_kept hh ?_ | refine rated_kept hh ?_
  repeat' (with_reducible first
    | assumption | refine kept_ite ?_ ?_ | refine completeJob_kept ?_ | refine kept_id ?_ | split
    | refine Kept.of_fst (by assumption) ?_ | refine Kept.of_snd (by assumption) ?_ | dsimp only)

theorem execWaitingAdmission_kept {kg : Guard} {s : State} {kr : State} (hh : execWaitingAdmission s = .next kr) :
    Kept kg s kr := by
  have hs := Kept.refl kg s
  unfold execWaitingAdmission at hh
  first | refine done_kept hh ?_ | refine rated_kept hh ?_
  repeat' (with_reducible first | assumption | refine kept_ite ?_ ?_ | refine admitNext_kept ?_ | split | dsimp only)

theorem execFifoWaitExpiry_kept {kg : Guard} {q : Nat} {seq : Nat} {s : State} {kr : State}
    (hh : execFifoWaitExpiry q seq s = .next kr) : Kept kg s kr := by
  have hs := Kept.refl kg s
  unfold execFifoWaitExpiry at hh
  first | refine done_kept hh ?_ | refine rated_kept hh ?_
  repeat' (with_reducible first
    | assumption | refine kept_ite ?_ ?_ | refine endEarly_kept ?_ | intro _ | split
    | refine Kept.of_fst (by assumption) ?_ | refine Kept.of_snd (by assumption) ?_ | dsimp only)

theorem execAutoRetryResubmit_kept {kg : Guard} {q : Nat} {s : State} {kr : State}
    (hh : execAutoRetryResubmit q s = .next kr) : Kept kg s kr := by
  have hs := Kept.refl kg s
  unfold execAutoRetryResubmit at hh
  first | refine done_kept hh ?_ | refine rated_kept hh ?_
  repeat' (with_reducible first
    | assumption | refine kept_ite ?_ ?_ | refine submitJob_kept ?_ | refine modFabric_kept ?_ | intro _ | split
    | refine Kept.of_fst (by assumption) ?_ | refine Kept.of_snd (by assumption) ?_ | dsimp only)

theorem execGranuleZeroed_kept {kg : Guard} {g : Nat} {stuck : List (Nat × Byte)} {s t : State}
    (hh : execGranuleZeroed g stuck s = .next t) : Kept kg s t := by
  have hs := Kept.refl kg s
  refine done_kept hh (kept_ite ?_ hs)
  exact raiseIf_kept (modGran_kept (kept_sramR (fun h => wf_setAll _ (Mem.wf_clear _ h)) hs))

theorem execHwTrigger_kept {kg : Guard} {n : Nat} {s : State} {kr : State} (hh : execHwTrigger n s = .next kr) : Kept
    kg s kr := by
  have hs := Kept.refl kg s
  unfold execHwTrigger at hh
  first | refine done_kept hh ?_ | refine rated_kept hh ?_
  repeat' (with_reducible first | assumption | refine kept_ite ?_ ?_ | refine fireTrigger_kept ?_ | split | dsimp only)

theorem execDtBoundaryEvent_kept {kg : Guard} {kind : Nat} {s : State} {kr : State}
    (hh : execDtBoundaryEvent kind s = .next kr) : Kept kg s kr := by
  have hs := Kept.refl kg s
  unfold execDtBoundaryEvent at hh
  first | refine done_kept hh ?_ | refine rated_kept hh ?_
  repeat' (with_reducible first
    | assumption | refine kept_ite ?_ ?_ | refine masonEvent_kept ?_ | refine modTime_kept (fun _ => rfl) ?_
    | refine journalSlots_kept ?_ | intro _ | split | dsimp only)

theorem execMasonTimerEvent_kept {kg : Guard} {i : Nat} {s : State} {kr : State}
    (hh : execMasonTimerEvent i s = .next kr) : Kept kg s kr := by
  have hs := Kept.refl kg s
  unfold execMasonTimerEvent at hh
  first | refine done_kept hh ?_ | refine rated_kept hh ?_
  repeat' (with_reducible first
    | assumption | refine kept_ite ?_ ?_ | refine modMason_kept ?_ | refine raise_kept ?_ | intro _ | split
    | refine Kept.of_fst (by assumption) ?_ | refine Kept.of_snd (by assumption) ?_ | dsimp only)

theorem modMCtx_kept {kg : Guard} {sk : State} {i : Nat} {f : MContext → MContext} {s : State} (hs : Kept kg sk s) :
    Kept kg sk (modMCtx i f s) := by
  unfold modMCtx
  repeat' (with_reducible first | assumption | refine modMason_kept ?_ | intro _ | split | dsimp only)

theorem execRecipeStart_kept {kg : Guard} {s : State} {kr : State} (hh : execRecipeStart s = .next kr) : Kept kg s kr
    := by
  have hs := Kept.refl kg s
  unfold execRecipeStart at hh
  first | refine done_kept hh ?_ | refine rated_kept hh ?_
  repeat' (with_reducible first
    | assumption | refine kept_ite ?_ ?_ | refine modMCtx_kept ?_ | refine modMason_kept ?_ | intro _ | split
    | refine Kept.of_fst (by assumption) ?_ | refine Kept.of_snd (by assumption) ?_ | dsimp only)

theorem stepSubmit_kept {kg : Guard} {sk : State} {i : Nat} {tpl : Nat} {q : Nat} {s : State} (hs : Kept kg sk s) :
    Kept kg sk (stepSubmit i tpl q s) := by
  unfold stepSubmit
  repeat' (with_reducible first
    | assumption | refine kept_ite ?_ ?_ | refine modMCtx_kept ?_ | refine submitJob_kept ?_ | intro _ | split
    | dsimp only)

theorem stepWait_kept {kg : Guard} {sk : State} {i : Nat} {s : State} (hs : Kept kg sk s) : Kept kg sk (stepWait i s)
    := by
  unfold stepWait
  repeat' (with_reducible first
    | assumption | refine modMCtx_kept ?_ | intro _ | split | refine Kept.of_fst (by assumption) ?_
    | refine Kept.of_snd (by assumption) ?_ | dsimp only)

theorem stepIfst_kept {kg : Guard} {sk : State} {i : Nat} {status : Nat} {skip : Nat} {s : State} (hs : Kept kg sk s)
    : Kept kg sk (stepIfst i status skip s) := by
  unfold stepIfst
  repeat' (with_reducible first
    | assumption | refine kept_ite ?_ ?_ | refine modMCtx_kept ?_ | intro _ | split | dsimp only)

theorem stepLockTake_kept {kg : Guard} {sk : State} {i : Nat} {k : LockKind} {s : State} (hs : Kept kg sk s) : Kept
    kg sk (stepLockTake i k s) := by
  unfold stepLockTake
  repeat' (with_reducible first
    | assumption | refine kept_ite ?_ ?_ | refine modMason_kept ?_ | refine modMCtx_kept ?_ | intro _ | split
    | dsimp only)

theorem releaseLock_kept {kg : Guard} {sk : State} {i : Nat} {s : State} (hs : Kept kg sk s) : Kept kg sk
    (releaseLock i s) := by
  unfold releaseLock
  repeat' (with_reducible first
    | assumption | refine kept_ite ?_ ?_ | refine modMCtx_kept ?_ | refine modMason_kept ?_
    | refine kept_getD ?_ ?_ | intro _ | split | dsimp only)

theorem stepUnlock_kept {kg : Guard} {sk : State} {i : Nat} {s : State} (hs : Kept kg sk s) : Kept kg sk
    (stepUnlock i s) := by
  unfold stepUnlock
  repeat' (with_reducible first
    | assumption | refine modMCtx_kept ?_ | refine releaseLock_kept ?_ | intro _ | split | dsimp only)

theorem stepSetItem_kept {kg : Guard} {sk : State} {i : Nat} {addr : Nat} {v : Word} {rivals : List (Nat × Nat)}
    {o : WriteObs} {s : State} (hs : Kept kg sk s) : Kept kg sk (stepSetItem i addr v rivals o s) := by
  unfold stepSetItem
  repeat' (with_reducible first
    | assumption | refine writeWord_kept ?_ | refine modMCtx_kept ?_ | intro _ | split | dsimp only)

theorem stepEnd_kept {kg : Guard} {sk : State} {i : Nat} {s : State} (hs : Kept kg sk s) : Kept kg sk (stepEnd i s)
    := by
  unfold stepEnd
  repeat' (with_reducible first
    | assumption | refine kept_ite ?_ ?_ | refine releaseLock_kept ?_ | refine modClock_kept ?_
    | refine modMCtx_kept ?_ | intro _ | split | dsimp only)

theorem runStep_kept {kg : Guard} {sk : State} {i : Nat} {rivals : List (Nat × Nat)} {o : WriteObs} {s : State}
    (hs : Kept kg sk s) : Kept kg sk (runStep i rivals o s) := by
  unfold runStep
  repeat' (with_reducible first
    | assumption | refine stepSubmit_kept ?_ | refine stepWait_kept ?_ | refine stepIfst_kept ?_
    | refine stepLockTake_kept ?_ | refine stepUnlock_kept ?_ | refine stepSetItem_kept ?_
    | refine stepEnd_kept ?_ | split | refine Kept.of_fst (by assumption) ?_
    | refine Kept.of_snd (by assumption) ?_ | dsimp only)

theorem stepIf_kept {kg : Guard} {sk : State} {i : Nat} {is : Option MStep → Bool} {rivals : List (Nat × Nat)}
    {o : WriteObs} {s : State} (hs : Kept kg sk s) : Kept kg sk (stepIf i is rivals o s) := by
  unfold stepIf
  repeat' (with_reducible first | assumption | refine kept_ite ?_ ?_ | refine runStep_kept ?_ | split | dsimp only)

theorem execRecipeSubmit_kept {kg : Guard} {i : Nat} {s : State} {kr : State} (hh : execRecipeSubmit i s = .next kr)
    : Kept kg s kr := by
  have hs := Kept.refl kg s
  unfold execRecipeSubmit at hh
  first | refine done_kept hh ?_ | refine rated_kept hh ?_
  repeat' (with_reducible first
    | assumption | refine stepIf_kept ?_ | intro _ | split | refine Kept.of_fst (by assumption) ?_
    | refine Kept.of_snd (by assumption) ?_ | dsimp only)

theorem execRecipeWait_kept {kg : Guard} {i : Nat} {s : State} {kr : State} (hh : execRecipeWait i s = .next kr) :
    Kept kg s kr := by
  have hs := Kept.refl kg s
  unfold execRecipeWait at hh
  first | refine done_kept hh ?_ | refine rated_kept hh ?_
  repeat' (with_reducible first | assumption | refine stepIf_kept ?_ | dsimp only)

theorem execRecipeIfst_kept {kg : Guard} {i : Nat} {s : State} {kr : State} (hh : execRecipeIfst i s = .next kr) :
    Kept kg s kr := by
  have hs := Kept.refl kg s
  unfold execRecipeIfst at hh
  first | refine done_kept hh ?_ | refine rated_kept hh ?_
  repeat' (with_reducible first
    | assumption | refine stepIf_kept ?_ | intro _ | split | refine Kept.of_fst (by assumption) ?_
    | refine Kept.of_snd (by assumption) ?_ | dsimp only)

theorem execRecipeLock_kept {kg : Guard} {i : Nat} {s : State} {kr : State} (hh : execRecipeLock i s = .next kr) :
    Kept kg s kr := by
  have hs := Kept.refl kg s
  unfold execRecipeLock at hh
  first | refine done_kept hh ?_ | refine rated_kept hh ?_
  repeat' (with_reducible first
    | assumption | refine stepIf_kept ?_ | intro _ | split | refine Kept.of_fst (by assumption) ?_
    | refine Kept.of_snd (by assumption) ?_ | dsimp only)

theorem execRecipeUnlock_kept {kg : Guard} {i : Nat} {s : State} {kr : State} (hh : execRecipeUnlock i s = .next kr)
    : Kept kg s kr := by
  have hs := Kept.refl kg s
  unfold execRecipeUnlock at hh
  first | refine done_kept hh ?_ | refine rated_kept hh ?_
  repeat' (with_reducible first | assumption | refine stepIf_kept ?_ | dsimp only)

theorem execRecipeSetitem_kept {kg : Guard} {i : Nat} {rivals : List (Nat × Nat)} {o : WriteObs} {s : State}
    {kr : State} (hh : execRecipeSetitem i rivals o s = .next kr) : Kept kg s kr := by
  have hs := Kept.refl kg s
  unfold execRecipeSetitem at hh
  first | refine done_kept hh ?_ | refine rated_kept hh ?_
  repeat' (with_reducible first
    | assumption | refine stepIf_kept ?_ | intro _ | split | refine Kept.of_fst (by assumption) ?_
    | refine Kept.of_snd (by assumption) ?_ | dsimp only)

theorem execRecipeEnd_kept {kg : Guard} {i : Nat} {s : State} {kr : State} (hh : execRecipeEnd i s = .next kr) : Kept
    kg s kr := by
  have hs := Kept.refl kg s
  unfold execRecipeEnd at hh
  first | refine done_kept hh ?_ | refine rated_kept hh ?_
  repeat' (with_reducible first | assumption | refine stepIf_kept ?_ | intro _ | split | dsimp only)

theorem endLockHolder_kept {kg : Guard} {sk : State} {s : State} (hs : Kept kg sk s) : Kept kg sk (endLockHolder s)
    := by
  unfold endLockHolder
  repeat' (with_reducible first
    | assumption | refine kept_ite ?_ ?_ | refine modMCtx_kept ?_ | refine releaseLock_kept ?_
    | refine kept_foldl ?_ ?_ | refine kept_foldl1 ?_ ?_ | refine kept_foldl2 ?_ ?_ | intro _ | split | dsimp only)

theorem rollbackRecipeLock_kept {kg : Guard} {sk : State} {st : Status} {s : State} (hs : Kept kg sk s) : Kept kg sk
    (rollbackRecipeLock st s) := by
  unfold rollbackRecipeLock
  repeat' (with_reducible first | assumption | refine stopJobs_kept ?_ | intro _ | split | dsimp only)

theorem cutLocked_kept {k : Guard} {s0 : State} {cut : LockCut} {o : FlashObs} {st after : Status} {s t : State}
    (hh : cutLocked cut o st after s = some t) (hs : Kept k s0 s) : Kept k s0 t := by
  have h1 := reseatCut_kept (st := st) (after := after) (o := o) hs
  have h2 := journalUnlock_kept (journalRollback_kept (o := o) (st := st) hs)
  have h3 := endLockHolder_kept (rollbackRecipeLock_kept (st := st) hs)
  unfold cutLocked at hh
  generalize reseatCut st after o s = x1 at hh h1
  generalize journalUnlock (journalRollback o st s) = x2 at hh h2
  generalize endLockHolder (rollbackRecipeLock st s) = x3 at hh h3
  split at hh
  · split at hh
    · exact Option.some.inj hh ▸ h1
    · split at hh
      · exact Option.some.inj hh ▸ kept_ite h2 h3
      · exact absurd hh (by simp)
  · split at hh
    · exact Option.some.inj hh ▸ engineEnds_kept (auditConsent_kept (unlockAs_kept hs))
    · exact absurd hh (by simp)

theorem execLockOverrun_kept {kg : Guard} {o : FlashObs} {cut : LockCut} {s t : State}
    (hh : execLockOverrun o cut s = .next t) : Kept kg s t := by
  have hs := Kept.refl kg s
  unfold execLockOverrun at hh
  refine done_kept hh (kept_ite hs (kept_ite ?_ ?_))
  · exact raise_kept (abortLoads_kept (modBoot_kept (fun _ => rfl) (fun _ h => h) hs))
  · split
    · exact raise_kept (journalResume_kept (resumeSlots_kept (cutLocked_kept (by assumption) hs)))
    · exact hs

theorem msgRead_kept {kg : Guard} {sk : State} {master : Nat} {role : Nat} {b : List Byte} {s : State}
    (hs : Kept kg sk s) : Kept kg sk (msgRead master role b s).1 := by
  unfold msgRead
  repeat' (with_reducible first | assumption | refine kept_ite ?_ ?_ | refine readFrame_kept ?_ | split | dsimp only)

theorem msgWrite_kept {kg : Guard} {sk : State} {o : WriteObs} {w : WriteCtx} {role : Nat} {b : List Byte}
    {s : State} (hs : Kept kg sk s) : Kept kg sk (msgWrite o w role b s).1 := by
  unfold msgWrite
  repeat' (with_reducible first | assumption | refine kept_ite ?_ ?_ | refine writeFrame_kept ?_ | split | dsimp only)

theorem msgSubmit_kept {kg : Guard} {sk : State} {w : WriteCtx} {role : Nat} {b : List Byte} {s : State}
    (hs : Kept kg sk s) : Kept kg sk (msgSubmit w role b s).1 := by
  unfold msgSubmit
  repeat' (with_reducible first | assumption | refine kept_ite ?_ ?_ | refine writeFrame_kept ?_ | split | dsimp only)

theorem msgPoll_kept {kg : Guard} {sk : State} {master : Nat} {role : Nat} {b : List Byte} {s : State}
    (hs : Kept kg sk s) : Kept kg sk (msgPoll master role b s).1 := by
  unfold msgPoll
  repeat' (with_reducible first | assumption | refine kept_ite ?_ ?_ | refine readFrame_kept ?_ | split | dsimp only)

theorem msgGranCtl_kept {kg : Guard} {sk : State} {w : WriteCtx} {role : Nat} {cmd : Nat} {g : Nat} {s : State}
    (hs : Kept kg sk s) : Kept kg sk (msgGranCtl w role cmd g s).1 := by
  unfold msgGranCtl
  repeat' (with_reducible first
    | assumption | refine kept_ite ?_ ?_ | refine writeFrame_kept ?_ | split
    | refine Kept.of_fst (by assumption) ?_ | refine Kept.of_snd (by assumption) ?_ | dsimp only)

theorem granBytesWrite_kept {k : Guard} {s0 : State} {a : Actor} {x : Nat} {data : List Byte} {s : State}
    (hs : Kept k s0 s) : Kept k s0 (granBytesWrite a x data s) :=
  kept_foldl (kept_sramR (Mem.wf_write _ _ _) hs) fun _ _ h => auditWrite_kept h

theorem msgGranWrite_kept {kg : Guard} {sk : State} {a : Actor} {g : Nat} {off : Nat} {data : List Byte} {s : State}
    (hs : Kept kg sk s) : Kept kg sk (msgGranWrite a g off data s).1 := by
  unfold msgGranWrite
  repeat' (with_reducible first
    | assumption | refine kept_ite ?_ ?_ | refine granRefused_kept ?_ | refine granBytesWrite_kept ?_ | intro _
    | split | dsimp only)

theorem msgGranule_kept {kg : Guard} {sk : State} {w : WriteCtx} {role : Nat} {b : List Byte} {s : State}
    (hs : Kept kg sk s) : Kept kg sk (msgGranule w role b s).1 := by
  unfold msgGranule
  repeat' (with_reducible first
    | assumption | refine kept_ite ?_ ?_ | refine msgGranCtl_kept ?_ | refine msgGranWrite_kept ?_ | split
    | dsimp only)

theorem msgPage_kept {kg : Guard} {sk : State} {master : Nat} {role : Nat} {b : List Byte} {s : State}
    (hs : Kept kg sk s) : Kept kg sk (msgPage master role b s).1 := by
  unfold msgPage
  repeat' (with_reducible first | assumption | refine kept_ite ?_ ?_ | split | dsimp only)

theorem msgAuth_kept {kg : Guard} {sk : State} {master : Nat} {fi : Bool} {b : List Byte} {s : State}
    (hs : Kept kg sk s) : Kept kg sk (msgAuth master fi b s).1 := by
  unfold msgAuth
  repeat' (with_reducible first
    | assumption | refine kept_ite ?_ ?_ | refine authBegin_kept ?_ | refine authFinish_kept ?_
    | refine sessionEnd_kept ?_ | intro _ | split | refine Kept.of_fst (by assumption) ?_
    | refine Kept.of_snd (by assumption) ?_ | dsimp only)

theorem msgRate_kept {kg : Guard} {sk : State} {b : List Byte} {s : State} (hs : Kept kg sk s) : Kept kg sk
    (msgRate b s).1 := by
  unfold msgRate
  repeat' (with_reducible first
    | assumption | refine kept_ite ?_ ?_ | refine modPorts_kept ?_ | intro _ | split | dsimp only)

theorem serveMessage_kept {kg : Guard} {sk : State} {o : WriteObs} {w : WriteCtx} {role : Nat} {radio : Bool}
    {op : Nat} {b : List Byte} {s : State} (hs : Kept kg sk s) : Kept kg sk (serveMessage o w role radio op b s).1 :=
    by
  unfold serveMessage
  repeat' (with_reducible first
    | assumption | refine kept_ite ?_ ?_ | refine msgRead_kept ?_ | refine msgWrite_kept ?_
    | refine msgSubmit_kept ?_ | refine msgPoll_kept ?_ | refine msgGranule_kept ?_ | refine msgPage_kept ?_
    | refine msgAuth_kept ?_ | refine msgRate_kept ?_ | split | refine Kept.of_fst (by assumption) ?_
    | refine Kept.of_snd (by assumption) ?_ | dsimp only)

theorem spAnswer_kept {kg : Guard} {sk : State} {st : PortStatus} {payload : List Byte} {s : State}
    (hs : Kept kg sk s) : Kept kg sk (spAnswer st payload s) := by
  unfold spAnswer
  repeat' (with_reducible first | assumption | refine modPorts_kept ?_ | intro _ | split | dsimp only)

theorem spOpen_kept {kg : Guard} {sk : State} {s : State} (hs : Kept kg sk s) : Kept kg sk (spOpen s) := by
  unfold spOpen
  repeat' (with_reducible first | assumption | refine modPorts_kept ?_ | intro _ | split | dsimp only)

theorem spClose_kept {kg : Guard} {sk : State} {s : State} (hs : Kept kg sk s) : Kept kg sk (spClose s) := by
  unfold spClose
  repeat' (with_reducible first | assumption | refine modPorts_kept ?_ | intro _ | split | dsimp only)

theorem spCheckFailed_kept {kg : Guard} {sk : State} {access : Nat} {addr : Nat} {payload : List Byte} {s : State}
    (hs : Kept kg sk s) : Kept kg sk (spCheckFailed access addr payload s) := by
  unfold spCheckFailed
  repeat' (with_reducible first
    | assumption | refine spAnswer_kept ?_ | refine raiseBy_kept ?_ | refine modPorts_kept ?_ | intro _ | split
    | dsimp only)

theorem spFrameError_kept {kg : Guard} {sk : State} {access : Nat} {addr : Nat} {s : State} (hs : Kept kg sk s) :
    Kept kg sk (spFrameError access addr s) := by
  unfold spFrameError
  repeat' (with_reducible first
    | assumption | refine raiseBy_kept ?_ | refine modPorts_kept ?_ | intro _ | split | dsimp only)

theorem readWordsBut_kept {kg : Guard} {sk : State} {popped : List Nat} {role : Nat} {addrs : List Nat} {s : State}
    (hs : Kept kg sk s) : Kept kg sk (readWordsBut popped role addrs s).1 := by
  unfold readWordsBut
  repeat' (with_reducible first
    | assumption | refine kept_ite ?_ ?_ | refine readWord_kept ?_ | refine kept_foldl ?_ ?_
    | refine kept_foldl1 ?_ ?_ | refine kept_foldl2 ?_ ?_ | intro _ | split | dsimp only)

theorem spServeRead_kept {kg : Guard} {sk : State} {addr : Nat} {n : Nat} {popped : List Nat} {s : State}
    (hs : Kept kg sk s) : Kept kg sk (spServeRead addr n popped s) := by
  unfold spServeRead
  repeat' (with_reducible first
    | assumption | refine portRequest_kept ?_ | refine spAnswer_kept ?_ | refine readWordsBut_kept ?_ | intro _
    | split | refine Kept.of_fst (by assumption) ?_ | refine Kept.of_snd (by assumption) ?_ | dsimp only)

theorem execSpRead_kept {kg : Guard} {b : List Byte} {ready : Bool} {popped : List Nat} {s : State} {kr : State}
    (hh : execSpRead b ready popped s = .next kr) : Kept kg s kr := by
  have hs := Kept.refl kg s
  unfold execSpRead at hh
  first | refine done_kept hh ?_ | refine rated_kept hh ?_
  repeat' (with_reducible first
    | assumption | refine kept_ite ?_ ?_ | refine spOpen_kept ?_ | refine spClose_kept ?_
    | refine spFrameError_kept ?_ | refine spCheckFailed_kept ?_ | refine spAnswer_kept ?_
    | refine spServeRead_kept ?_ | refine kept_getD ?_ ?_ | split | dsimp only)

theorem spServeWrite_kept {kg : Guard} {sk : State} {o : WriteObs} {rivals : List (Nat × Nat)} {addr : Nat}
    {vs : List Word} {ready : Bool} {s : State} (hs : Kept kg sk s) : Kept kg sk
    (spServeWrite o rivals addr vs ready s) := by
  unfold spServeWrite
  repeat' (with_reducible first
    | assumption | refine kept_ite ?_ ?_ | refine writeFrame_kept ?_ | refine portRequest_kept ?_
    | refine modPorts_kept ?_ | refine spAnswer_kept ?_ | intro _ | split | dsimp only)

theorem execSpWrite_kept {kg : Guard} {b : List Byte} {rivals : List (Nat × Nat)} {o : WriteObs} {ready : Bool}
    {s : State} {kr : State} (hh : execSpWrite b rivals o ready s = .next kr) : Kept kg s kr := by
  have hs := Kept.refl kg s
  unfold execSpWrite at hh
  first | refine done_kept hh ?_ | refine rated_kept hh ?_
  repeat' (with_reducible first
    | assumption | refine kept_ite ?_ ?_ | refine spOpen_kept ?_ | refine spClose_kept ?_
    | refine spFrameError_kept ?_ | refine spCheckFailed_kept ?_ | refine spServeWrite_kept ?_
    | refine kept_getD ?_ ?_ | split | dsimp only)

theorem execSpFrameError_kept {kg : Guard} {b : List Byte} {s : State} {kr : State}
    (hh : execSpFrameError b s = .next kr) : Kept kg s kr := by
  have hs := Kept.refl kg s
  unfold execSpFrameError at hh
  first | refine done_kept hh ?_ | refine rated_kept hh ?_
  repeat' (with_reducible first
    | assumption | refine kept_ite ?_ ?_ | refine spClose_kept ?_ | refine spFrameError_kept ?_
    | refine spOpen_kept ?_ | split | dsimp only)

theorem optBadFrame_kept {kg : Guard} {sk : State} {s : State} (hs : Kept kg sk s) : Kept kg sk (optBadFrame s) := by
  unfold optBadFrame
  repeat' (with_reducible first
    | assumption | refine raiseBy_kept ?_ | refine modPorts_kept ?_ | intro _ | split | dsimp only)

theorem optBadTag_kept {kg : Guard} {sk : State} {s : State} (hs : Kept kg sk s) : Kept kg sk (optBadTag s) := by
  unfold optBadTag
  repeat' (with_reducible first
    | assumption | refine raiseBy_kept ?_ | refine modPorts_kept ?_ | intro _ | split | dsimp only)

theorem optReply_kept {kg : Guard} {sk : State} {m : Msg} {sec : Option (Nat × List Byte)} {a : MsgAnswer}
    {s : State} (hs : Kept kg sk s) : Kept kg sk (optReply m sec a s) := by
  unfold optReply
  repeat' (with_reducible first
    | assumption | refine kept_ite ?_ ?_ | refine modPorts_kept ?_ | intro _ | split | dsimp only)

theorem optServe_kept {kg : Guard} {sk : State} {o : WriteObs} {rivals : List (Nat × Nat)} {role : Nat} {m : Msg}
    {sec : Option (Nat × List Byte)} {s : State} (hs : Kept kg sk s) : Kept kg sk (optServe o rivals role m sec s) :=
    by
  unfold optServe
  repeat' (with_reducible first
    | assumption | refine kept_ite ?_ ?_ | refine serveMessage_kept ?_ | refine modPorts_kept ?_
    | refine optReply_kept ?_ | intro _ | split | dsimp only)

theorem optRequest_kept {kg : Guard} {sk : State} {o : WriteObs} {rivals : List (Nat × Nat)} {m : Msg} {s : State}
    (hs : Kept kg sk s) : Kept kg sk (optRequest o rivals m s) := by
  unfold optRequest
  repeat' (with_reducible first
    | assumption | refine kept_ite ?_ ?_ | refine optServe_kept ?_ | refine optBadTag_kept ?_
    | refine touchSession_kept ?_ | refine modPorts_kept ?_ | intro _ | split
    | refine Kept.of_fst (by assumption) ?_ | refine Kept.of_snd (by assumption) ?_ | dsimp only)

theorem optTake_kept {kg : Guard} {sk : State} {row : Msg → Bool} {f : List Byte} {rivals : List (Nat × Nat)}
    {o : WriteObs} {s : State} (hs : Kept kg sk s) : Kept kg sk (optTake row f rivals o s) := by
  unfold optTake
  repeat' (with_reducible first
    | assumption | refine kept_ite ?_ ?_ | refine optBadFrame_kept ?_ | refine modPorts_kept ?_
    | refine optReply_kept ?_ | refine optRequest_kept ?_ | refine kept_getD ?_ ?_ | intro _ | split
    | refine Kept.of_fst (by assumption) ?_ | refine Kept.of_snd (by assumption) ?_ | dsimp only)

theorem execMsgIdent_kept {kg : Guard} {f : List Byte} {s : State} {kr : State} (hh : execMsgIdent f s = .next kr) :
    Kept kg s kr := by
  have hs := Kept.refl kg s
  unfold execMsgIdent at hh
  first | refine done_kept hh ?_ | refine rated_kept hh ?_
  repeat' (with_reducible first | assumption | refine optTake_kept ?_ | dsimp only)

theorem execMsgRead_kept {kg : Guard} {f : List Byte} {s : State} {kr : State} (hh : execMsgRead f s = .next kr) :
    Kept kg s kr := by
  have hs := Kept.refl kg s
  unfold execMsgRead at hh
  first | refine done_kept hh ?_ | refine rated_kept hh ?_
  repeat' (with_reducible first | assumption | refine optTake_kept ?_ | dsimp only)

theorem execMsgWrite_kept {kg : Guard} {f : List Byte} {rivals : List (Nat × Nat)} {o : WriteObs} {s : State}
    {kr : State} (hh : execMsgWrite f rivals o s = .next kr) : Kept kg s kr := by
  have hs := Kept.refl kg s
  unfold execMsgWrite at hh
  first | refine done_kept hh ?_ | refine rated_kept hh ?_
  repeat' (with_reducible first | assumption | refine optTake_kept ?_ | dsimp only)

theorem execMsgSubmit_kept {kg : Guard} {f : List Byte} {s : State} {kr : State} (hh : execMsgSubmit f s = .next kr)
    : Kept kg s kr := by
  have hs := Kept.refl kg s
  unfold execMsgSubmit at hh
  first | refine done_kept hh ?_ | refine rated_kept hh ?_
  repeat' (with_reducible first | assumption | refine optTake_kept ?_ | dsimp only)

theorem execMsgPoll_kept {kg : Guard} {f : List Byte} {s : State} {kr : State} (hh : execMsgPoll f s = .next kr) :
    Kept kg s kr := by
  have hs := Kept.refl kg s
  unfold execMsgPoll at hh
  first | refine done_kept hh ?_ | refine rated_kept hh ?_
  repeat' (with_reducible first | assumption | refine optTake_kept ?_ | dsimp only)

theorem execMsgGranuleAllocC_kept {kg : Guard} {f : List Byte} {s : State} {kr : State}
    (hh : execMsgGranuleAllocC f s = .next kr) : Kept kg s kr := by
  have hs := Kept.refl kg s
  unfold execMsgGranuleAllocC at hh
  first | refine done_kept hh ?_ | refine rated_kept hh ?_
  repeat' (with_reducible first | assumption | refine optTake_kept ?_ | dsimp only)

theorem execMsgGranuleAllocH_kept {kg : Guard} {f : List Byte} {s : State} {kr : State}
    (hh : execMsgGranuleAllocH f s = .next kr) : Kept kg s kr := by
  have hs := Kept.refl kg s
  unfold execMsgGranuleAllocH at hh
  first | refine done_kept hh ?_ | refine rated_kept hh ?_
  repeat' (with_reducible first | assumption | refine optTake_kept ?_ | dsimp only)

theorem execMsgGranuleFree_kept {kg : Guard} {f : List Byte} {s : State} {kr : State}
    (hh : execMsgGranuleFree f s = .next kr) : Kept kg s kr := by
  have hs := Kept.refl kg s
  unfold execMsgGranuleFree at hh
  first | refine done_kept hh ?_ | refine rated_kept hh ?_
  repeat' (with_reducible first | assumption | refine optTake_kept ?_ | dsimp only)

theorem execMsgGranuleWrite_kept {kg : Guard} {f : List Byte} {s : State} {kr : State}
    (hh : execMsgGranuleWrite f s = .next kr) : Kept kg s kr := by
  have hs := Kept.refl kg s
  unfold execMsgGranuleWrite at hh
  first | refine done_kept hh ?_ | refine rated_kept hh ?_
  repeat' (with_reducible first | assumption | refine optTake_kept ?_ | dsimp only)

theorem execMsgPage_kept {kg : Guard} {f : List Byte} {s : State} {kr : State} (hh : execMsgPage f s = .next kr) :
    Kept kg s kr := by
  have hs := Kept.refl kg s
  unfold execMsgPage at hh
  first | refine done_kept hh ?_ | refine rated_kept hh ?_
  repeat' (with_reducible first | assumption | refine optTake_kept ?_ | dsimp only)

theorem execMsgAuthBegin_kept {kg : Guard} {f : List Byte} {s : State} {kr : State}
    (hh : execMsgAuthBegin f s = .next kr) : Kept kg s kr := by
  have hs := Kept.refl kg s
  unfold execMsgAuthBegin at hh
  first | refine done_kept hh ?_ | refine rated_kept hh ?_
  repeat' (with_reducible first | assumption | refine optTake_kept ?_ | dsimp only)

theorem execMsgAuthFinish_kept {kg : Guard} {f : List Byte} {s : State} {kr : State}
    (hh : execMsgAuthFinish f s = .next kr) : Kept kg s kr := by
  have hs := Kept.refl kg s
  unfold execMsgAuthFinish at hh
  first | refine done_kept hh ?_ | refine rated_kept hh ?_
  repeat' (with_reducible first | assumption | refine optTake_kept ?_ | dsimp only)

theorem execMsgAuthEnd_kept {kg : Guard} {f : List Byte} {s : State} {kr : State}
    (hh : execMsgAuthEnd f s = .next kr) : Kept kg s kr := by
  have hs := Kept.refl kg s
  unfold execMsgAuthEnd at hh
  first | refine done_kept hh ?_ | refine rated_kept hh ?_
  repeat' (with_reducible first | assumption | refine optTake_kept ?_ | dsimp only)

theorem execMsgRate_kept {kg : Guard} {f : List Byte} {s : State} {kr : State} (hh : execMsgRate f s = .next kr) :
    Kept kg s kr := by
  have hs := Kept.refl kg s
  unfold execMsgRate at hh
  first | refine done_kept hh ?_ | refine rated_kept hh ?_
  repeat' (with_reducible first | assumption | refine optTake_kept ?_ | dsimp only)

theorem execOptCharGapTimeout_kept {kg : Guard} {s : State} {kr : State} (hh : execOptCharGapTimeout s = .next kr) :
    Kept kg s kr := by
  have hs := Kept.refl kg s
  unfold execOptCharGapTimeout at hh
  first | refine done_kept hh ?_ | refine rated_kept hh ?_
  repeat' (with_reducible first | assumption | refine kept_ite ?_ ?_ | refine optBadFrame_kept ?_ | split | dsimp only)

theorem execOptReply_kept {kg : Guard} {s : State} {kr : State} (hh : execOptReply s = .next kr) : Kept kg s kr := by
  have hs := Kept.refl kg s
  unfold execOptReply at hh
  first | refine done_kept hh ?_ | refine rated_kept hh ?_
  repeat' (with_reducible first
    | assumption | refine kept_ite ?_ ?_ | refine modPorts_kept ?_ | intro _ | split
    | refine Kept.of_fst (by assumption) ?_ | refine Kept.of_snd (by assumption) ?_ | dsimp only)

theorem execOptRateSwitch_kept {kg : Guard} {s : State} {kr : State} (hh : execOptRateSwitch s = .next kr) : Kept kg
    s kr := by
  have hs := Kept.refl kg s
  unfold execOptRateSwitch at hh
  first | refine done_kept hh ?_ | refine rated_kept hh ?_
  repeat' (with_reducible first
    | assumption | refine kept_ite ?_ ?_ | refine modPorts_kept ?_ | intro _ | split
    | refine Kept.of_fst (by assumption) ?_ | refine Kept.of_snd (by assumption) ?_ | dsimp only)

theorem execOptWakeDetect_kept {kg : Guard} {s : State} {kr : State} (hh : execOptWakeDetect s = .next kr) : Kept kg
    s kr := by
  have hs := Kept.refl kg s
  unfold execOptWakeDetect at hh
  first | refine done_kept hh ?_ | refine rated_kept hh ?_
  repeat' (with_reducible first
    | assumption | refine kept_ite ?_ ?_ | refine modPorts_kept ?_ | intro _ | split | dsimp only)

theorem optSleep_kept {kg : Guard} {sk : State} {s : State} (hs : Kept kg sk s) : Kept kg sk (optSleep s) := by
  unfold optSleep
  repeat' (with_reducible first
    | assumption | refine endSession_kept ?_ | refine modPorts_kept ?_ | intro _ | split | dsimp only)

theorem execOptWakeListenTimeout_kept {kg : Guard} {s : State} {kr : State}
    (hh : execOptWakeListenTimeout s = .next kr) : Kept kg s kr := by
  have hs := Kept.refl kg s
  unfold execOptWakeListenTimeout at hh
  first | refine done_kept hh ?_ | refine rated_kept hh ?_
  repeat' (with_reducible first | assumption | refine kept_ite ?_ ?_ | refine optSleep_kept ?_ | split | dsimp only)

theorem execOptIdleTimeout_kept {kg : Guard} {s : State} {kr : State} (hh : execOptIdleTimeout s = .next kr) : Kept
    kg s kr := by
  have hs := Kept.refl kg s
  unfold execOptIdleTimeout at hh
  first | refine done_kept hh ?_ | refine rated_kept hh ?_
  repeat' (with_reducible first | assumption | refine kept_ite ?_ ?_ | refine optSleep_kept ?_ | split | dsimp only)

theorem dbgReply_kept {kg : Guard} {sk : State} {p : List Byte} {c : DbgCode} {s : State} (hs : Kept kg sk s) : Kept
    kg sk (dbgReply p c s) := by
  unfold dbgReply
  repeat' (with_reducible first | assumption | refine modProbe_kept ?_ | intro _ | split | dsimp only)

theorem dbgData_kept {kg : Guard} {sk : State} {p : List Byte} {v : Nat} {s : State} (hs : Kept kg sk s) : Kept kg sk
    (dbgData p v s) := by
  unfold dbgData
  repeat' (with_reducible first | assumption | refine modProbe_kept ?_ | intro _ | split | dsimp only)

theorem dbgLast_kept {kg : Guard} {sk : State} {p : List Byte} {st : Status} {winner : Nat} {s : State}
    (hs : Kept kg sk s) : Kept kg sk (dbgLast p st winner s) := by
  unfold dbgLast
  repeat' (with_reducible first | assumption | refine modProbe_kept ?_ | intro _ | split | dsimp only)

theorem dbgProtocolError_kept {kg : Guard} {sk : State} {s : State} (hs : Kept kg sk s) : Kept kg sk
    (dbgProtocolError s) := by
  unfold dbgProtocolError
  repeat' (with_reducible first
    | assumption | refine raiseBy_kept ?_ | refine modProbe_kept ?_ | intro _ | split | dsimp only)

theorem dbgServe_kept {k : Guard} {s0 : State} {row : Bool} {p : List Byte} {staged : Bool} {f : State → State}
    {s : State} (hf : ∀ t, Kept k s0 t → Kept k s0 (f t)) (hs : Kept k s0 s) :
    Kept k s0 (dbgServe row p staged f s) := by
  unfold dbgServe
  repeat' (with_reducible first
    | assumption
    | refine kept_ite ?_ ?_
    | refine modProbe_kept ?_
    | refine dbgReply_kept ?_
    | refine dbgProtocolError_kept ?_
    | refine dbgLast_kept ?_
    | refine portRequest_kept ?_
    | refine hf _ ?_
    | split)

theorem execDbgPeek_kept {kg : Guard} {p : List Byte} {staged : Bool} {s : State} {kr : State}
    (hh : execDbgPeek p staged s = .next kr) : Kept kg s kr := by
  have hs := Kept.refl kg s
  unfold execDbgPeek at hh
  first | refine done_kept hh ?_ | refine rated_kept hh ?_
  repeat' (with_reducible first
    | assumption | refine dbgServe_kept ?_ ?_ | refine dbgData_kept ?_ | intro _ | split | dsimp only)

theorem dbgPokeData_kept {kg : Guard} {sk : State} {o : WriteObs} {rivals : List (Nat × Nat)} {p : List Byte}
    {data : List Byte} {s : State} (hs : Kept kg sk s) : Kept kg sk (dbgPokeData o rivals p data s) := by
  unfold dbgPokeData
  repeat' (with_reducible first
    | assumption | refine kept_ite ?_ ?_ | refine modProbe_kept ?_ | refine dbgLast_kept ?_
    | refine dbgProtocolError_kept ?_ | refine writeWord_kept ?_ | refine kept_getD ?_ ?_ | intro _ | split
    | dsimp only)

theorem execDbgPoke_kept {kg : Guard} {p : List Byte} {data : List Byte} {rivals : List (Nat × Nat)} {o : WriteObs}
    {s : State} {kr : State} (hh : execDbgPoke p data rivals o s = .next kr) : Kept kg s kr := by
  have hs := Kept.refl kg s
  unfold execDbgPoke at hh
  first | refine done_kept hh ?_ | refine rated_kept hh ?_
  repeat' (with_reducible first
    | assumption | refine dbgServe_kept ?_ ?_ | refine dbgPokeData_kept ?_ | intro _ | dsimp only)

theorem execDbgPop_kept {kg : Guard} {p : List Byte} {staged : Bool} {contended : Bool} {s : State} {kr : State}
    (hh : execDbgPop p staged contended s = .next kr) : Kept kg s kr := by
  have hs := Kept.refl kg s
  unfold execDbgPop at hh
  first | refine done_kept hh ?_ | refine rated_kept hh ?_
  repeat' (with_reducible first
    | assumption | refine kept_ite ?_ ?_ | refine dbgServe_kept ?_ ?_ | refine dbgData_kept ?_
    | refine dbgLast_kept ?_ | refine rsEffect_kept ?_ | intro _ | split | dsimp only)

theorem execDbgStatus_kept {kg : Guard} {p : List Byte} {s : State} {kr : State} (hh : execDbgStatus p s = .next kr)
    : Kept kg s kr := by
  have hs := Kept.refl kg s
  unfold execDbgStatus at hh
  first | refine done_kept hh ?_ | refine rated_kept hh ?_
  repeat' (with_reducible first
    | assumption | refine dbgServe_kept ?_ ?_ | refine dbgData_kept ?_ | intro _ | split | dsimp only)

theorem dbgControl_kept {kg : Guard} {sk : State} {p : List Byte} {st : Status} {s : State} (hs : Kept kg sk s) :
    Kept kg sk (dbgControl p st s) := by
  unfold dbgControl
  repeat' (with_reducible first
    | assumption | refine dbgReply_kept ?_ | refine dbgLast_kept ?_ | refine audit_kept ?_ | dsimp only)

theorem haltCore_kept {kg : Guard} {sk : State} {s : State} (hs : Kept kg sk s) : Kept kg sk (haltCore s) := by
  unfold haltCore
  repeat' (with_reducible first
    | assumption | refine modClock_kept ?_ | refine modProbe_kept ?_ | refine modMason_kept ?_ | intro _ | split
    | dsimp only)

theorem haltPlain_kept {kg : Guard} {sk : State} {s : State} (hs : Kept kg sk s) : Kept kg sk (haltPlain s) := by
  unfold haltPlain
  repeat' (with_reducible first
    | assumption | refine kept_ite ?_ ?_ | refine modProbe_kept ?_ | refine haltCore_kept ?_ | intro _ | split
    | dsimp only)

theorem execDbgHalt_kept {kg : Guard} {p : List Byte} {s : State} {kr : State} (hh : execDbgHalt p s = .next kr) :
    Kept kg s kr := by
  have hs := Kept.refl kg s
  unfold execDbgHalt at hh
  first | refine done_kept hh ?_ | refine rated_kept hh ?_
  repeat' (with_reducible first
    | assumption | refine dbgServe_kept ?_ ?_ | refine dbgControl_kept ?_ | refine haltPlain_kept ?_ | intro _
    | split | dsimp only)

theorem haltForced_kept {k : Guard} {s0 : State} {cut : LockCut} {o : FlashObs} {s : State}
    (hs : Kept k s0 s) : Kept k s0 (haltForced cut o s) := by
  unfold haltForced
  split
  · rename_i t ht
    split at ht
    · exact absurd ht (by simp)
    · exact haltCore_kept (raise_kept (modProbe_kept (cutLocked_kept ht hs)))
  · exact haltPlain_kept hs

theorem execDbgHaltForced_kept {kg : Guard} {p : List Byte} {cut : LockCut} {o : FlashObs} {s : State} {kr : State}
    (hh : execDbgHaltForced p cut o s = .next kr) : Kept kg s kr := by
  have hs := Kept.refl kg s
  unfold execDbgHaltForced at hh
  first | refine done_kept hh ?_ | refine rated_kept hh ?_
  repeat' (with_reducible first
    | assumption | refine dbgServe_kept ?_ ?_ | refine dbgControl_kept ?_ | refine haltForced_kept ?_ | intro _
    | split | dsimp only)

theorem execHaltPendingEffect_kept {kg : Guard} {s : State} {kr : State} (hh : execHaltPendingEffect s = .next kr) :
    Kept kg s kr := by
  have hs := Kept.refl kg s
  unfold execHaltPendingEffect at hh
  first | refine done_kept hh ?_ | refine rated_kept hh ?_
  repeat' (with_reducible first | assumption | refine kept_ite ?_ ?_ | refine haltCore_kept ?_ | split | dsimp only)

theorem execDbgResume_kept {kg : Guard} {p : List Byte} {s : State} {kr : State} (hh : execDbgResume p s = .next kr)
    : Kept kg s kr := by
  have hs := Kept.refl kg s
  unfold execDbgResume at hh
  first | refine done_kept hh ?_ | refine rated_kept hh ?_
  repeat' (with_reducible first
    | assumption | refine kept_ite ?_ ?_ | refine dbgServe_kept ?_ ?_ | refine dbgControl_kept ?_
    | refine resumeCore_kept ?_ | intro _ | split | dsimp only)

theorem stepContext_kept {kg : Guard} {sk : State} {i : Nat} {rivals : List (Nat × Nat)} {o : WriteObs} {s : State}
    (hs : Kept kg sk s) : Kept kg sk (stepContext i rivals o s).1 := by
  unfold stepContext
  repeat' (with_reducible first
    | assumption | refine kept_ite ?_ ?_ | refine stepWait_kept ?_ | refine stepLockTake_kept ?_
    | refine modMason_kept ?_ | refine runStep_kept ?_ | intro _ | split | refine Kept.of_fst (by assumption) ?_
    | refine Kept.of_snd (by assumption) ?_ | dsimp only)

theorem execDbgStep_kept {kg : Guard} {p : List Byte} {rivals : List (Nat × Nat)} {o : WriteObs} {s : State}
    {kr : State} (hh : execDbgStep p rivals o s = .next kr) : Kept kg s kr := by
  have hs := Kept.refl kg s
  unfold execDbgStep at hh
  first | refine done_kept hh ?_ | refine rated_kept hh ?_
  repeat' (with_reducible first
    | assumption | refine dbgServe_kept ?_ ?_ | refine stepContext_kept ?_ | refine dbgControl_kept ?_ | intro _
    | split | dsimp only)

theorem execDbgFreeze_kept {kg : Guard} {p : List Byte} {s : State} {kr : State} (hh : execDbgFreeze p s = .next kr)
    : Kept kg s kr := by
  have hs := Kept.refl kg s
  unfold execDbgFreeze at hh
  first | refine done_kept hh ?_ | refine rated_kept hh ?_
  repeat' (with_reducible first
    | assumption | refine dbgServe_kept ?_ ?_ | refine dbgControl_kept ?_ | refine modFabric_kept ?_ | intro _
    | split | dsimp only)

theorem execDbgThaw_kept {kg : Guard} {p : List Byte} {s : State} {kr : State} (hh : execDbgThaw p s = .next kr) :
    Kept kg s kr := by
  have hs := Kept.refl kg s
  unfold execDbgThaw at hh
  first | refine done_kept hh ?_ | refine rated_kept hh ?_
  repeat' (with_reducible first
    | assumption | refine dbgServe_kept ?_ ?_ | refine dbgControl_kept ?_ | refine modFabric_kept ?_ | intro _
    | split | dsimp only)

theorem execFreezeMaxExpiry_kept {kg : Guard} {s : State} {kr : State} (hh : execFreezeMaxExpiry s = .next kr) : Kept
    kg s kr := by
  have hs := Kept.refl kg s
  unfold execFreezeMaxExpiry at hh
  first | refine done_kept hh ?_ | refine rated_kept hh ?_
  repeat' (with_reducible first
    | assumption | refine kept_ite ?_ ?_ | refine modFabric_kept ?_ | intro _ | split
    | refine Kept.of_fst (by assumption) ?_ | refine Kept.of_snd (by assumption) ?_ | dsimp only)

theorem execDbgIdleReset_kept {kg : Guard} {s : State} {kr : State} (hh : execDbgIdleReset s = .next kr) : Kept kg s
    kr := by
  have hs := Kept.refl kg s
  unfold execDbgIdleReset at hh
  first | refine done_kept hh ?_ | refine rated_kept hh ?_
  repeat' (with_reducible first | assumption | refine modProbe_kept ?_ | intro _ | split | dsimp only)

theorem takeTxc_kept {kg : Guard} {sk : State} {slot : Nat} {s : State} (hs : Kept kg sk s) : Kept kg sk
    (takeTxc slot s) := by
  unfold takeTxc
  repeat' (with_reducible first
    | assumption | refine kept_ite ?_ ?_ | refine modRadio_kept ?_ | refine setLevel_kept ?_ | intro _ | split
    | dsimp only)

theorem telegramOf_kept {k : Guard} {s0 : State} {tpl : Nat} {s : State} (hs : Kept k s0 s) :
    Kept k s0 (telegramOf tpl s).2.2 := takeTxc_kept hs

theorem buildNow_kept {kg : Guard} {sk : State} {id : Nat} {tpl : Nat} {s : State} (hs : Kept kg sk s) : Kept kg sk
    (buildNow id tpl s) := by
  unfold buildNow
  repeat' (with_reducible first
    | assumption | refine telegramOf_kept ?_ | refine engineEnds_kept ?_ | refine modJob_kept ?_
    | refine modRadio_kept ?_ | refine kept_id ?_ | intro _ | split | dsimp only)

theorem probeNow_kept {kg : Guard} {sk : State} {id : Nat} {tpl : Nat} {s : State} (hs : Kept kg sk s) : Kept kg sk
    (probeNow id tpl s) := by
  unfold probeNow
  repeat' (with_reducible first
    | assumption | refine telegramOf_kept ?_ | refine enterCtx_kept ?_ | refine kept_id ?_ | dsimp only)

theorem buildFor_kept {k : Guard} {s0 : State} {id tpl : Nat} {now : State → State} {s : State}
    (hn : ∀ t, Kept k s0 t → Kept k s0 (now t)) (hs : Kept k s0 s) : Kept k s0 (buildFor id tpl now s) := by
  unfold buildFor
  refine kept_ite (engineEnds_kept (raise_kept hs)) (kept_ite ?_ (kept_ite (hn _ hs) (reserve_kept (modRadio_kept hs))))
  exact kept_ite (hn _ (setLevel_kept hs)) (engineEnds_kept (setLevel_kept hs))

theorem wmbBuildJob_kept {kg : Guard} {sk : State} {j : Job} {s : State} (hs : Kept kg sk s) : Kept kg sk
    (wmbBuildJob j s) := by
  unfold wmbBuildJob
  repeat' (with_reducible first
    | assumption | refine kept_ite ?_ ?_ | refine engineEnds_kept ?_ | refine buildFor_kept ?_ ?_
    | refine buildNow_kept ?_ | refine kept_id ?_ | intro _ | split | dsimp only)

theorem execWmbBuild_kept {kg : Guard} {tag : Nat} {s : State} {kr : State} (hh : execWmbBuild tag s = .next kr) :
    Kept kg s kr := by
  have hs := Kept.refl kg s
  unfold execWmbBuild at hh
  first | refine done_kept hh ?_ | refine rated_kept hh ?_
  repeat' (with_reducible first
    | assumption | refine onJob_kept ?_ ?_ | refine wmbBuildJob_kept ?_ | intro _ | dsimp only)

theorem watchProbeJob_kept {kg : Guard} {sk : State} {j : Job} {s : State} (hs : Kept kg sk s) : Kept kg sk
    (watchProbeJob j s) := by
  unfold watchProbeJob
  repeat' (with_reducible first
    | assumption | refine kept_ite ?_ ?_ | refine engineEnds_kept ?_ | refine buildFor_kept ?_ ?_
    | refine probeNow_kept ?_ | refine kept_id ?_ | intro _ | split | dsimp only)

theorem execWatchProbe_kept {kg : Guard} {tag : Nat} {s : State} {kr : State} (hh : execWatchProbe tag s = .next kr)
    : Kept kg s kr := by
  have hs := Kept.refl kg s
  unfold execWatchProbe at hh
  first | refine done_kept hh ?_ | refine rated_kept hh ?_
  repeat' (with_reducible first
    | assumption | refine onJob_kept ?_ ?_ | refine watchProbeJob_kept ?_ | intro _ | dsimp only)

theorem execCtrReserveCommit_kept {kg : Guard} {s : State} {kr : State} (hh : execCtrReserveCommit s = .next kr) :
    Kept kg s kr := by
  have hs := Kept.refl kg s
  unfold execCtrReserveCommit at hh
  first | refine done_kept hh ?_ | refine rated_kept hh ?_
  repeat' (with_reducible first
    | assumption | refine kept_ite ?_ ?_ | refine modRadio_kept ?_ | refine probeNow_kept ?_
    | refine buildNow_kept ?_ | refine kept_id ?_ | intro _ | split | refine Kept.of_fst (by assumption) ?_
    | refine Kept.of_snd (by assumption) ?_ | dsimp only)

theorem keepAnswer_kept {kg : Guard} {sk : State} {h : HeldCmd} {msg : List Byte} {job : Option (Nat × Nat)}
    {s : State} (hs : Kept kg sk s) : Kept kg sk (keepAnswer h msg job s) := by
  unfold keepAnswer
  repeat' (with_reducible first
    | assumption | refine kept_ite ?_ ?_ | refine oweAnswer_kept ?_ | refine modCtx_kept ?_ | refine kept_id ?_
    | intro _ | split | refine Kept.of_fst (by assumption) ?_ | refine Kept.of_snd (by assumption) ?_ | dsimp only)

theorem loseCommand_kept {kg : Guard} {sk : State} {h : HeldCmd} {winner : Nat} {s : State} (hs : Kept kg sk s) :
    Kept kg sk (loseCommand h winner s) := by
  unfold loseCommand
  repeat' (with_reducible first
    | assumption | refine modRadio_kept ?_ | refine modLink_kept ?_ | refine modFabric_kept ?_
    | refine keepAnswer_kept ?_ | refine auditRefused_kept ?_ | intro _ | split | dsimp only)

theorem submitCommand_kept {kg : Guard} {sk : State} {o : WriteObs} {rivals : List (Nat × Nat)} {h : HeldCmd}
    {s : State} (hs : Kept kg sk s) : Kept kg sk (submitCommand o rivals h s) := by
  unfold submitCommand
  repeat' (with_reducible first
    | assumption | refine kept_ite ?_ ?_ | refine modRadio_kept ?_ | refine keepAnswer_kept ?_
    | refine serveMessage_kept ?_ | refine kept_getD ?_ ?_ | intro _ | split
    | refine Kept.of_fst (by assumption) ?_ | refine Kept.of_snd (by assumption) ?_ | dsimp only)

theorem execCommandHoldEnd_kept {kg : Guard} {rivals : List (Nat × Nat)} {o : WriteObs} {s : State} {kr : State}
    (hh : execCommandHoldEnd rivals o s = .next kr) : Kept kg s kr := by
  have hs := Kept.refl kg s
  unfold execCommandHoldEnd at hh
  first | refine done_kept hh ?_ | refine rated_kept hh ?_
  repeat' (with_reducible first
    | assumption | refine kept_ite ?_ ?_ | refine loseCommand_kept ?_ | refine submitCommand_kept ?_
    | refine kept_foldl ?_ ?_ | refine kept_foldl1 ?_ ?_ | refine kept_foldl2 ?_ ?_ | intro _ | split
    | refine Kept.of_fst (by assumption) ?_ | refine Kept.of_snd (by assumption) ?_ | dsimp only)

theorem execCommandAnswer_kept {kg : Guard} {s : State} {kr : State} (hh : execCommandAnswer s = .next kr) : Kept kg
    s kr := by
  have hs := Kept.refl kg s
  unfold execCommandAnswer at hh
  first | refine done_kept hh ?_ | refine rated_kept hh ?_
  repeat' (with_reducible first
    | assumption | refine kept_ite ?_ ?_ | refine failCtx_kept ?_ | refine finishSend_kept ?_
    | refine setLevel_kept ?_ | refine reserve_kept ?_ | refine takeTxc_kept ?_ | refine startAct_kept ?_
    | refine modCtx_kept ?_ | intro _ | split | refine Kept.of_fst (by assumption) ?_
    | refine Kept.of_snd (by assumption) ?_ | dsimp only)

end Sys2Proof.Machine
end

