-- ==== Sys2Proof/Laws/State.lean ====
section
/-! SUPPORT. One lemma per part of the state per update: what the update makes of it. -/

namespace Sys2Proof.Machine

variable {s : State}

@[simp] theorem modBoot_pending {f : Boot → Boot} : (modBoot f s).pending = s.pending := rfl
@[simp] theorem modBoot_otp {f : Boot → Boot} : (modBoot f s).otp = s.otp := rfl
@[simp] theorem modBoot_otpCrc {f : Boot → Boot} : (modBoot f s).otpCrc = s.otpCrc := rfl
@[simp] theorem modBoot_flash {f : Boot → Boot} : (modBoot f s).flash = s.flash := rfl
@[simp] theorem modBoot_sram {f : Boot → Boot} : (modBoot f s).sram = s.sram := rfl
@[simp] theorem modBoot_boot {f : Boot → Boot} : (modBoot f s).boot = f s.boot := rfl
@[simp] theorem modBoot_lintel {f : Boot → Boot} : (modBoot f s).lintel = s.lintel := rfl
@[simp] theorem modBoot_clock {f : Boot → Boot} : (modBoot f s).clock = s.clock := rfl
@[simp] theorem modBoot_time {f : Boot → Boot} : (modBoot f s).time = s.time := rfl
@[simp] theorem modBoot_fabric {f : Boot → Boot} : (modBoot f s).fabric = s.fabric := rfl
@[simp] theorem modBoot_mason {f : Boot → Boot} : (modBoot f s).mason = s.mason := rfl
@[simp] theorem modBoot_faults {f : Boot → Boot} : (modBoot f s).faults = s.faults := rfl
@[simp] theorem modBoot_front {f : Boot → Boot} : (modBoot f s).front = s.front := rfl
@[simp] theorem modBoot_scribe {f : Boot → Boot} : (modBoot f s).scribe = s.scribe := rfl
@[simp] theorem modBoot_ftu {f : Boot → Boot} : (modBoot f s).ftu = s.ftu := rfl
@[simp] theorem modBoot_shot {f : Boot → Boot} : (modBoot f s).shot = s.shot := rfl
@[simp] theorem modBoot_temp {f : Boot → Boot} : (modBoot f s).temp = s.temp := rfl
@[simp] theorem modBoot_integ {f : Boot → Boot} : (modBoot f s).integ = s.integ := rfl
@[simp] theorem modBoot_bill {f : Boot → Boot} : (modBoot f s).bill = s.bill := rfl
@[simp] theorem modBoot_tamper {f : Boot → Boot} : (modBoot f s).tamper = s.tamper := rfl
@[simp] theorem modBoot_journal {f : Boot → Boot} : (modBoot f s).journal = s.journal := rfl
@[simp] theorem modBoot_radio {f : Boot → Boot} : (modBoot f s).radio = s.radio := rfl
@[simp] theorem modBoot_link {f : Boot → Boot} : (modBoot f s).link = s.link := rfl
@[simp] theorem modBoot_cipher {f : Boot → Boot} : (modBoot f s).cipher = s.cipher := rfl
@[simp] theorem modBoot_keys {f : Boot → Boot} : (modBoot f s).keys = s.keys := rfl
@[simp] theorem modBoot_roles {f : Boot → Boot} : (modBoot f s).roles = s.roles := rfl
@[simp] theorem modBoot_entropy {f : Boot → Boot} : (modBoot f s).entropy = s.entropy := rfl
@[simp] theorem modBoot_lcd {f : Boot → Boot} : (modBoot f s).lcd = s.lcd := rfl
@[simp] theorem modBoot_ports {f : Boot → Boot} : (modBoot f s).ports = s.ports := rfl
@[simp] theorem modBoot_probe {f : Boot → Boot} : (modBoot f s).probe = s.probe := rfl
@[simp] theorem modBoot_draws {f : Boot → Boot} : (modBoot f s).draws = s.draws := rfl

@[simp] theorem modLintel_pending {f : Lintel → Lintel} : (modLintel f s).pending = s.pending := rfl
@[simp] theorem modLintel_otp {f : Lintel → Lintel} : (modLintel f s).otp = s.otp := rfl
@[simp] theorem modLintel_otpCrc {f : Lintel → Lintel} : (modLintel f s).otpCrc = s.otpCrc := rfl
@[simp] theorem modLintel_flash {f : Lintel → Lintel} : (modLintel f s).flash = s.flash := rfl
@[simp] theorem modLintel_sram {f : Lintel → Lintel} : (modLintel f s).sram = s.sram := rfl
@[simp] theorem modLintel_boot {f : Lintel → Lintel} : (modLintel f s).boot = s.boot := rfl
@[simp] theorem modLintel_lintel {f : Lintel → Lintel} : (modLintel f s).lintel = f s.lintel := rfl
@[simp] theorem modLintel_clock {f : Lintel → Lintel} : (modLintel f s).clock = s.clock := rfl
@[simp] theorem modLintel_time {f : Lintel → Lintel} : (modLintel f s).time = s.time := rfl
@[simp] theorem modLintel_fabric {f : Lintel → Lintel} : (modLintel f s).fabric = s.fabric := rfl
@[simp] theorem modLintel_mason {f : Lintel → Lintel} : (modLintel f s).mason = s.mason := rfl
@[simp] theorem modLintel_faults {f : Lintel → Lintel} : (modLintel f s).faults = s.faults := rfl
@[simp] theorem modLintel_front {f : Lintel → Lintel} : (modLintel f s).front = s.front := rfl
@[simp] theorem modLintel_scribe {f : Lintel → Lintel} : (modLintel f s).scribe = s.scribe := rfl
@[simp] theorem modLintel_ftu {f : Lintel → Lintel} : (modLintel f s).ftu = s.ftu := rfl
@[simp] theorem modLintel_shot {f : Lintel → Lintel} : (modLintel f s).shot = s.shot := rfl
@[simp] theorem modLintel_temp {f : Lintel → Lintel} : (modLintel f s).temp = s.temp := rfl
@[simp] theorem modLintel_integ {f : Lintel → Lintel} : (modLintel f s).integ = s.integ := rfl
@[simp] theorem modLintel_bill {f : Lintel → Lintel} : (modLintel f s).bill = s.bill := rfl
@[simp] theorem modLintel_tamper {f : Lintel → Lintel} : (modLintel f s).tamper = s.tamper := rfl
@[simp] theorem modLintel_journal {f : Lintel → Lintel} : (modLintel f s).journal = s.journal := rfl
@[simp] theorem modLintel_radio {f : Lintel → Lintel} : (modLintel f s).radio = s.radio := rfl
@[simp] theorem modLintel_link {f : Lintel → Lintel} : (modLintel f s).link = s.link := rfl
@[simp] theorem modLintel_cipher {f : Lintel → Lintel} : (modLintel f s).cipher = s.cipher := rfl
@[simp] theorem modLintel_keys {f : Lintel → Lintel} : (modLintel f s).keys = s.keys := rfl
@[simp] theorem modLintel_roles {f : Lintel → Lintel} : (modLintel f s).roles = s.roles := rfl
@[simp] theorem modLintel_entropy {f : Lintel → Lintel} : (modLintel f s).entropy = s.entropy := rfl
@[simp] theorem modLintel_lcd {f : Lintel → Lintel} : (modLintel f s).lcd = s.lcd := rfl
@[simp] theorem modLintel_ports {f : Lintel → Lintel} : (modLintel f s).ports = s.ports := rfl
@[simp] theorem modLintel_probe {f : Lintel → Lintel} : (modLintel f s).probe = s.probe := rfl
@[simp] theorem modLintel_draws {f : Lintel → Lintel} : (modLintel f s).draws = s.draws := rfl

@[simp] theorem modClock_pending {f : Clock → Clock} : (modClock f s).pending = s.pending := rfl
@[simp] theorem modClock_otp {f : Clock → Clock} : (modClock f s).otp = s.otp := rfl
@[simp] theorem modClock_otpCrc {f : Clock → Clock} : (modClock f s).otpCrc = s.otpCrc := rfl
@[simp] theorem modClock_flash {f : Clock → Clock} : (modClock f s).flash = s.flash := rfl
@[simp] theorem modClock_sram {f : Clock → Clock} : (modClock f s).sram = s.sram := rfl
@[simp] theorem modClock_boot {f : Clock → Clock} : (modClock f s).boot = s.boot := rfl
@[simp] theorem modClock_lintel {f : Clock → Clock} : (modClock f s).lintel = s.lintel := rfl
@[simp] theorem modClock_clock {f : Clock → Clock} : (modClock f s).clock = f s.clock := rfl
@[simp] theorem modClock_time {f : Clock → Clock} : (modClock f s).time = s.time := rfl
@[simp] theorem modClock_fabric {f : Clock → Clock} : (modClock f s).fabric = s.fabric := rfl
@[simp] theorem modClock_mason {f : Clock → Clock} : (modClock f s).mason = s.mason := rfl
@[simp] theorem modClock_faults {f : Clock → Clock} : (modClock f s).faults = s.faults := rfl
@[simp] theorem modClock_front {f : Clock → Clock} : (modClock f s).front = s.front := rfl
@[simp] theorem modClock_scribe {f : Clock → Clock} : (modClock f s).scribe = s.scribe := rfl
@[simp] theorem modClock_ftu {f : Clock → Clock} : (modClock f s).ftu = s.ftu := rfl
@[simp] theorem modClock_shot {f : Clock → Clock} : (modClock f s).shot = s.shot := rfl
@[simp] theorem modClock_temp {f : Clock → Clock} : (modClock f s).temp = s.temp := rfl
@[simp] theorem modClock_integ {f : Clock → Clock} : (modClock f s).integ = s.integ := rfl
@[simp] theorem modClock_bill {f : Clock → Clock} : (modClock f s).bill = s.bill := rfl
@[simp] theorem modClock_tamper {f : Clock → Clock} : (modClock f s).tamper = s.tamper := rfl
@[simp] theorem modClock_journal {f : Clock → Clock} : (modClock f s).journal = s.journal := rfl
@[simp] theorem modClock_radio {f : Clock → Clock} : (modClock f s).radio = s.radio := rfl
@[simp] theorem modClock_link {f : Clock → Clock} : (modClock f s).link = s.link := rfl
@[simp] theorem modClock_cipher {f : Clock → Clock} : (modClock f s).cipher = s.cipher := rfl
@[simp] theorem modClock_keys {f : Clock → Clock} : (modClock f s).keys = s.keys := rfl
@[simp] theorem modClock_roles {f : Clock → Clock} : (modClock f s).roles = s.roles := rfl
@[simp] theorem modClock_entropy {f : Clock → Clock} : (modClock f s).entropy = s.entropy := rfl
@[simp] theorem modClock_lcd {f : Clock → Clock} : (modClock f s).lcd = s.lcd := rfl
@[simp] theorem modClock_ports {f : Clock → Clock} : (modClock f s).ports = s.ports := rfl
@[simp] theorem modClock_probe {f : Clock → Clock} : (modClock f s).probe = s.probe := rfl
@[simp] theorem modClock_draws {f : Clock → Clock} : (modClock f s).draws = s.draws := rfl

@[simp] theorem modTime_pending {f : TimeState → TimeState} : (modTime f s).pending = s.pending := rfl
@[simp] theorem modTime_otp {f : TimeState → TimeState} : (modTime f s).otp = s.otp := rfl
@[simp] theorem modTime_otpCrc {f : TimeState → TimeState} : (modTime f s).otpCrc = s.otpCrc := rfl
@[simp] theorem modTime_flash {f : TimeState → TimeState} : (modTime f s).flash = s.flash := rfl
@[simp] theorem modTime_sram {f : TimeState → TimeState} : (modTime f s).sram = s.sram := rfl
@[simp] theorem modTime_boot {f : TimeState → TimeState} : (modTime f s).boot = s.boot := rfl
@[simp] theorem modTime_lintel {f : TimeState → TimeState} : (modTime f s).lintel = s.lintel := rfl
@[simp] theorem modTime_clock {f : TimeState → TimeState} : (modTime f s).clock = s.clock := rfl
@[simp] theorem modTime_time {f : TimeState → TimeState} : (modTime f s).time = f s.time := rfl
@[simp] theorem modTime_fabric {f : TimeState → TimeState} : (modTime f s).fabric = s.fabric := rfl
@[simp] theorem modTime_mason {f : TimeState → TimeState} : (modTime f s).mason = s.mason := rfl
@[simp] theorem modTime_faults {f : TimeState → TimeState} : (modTime f s).faults = s.faults := rfl
@[simp] theorem modTime_front {f : TimeState → TimeState} : (modTime f s).front = s.front := rfl
@[simp] theorem modTime_scribe {f : TimeState → TimeState} : (modTime f s).scribe = s.scribe := rfl
@[simp] theorem modTime_ftu {f : TimeState → TimeState} : (modTime f s).ftu = s.ftu := rfl
@[simp] theorem modTime_shot {f : TimeState → TimeState} : (modTime f s).shot = s.shot := rfl
@[simp] theorem modTime_temp {f : TimeState → TimeState} : (modTime f s).temp = s.temp := rfl
@[simp] theorem modTime_integ {f : TimeState → TimeState} : (modTime f s).integ = s.integ := rfl
@[simp] theorem modTime_bill {f : TimeState → TimeState} : (modTime f s).bill = s.bill := rfl
@[simp] theorem modTime_tamper {f : TimeState → TimeState} : (modTime f s).tamper = s.tamper := rfl
@[simp] theorem modTime_journal {f : TimeState → TimeState} : (modTime f s).journal = s.journal := rfl
@[simp] theorem modTime_radio {f : TimeState → TimeState} : (modTime f s).radio = s.radio := rfl
@[simp] theorem modTime_link {f : TimeState → TimeState} : (modTime f s).link = s.link := rfl
@[simp] theorem modTime_cipher {f : TimeState → TimeState} : (modTime f s).cipher = s.cipher := rfl
@[simp] theorem modTime_keys {f : TimeState → TimeState} : (modTime f s).keys = s.keys := rfl
@[simp] theorem modTime_roles {f : TimeState → TimeState} : (modTime f s).roles = s.roles := rfl
@[simp] theorem modTime_entropy {f : TimeState → TimeState} : (modTime f s).entropy = s.entropy := rfl
@[simp] theorem modTime_lcd {f : TimeState → TimeState} : (modTime f s).lcd = s.lcd := rfl
@[simp] theorem modTime_ports {f : TimeState → TimeState} : (modTime f s).ports = s.ports := rfl
@[simp] theorem modTime_probe {f : TimeState → TimeState} : (modTime f s).probe = s.probe := rfl
@[simp] theorem modTime_draws {f : TimeState → TimeState} : (modTime f s).draws = s.draws := rfl

@[simp] theorem modFabric_pending {f : Fabric → Fabric} : (modFabric f s).pending = s.pending := rfl
@[simp] theorem modFabric_otp {f : Fabric → Fabric} : (modFabric f s).otp = s.otp := rfl
@[simp] theorem modFabric_otpCrc {f : Fabric → Fabric} : (modFabric f s).otpCrc = s.otpCrc := rfl
@[simp] theorem modFabric_flash {f : Fabric → Fabric} : (modFabric f s).flash = s.flash := rfl
@[simp] theorem modFabric_sram {f : Fabric → Fabric} : (modFabric f s).sram = s.sram := rfl
@[simp] theorem modFabric_boot {f : Fabric → Fabric} : (modFabric f s).boot = s.boot := rfl
@[simp] theorem modFabric_lintel {f : Fabric → Fabric} : (modFabric f s).lintel = s.lintel := rfl
@[simp] theorem modFabric_clock {f : Fabric → Fabric} : (modFabric f s).clock = s.clock := rfl
@[simp] theorem modFabric_time {f : Fabric → Fabric} : (modFabric f s).time = s.time := rfl
@[simp] theorem modFabric_fabric {f : Fabric → Fabric} : (modFabric f s).fabric = f s.fabric := rfl
@[simp] theorem modFabric_mason {f : Fabric → Fabric} : (modFabric f s).mason = s.mason := rfl
@[simp] theorem modFabric_faults {f : Fabric → Fabric} : (modFabric f s).faults = s.faults := rfl
@[simp] theorem modFabric_front {f : Fabric → Fabric} : (modFabric f s).front = s.front := rfl
@[simp] theorem modFabric_scribe {f : Fabric → Fabric} : (modFabric f s).scribe = s.scribe := rfl
@[simp] theorem modFabric_ftu {f : Fabric → Fabric} : (modFabric f s).ftu = s.ftu := rfl
@[simp] theorem modFabric_shot {f : Fabric → Fabric} : (modFabric f s).shot = s.shot := rfl
@[simp] theorem modFabric_temp {f : Fabric → Fabric} : (modFabric f s).temp = s.temp := rfl
@[simp] theorem modFabric_integ {f : Fabric → Fabric} : (modFabric f s).integ = s.integ := rfl
@[simp] theorem modFabric_bill {f : Fabric → Fabric} : (modFabric f s).bill = s.bill := rfl
@[simp] theorem modFabric_tamper {f : Fabric → Fabric} : (modFabric f s).tamper = s.tamper := rfl
@[simp] theorem modFabric_journal {f : Fabric → Fabric} : (modFabric f s).journal = s.journal := rfl
@[simp] theorem modFabric_radio {f : Fabric → Fabric} : (modFabric f s).radio = s.radio := rfl
@[simp] theorem modFabric_link {f : Fabric → Fabric} : (modFabric f s).link = s.link := rfl
@[simp] theorem modFabric_cipher {f : Fabric → Fabric} : (modFabric f s).cipher = s.cipher := rfl
@[simp] theorem modFabric_keys {f : Fabric → Fabric} : (modFabric f s).keys = s.keys := rfl
@[simp] theorem modFabric_roles {f : Fabric → Fabric} : (modFabric f s).roles = s.roles := rfl
@[simp] theorem modFabric_entropy {f : Fabric → Fabric} : (modFabric f s).entropy = s.entropy := rfl
@[simp] theorem modFabric_lcd {f : Fabric → Fabric} : (modFabric f s).lcd = s.lcd := rfl
@[simp] theorem modFabric_ports {f : Fabric → Fabric} : (modFabric f s).ports = s.ports := rfl
@[simp] theorem modFabric_probe {f : Fabric → Fabric} : (modFabric f s).probe = s.probe := rfl
@[simp] theorem modFabric_draws {f : Fabric → Fabric} : (modFabric f s).draws = s.draws := rfl

@[simp] theorem modMason_pending {f : Mason → Mason} : (modMason f s).pending = s.pending := rfl
@[simp] theorem modMason_otp {f : Mason → Mason} : (modMason f s).otp = s.otp := rfl
@[simp] theorem modMason_otpCrc {f : Mason → Mason} : (modMason f s).otpCrc = s.otpCrc := rfl
@[simp] theorem modMason_flash {f : Mason → Mason} : (modMason f s).flash = s.flash := rfl
@[simp] theorem modMason_sram {f : Mason → Mason} : (modMason f s).sram = s.sram := rfl
@[simp] theorem modMason_boot {f : Mason → Mason} : (modMason f s).boot = s.boot := rfl
@[simp] theorem modMason_lintel {f : Mason → Mason} : (modMason f s).lintel = s.lintel := rfl
@[simp] theorem modMason_clock {f : Mason → Mason} : (modMason f s).clock = s.clock := rfl
@[simp] theorem modMason_time {f : Mason → Mason} : (modMason f s).time = s.time := rfl
@[simp] theorem modMason_fabric {f : Mason → Mason} : (modMason f s).fabric = s.fabric := rfl
@[simp] theorem modMason_mason {f : Mason → Mason} : (modMason f s).mason = f s.mason := rfl
@[simp] theorem modMason_faults {f : Mason → Mason} : (modMason f s).faults = s.faults := rfl
@[simp] theorem modMason_front {f : Mason → Mason} : (modMason f s).front = s.front := rfl
@[simp] theorem modMason_scribe {f : Mason → Mason} : (modMason f s).scribe = s.scribe := rfl
@[simp] theorem modMason_ftu {f : Mason → Mason} : (modMason f s).ftu = s.ftu := rfl
@[simp] theorem modMason_shot {f : Mason → Mason} : (modMason f s).shot = s.shot := rfl
@[simp] theorem modMason_temp {f : Mason → Mason} : (modMason f s).temp = s.temp := rfl
@[simp] theorem modMason_integ {f : Mason → Mason} : (modMason f s).integ = s.integ := rfl
@[simp] theorem modMason_bill {f : Mason → Mason} : (modMason f s).bill = s.bill := rfl
@[simp] theorem modMason_tamper {f : Mason → Mason} : (modMason f s).tamper = s.tamper := rfl
@[simp] theorem modMason_journal {f : Mason → Mason} : (modMason f s).journal = s.journal := rfl
@[simp] theorem modMason_radio {f : Mason → Mason} : (modMason f s).radio = s.radio := rfl
@[simp] theorem modMason_link {f : Mason → Mason} : (modMason f s).link = s.link := rfl
@[simp] theorem modMason_cipher {f : Mason → Mason} : (modMason f s).cipher = s.cipher := rfl
@[simp] theorem modMason_keys {f : Mason → Mason} : (modMason f s).keys = s.keys := rfl
@[simp] theorem modMason_roles {f : Mason → Mason} : (modMason f s).roles = s.roles := rfl
@[simp] theorem modMason_entropy {f : Mason → Mason} : (modMason f s).entropy = s.entropy := rfl
@[simp] theorem modMason_lcd {f : Mason → Mason} : (modMason f s).lcd = s.lcd := rfl
@[simp] theorem modMason_ports {f : Mason → Mason} : (modMason f s).ports = s.ports := rfl
@[simp] theorem modMason_probe {f : Mason → Mason} : (modMason f s).probe = s.probe := rfl
@[simp] theorem modMason_draws {f : Mason → Mason} : (modMason f s).draws = s.draws := rfl

@[simp] theorem modFaults_pending {f : Faults → Faults} : (modFaults f s).pending = s.pending := rfl
@[simp] theorem modFaults_otp {f : Faults → Faults} : (modFaults f s).otp = s.otp := rfl
@[simp] theorem modFaults_otpCrc {f : Faults → Faults} : (modFaults f s).otpCrc = s.otpCrc := rfl
@[simp] theorem modFaults_flash {f : Faults → Faults} : (modFaults f s).flash = s.flash := rfl
@[simp] theorem modFaults_sram {f : Faults → Faults} : (modFaults f s).sram = s.sram := rfl
@[simp] theorem modFaults_boot {f : Faults → Faults} : (modFaults f s).boot = s.boot := rfl
@[simp] theorem modFaults_lintel {f : Faults → Faults} : (modFaults f s).lintel = s.lintel := rfl
@[simp] theorem modFaults_clock {f : Faults → Faults} : (modFaults f s).clock = s.clock := rfl
@[simp] theorem modFaults_time {f : Faults → Faults} : (modFaults f s).time = s.time := rfl
@[simp] theorem modFaults_fabric {f : Faults → Faults} : (modFaults f s).fabric = s.fabric := rfl
@[simp] theorem modFaults_mason {f : Faults → Faults} : (modFaults f s).mason = s.mason := rfl
@[simp] theorem modFaults_faults {f : Faults → Faults} : (modFaults f s).faults = f s.faults := rfl
@[simp] theorem modFaults_front {f : Faults → Faults} : (modFaults f s).front = s.front := rfl
@[simp] theorem modFaults_scribe {f : Faults → Faults} : (modFaults f s).scribe = s.scribe := rfl
@[simp] theorem modFaults_ftu {f : Faults → Faults} : (modFaults f s).ftu = s.ftu := rfl
@[simp] theorem modFaults_shot {f : Faults → Faults} : (modFaults f s).shot = s.shot := rfl
@[simp] theorem modFaults_temp {f : Faults → Faults} : (modFaults f s).temp = s.temp := rfl
@[simp] theorem modFaults_integ {f : Faults → Faults} : (modFaults f s).integ = s.integ := rfl
@[simp] theorem modFaults_bill {f : Faults → Faults} : (modFaults f s).bill = s.bill := rfl
@[simp] theorem modFaults_tamper {f : Faults → Faults} : (modFaults f s).tamper = s.tamper := rfl
@[simp] theorem modFaults_journal {f : Faults → Faults} : (modFaults f s).journal = s.journal := rfl
@[simp] theorem modFaults_radio {f : Faults → Faults} : (modFaults f s).radio = s.radio := rfl
@[simp] theorem modFaults_link {f : Faults → Faults} : (modFaults f s).link = s.link := rfl
@[simp] theorem modFaults_cipher {f : Faults → Faults} : (modFaults f s).cipher = s.cipher := rfl
@[simp] theorem modFaults_keys {f : Faults → Faults} : (modFaults f s).keys = s.keys := rfl
@[simp] theorem modFaults_roles {f : Faults → Faults} : (modFaults f s).roles = s.roles := rfl
@[simp] theorem modFaults_entropy {f : Faults → Faults} : (modFaults f s).entropy = s.entropy := rfl
@[simp] theorem modFaults_lcd {f : Faults → Faults} : (modFaults f s).lcd = s.lcd := rfl
@[simp] theorem modFaults_ports {f : Faults → Faults} : (modFaults f s).ports = s.ports := rfl
@[simp] theorem modFaults_probe {f : Faults → Faults} : (modFaults f s).probe = s.probe := rfl
@[simp] theorem modFaults_draws {f : Faults → Faults} : (modFaults f s).draws = s.draws := rfl

@[simp] theorem modFront_pending {f : Front → Front} : (modFront f s).pending = s.pending := rfl
@[simp] theorem modFront_otp {f : Front → Front} : (modFront f s).otp = s.otp := rfl
@[simp] theorem modFront_otpCrc {f : Front → Front} : (modFront f s).otpCrc = s.otpCrc := rfl
@[simp] theorem modFront_flash {f : Front → Front} : (modFront f s).flash = s.flash := rfl
@[simp] theorem modFront_sram {f : Front → Front} : (modFront f s).sram = s.sram := rfl
@[simp] theorem modFront_boot {f : Front → Front} : (modFront f s).boot = s.boot := rfl
@[simp] theorem modFront_lintel {f : Front → Front} : (modFront f s).lintel = s.lintel := rfl
@[simp] theorem modFront_clock {f : Front → Front} : (modFront f s).clock = s.clock := rfl
@[simp] theorem modFront_time {f : Front → Front} : (modFront f s).time = s.time := rfl
@[simp] theorem modFront_fabric {f : Front → Front} : (modFront f s).fabric = s.fabric := rfl
@[simp] theorem modFront_mason {f : Front → Front} : (modFront f s).mason = s.mason := rfl
@[simp] theorem modFront_faults {f : Front → Front} : (modFront f s).faults = s.faults := rfl
@[simp] theorem modFront_front {f : Front → Front} : (modFront f s).front = f s.front := rfl
@[simp] theorem modFront_scribe {f : Front → Front} : (modFront f s).scribe = s.scribe := rfl
@[simp] theorem modFront_ftu {f : Front → Front} : (modFront f s).ftu = s.ftu := rfl
@[simp] theorem modFront_shot {f : Front → Front} : (modFront f s).shot = s.shot := rfl
@[simp] theorem modFront_temp {f : Front → Front} : (modFront f s).temp = s.temp := rfl
@[simp] theorem modFront_integ {f : Front → Front} : (modFront f s).integ = s.integ := rfl
@[simp] theorem modFront_bill {f : Front → Front} : (modFront f s).bill = s.bill := rfl
@[simp] theorem modFront_tamper {f : Front → Front} : (modFront f s).tamper = s.tamper := rfl
@[simp] theorem modFront_journal {f : Front → Front} : (modFront f s).journal = s.journal := rfl
@[simp] theorem modFront_radio {f : Front → Front} : (modFront f s).radio = s.radio := rfl
@[simp] theorem modFront_link {f : Front → Front} : (modFront f s).link = s.link := rfl
@[simp] theorem modFront_cipher {f : Front → Front} : (modFront f s).cipher = s.cipher := rfl
@[simp] theorem modFront_keys {f : Front → Front} : (modFront f s).keys = s.keys := rfl
@[simp] theorem modFront_roles {f : Front → Front} : (modFront f s).roles = s.roles := rfl
@[simp] theorem modFront_entropy {f : Front → Front} : (modFront f s).entropy = s.entropy := rfl
@[simp] theorem modFront_lcd {f : Front → Front} : (modFront f s).lcd = s.lcd := rfl
@[simp] theorem modFront_ports {f : Front → Front} : (modFront f s).ports = s.ports := rfl
@[simp] theorem modFront_probe {f : Front → Front} : (modFront f s).probe = s.probe := rfl
@[simp] theorem modFront_draws {f : Front → Front} : (modFront f s).draws = s.draws := rfl

@[simp] theorem modScribe_pending {f : Scribe → Scribe} : (modScribe f s).pending = s.pending := rfl
@[simp] theorem modScribe_otp {f : Scribe → Scribe} : (modScribe f s).otp = s.otp := rfl
@[simp] theorem modScribe_otpCrc {f : Scribe → Scribe} : (modScribe f s).otpCrc = s.otpCrc := rfl
@[simp] theorem modScribe_flash {f : Scribe → Scribe} : (modScribe f s).flash = s.flash := rfl
@[simp] theorem modScribe_sram {f : Scribe → Scribe} : (modScribe f s).sram = s.sram := rfl
@[simp] theorem modScribe_boot {f : Scribe → Scribe} : (modScribe f s).boot = s.boot := rfl
@[simp] theorem modScribe_lintel {f : Scribe → Scribe} : (modScribe f s).lintel = s.lintel := rfl
@[simp] theorem modScribe_clock {f : Scribe → Scribe} : (modScribe f s).clock = s.clock := rfl
@[simp] theorem modScribe_time {f : Scribe → Scribe} : (modScribe f s).time = s.time := rfl
@[simp] theorem modScribe_fabric {f : Scribe → Scribe} : (modScribe f s).fabric = s.fabric := rfl
@[simp] theorem modScribe_mason {f : Scribe → Scribe} : (modScribe f s).mason = s.mason := rfl
@[simp] theorem modScribe_faults {f : Scribe → Scribe} : (modScribe f s).faults = s.faults := rfl
@[simp] theorem modScribe_front {f : Scribe → Scribe} : (modScribe f s).front = s.front := rfl
@[simp] theorem modScribe_scribe {f : Scribe → Scribe} : (modScribe f s).scribe = f s.scribe := rfl
@[simp] theorem modScribe_ftu {f : Scribe → Scribe} : (modScribe f s).ftu = s.ftu := rfl
@[simp] theorem modScribe_shot {f : Scribe → Scribe} : (modScribe f s).shot = s.shot := rfl
@[simp] theorem modScribe_temp {f : Scribe → Scribe} : (modScribe f s).temp = s.temp := rfl
@[simp] theorem modScribe_integ {f : Scribe → Scribe} : (modScribe f s).integ = s.integ := rfl
@[simp] theorem modScribe_bill {f : Scribe → Scribe} : (modScribe f s).bill = s.bill := rfl
@[simp] theorem modScribe_tamper {f : Scribe → Scribe} : (modScribe f s).tamper = s.tamper := rfl
@[simp] theorem modScribe_journal {f : Scribe → Scribe} : (modScribe f s).journal = s.journal := rfl
@[simp] theorem modScribe_radio {f : Scribe → Scribe} : (modScribe f s).radio = s.radio := rfl
@[simp] theorem modScribe_link {f : Scribe → Scribe} : (modScribe f s).link = s.link := rfl
@[simp] theorem modScribe_cipher {f : Scribe → Scribe} : (modScribe f s).cipher = s.cipher := rfl
@[simp] theorem modScribe_keys {f : Scribe → Scribe} : (modScribe f s).keys = s.keys := rfl
@[simp] theorem modScribe_roles {f : Scribe → Scribe} : (modScribe f s).roles = s.roles := rfl
@[simp] theorem modScribe_entropy {f : Scribe → Scribe} : (modScribe f s).entropy = s.entropy := rfl
@[simp] theorem modScribe_lcd {f : Scribe → Scribe} : (modScribe f s).lcd = s.lcd := rfl
@[simp] theorem modScribe_ports {f : Scribe → Scribe} : (modScribe f s).ports = s.ports := rfl
@[simp] theorem modScribe_probe {f : Scribe → Scribe} : (modScribe f s).probe = s.probe := rfl
@[simp] theorem modScribe_draws {f : Scribe → Scribe} : (modScribe f s).draws = s.draws := rfl

@[simp] theorem modFtu_pending {f : Ftu → Ftu} : (modFtu f s).pending = s.pending := rfl
@[simp] theorem modFtu_otp {f : Ftu → Ftu} : (modFtu f s).otp = s.otp := rfl
@[simp] theorem modFtu_otpCrc {f : Ftu → Ftu} : (modFtu f s).otpCrc = s.otpCrc := rfl
@[simp] theorem modFtu_flash {f : Ftu → Ftu} : (modFtu f s).flash = s.flash := rfl
@[simp] theorem modFtu_sram {f : Ftu → Ftu} : (modFtu f s).sram = s.sram := rfl
@[simp] theorem modFtu_boot {f : Ftu → Ftu} : (modFtu f s).boot = s.boot := rfl
@[simp] theorem modFtu_lintel {f : Ftu → Ftu} : (modFtu f s).lintel = s.lintel := rfl
@[simp] theorem modFtu_clock {f : Ftu → Ftu} : (modFtu f s).clock = s.clock := rfl
@[simp] theorem modFtu_time {f : Ftu → Ftu} : (modFtu f s).time = s.time := rfl
@[simp] theorem modFtu_fabric {f : Ftu → Ftu} : (modFtu f s).fabric = s.fabric := rfl
@[simp] theorem modFtu_mason {f : Ftu → Ftu} : (modFtu f s).mason = s.mason := rfl
@[simp] theorem modFtu_faults {f : Ftu → Ftu} : (modFtu f s).faults = s.faults := rfl
@[simp] theorem modFtu_front {f : Ftu → Ftu} : (modFtu f s).front = s.front := rfl
@[simp] theorem modFtu_scribe {f : Ftu → Ftu} : (modFtu f s).scribe = s.scribe := rfl
@[simp] theorem modFtu_ftu {f : Ftu → Ftu} : (modFtu f s).ftu = f s.ftu := rfl
@[simp] theorem modFtu_shot {f : Ftu → Ftu} : (modFtu f s).shot = s.shot := rfl
@[simp] theorem modFtu_temp {f : Ftu → Ftu} : (modFtu f s).temp = s.temp := rfl
@[simp] theorem modFtu_integ {f : Ftu → Ftu} : (modFtu f s).integ = s.integ := rfl
@[simp] theorem modFtu_bill {f : Ftu → Ftu} : (modFtu f s).bill = s.bill := rfl
@[simp] theorem modFtu_tamper {f : Ftu → Ftu} : (modFtu f s).tamper = s.tamper := rfl
@[simp] theorem modFtu_journal {f : Ftu → Ftu} : (modFtu f s).journal = s.journal := rfl
@[simp] theorem modFtu_radio {f : Ftu → Ftu} : (modFtu f s).radio = s.radio := rfl
@[simp] theorem modFtu_link {f : Ftu → Ftu} : (modFtu f s).link = s.link := rfl
@[simp] theorem modFtu_cipher {f : Ftu → Ftu} : (modFtu f s).cipher = s.cipher := rfl
@[simp] theorem modFtu_keys {f : Ftu → Ftu} : (modFtu f s).keys = s.keys := rfl
@[simp] theorem modFtu_roles {f : Ftu → Ftu} : (modFtu f s).roles = s.roles := rfl
@[simp] theorem modFtu_entropy {f : Ftu → Ftu} : (modFtu f s).entropy = s.entropy := rfl
@[simp] theorem modFtu_lcd {f : Ftu → Ftu} : (modFtu f s).lcd = s.lcd := rfl
@[simp] theorem modFtu_ports {f : Ftu → Ftu} : (modFtu f s).ports = s.ports := rfl
@[simp] theorem modFtu_probe {f : Ftu → Ftu} : (modFtu f s).probe = s.probe := rfl
@[simp] theorem modFtu_draws {f : Ftu → Ftu} : (modFtu f s).draws = s.draws := rfl

@[simp] theorem modShot_pending {f : Shot → Shot} : (modShot f s).pending = s.pending := rfl
@[simp] theorem modShot_otp {f : Shot → Shot} : (modShot f s).otp = s.otp := rfl
@[simp] theorem modShot_otpCrc {f : Shot → Shot} : (modShot f s).otpCrc = s.otpCrc := rfl
@[simp] theorem modShot_flash {f : Shot → Shot} : (modShot f s).flash = s.flash := rfl
@[simp] theorem modShot_sram {f : Shot → Shot} : (modShot f s).sram = s.sram := rfl
@[simp] theorem modShot_boot {f : Shot → Shot} : (modShot f s).boot = s.boot := rfl
@[simp] theorem modShot_lintel {f : Shot → Shot} : (modShot f s).lintel = s.lintel := rfl
@[simp] theorem modShot_clock {f : Shot → Shot} : (modShot f s).clock = s.clock := rfl
@[simp] theorem modShot_time {f : Shot → Shot} : (modShot f s).time = s.time := rfl
@[simp] theorem modShot_fabric {f : Shot → Shot} : (modShot f s).fabric = s.fabric := rfl
@[simp] theorem modShot_mason {f : Shot → Shot} : (modShot f s).mason = s.mason := rfl
@[simp] theorem modShot_faults {f : Shot → Shot} : (modShot f s).faults = s.faults := rfl
@[simp] theorem modShot_front {f : Shot → Shot} : (modShot f s).front = s.front := rfl
@[simp] theorem modShot_scribe {f : Shot → Shot} : (modShot f s).scribe = s.scribe := rfl
@[simp] theorem modShot_ftu {f : Shot → Shot} : (modShot f s).ftu = s.ftu := rfl
@[simp] theorem modShot_shot {f : Shot → Shot} : (modShot f s).shot = f s.shot := rfl
@[simp] theorem modShot_temp {f : Shot → Shot} : (modShot f s).temp = s.temp := rfl
@[simp] theorem modShot_integ {f : Shot → Shot} : (modShot f s).integ = s.integ := rfl
@[simp] theorem modShot_bill {f : Shot → Shot} : (modShot f s).bill = s.bill := rfl
@[simp] theorem modShot_tamper {f : Shot → Shot} : (modShot f s).tamper = s.tamper := rfl
@[simp] theorem modShot_journal {f : Shot → Shot} : (modShot f s).journal = s.journal := rfl
@[simp] theorem modShot_radio {f : Shot → Shot} : (modShot f s).radio = s.radio := rfl
@[simp] theorem modShot_link {f : Shot → Shot} : (modShot f s).link = s.link := rfl
@[simp] theorem modShot_cipher {f : Shot → Shot} : (modShot f s).cipher = s.cipher := rfl
@[simp] theorem modShot_keys {f : Shot → Shot} : (modShot f s).keys = s.keys := rfl
@[simp] theorem modShot_roles {f : Shot → Shot} : (modShot f s).roles = s.roles := rfl
@[simp] theorem modShot_entropy {f : Shot → Shot} : (modShot f s).entropy = s.entropy := rfl
@[simp] theorem modShot_lcd {f : Shot → Shot} : (modShot f s).lcd = s.lcd := rfl
@[simp] theorem modShot_ports {f : Shot → Shot} : (modShot f s).ports = s.ports := rfl
@[simp] theorem modShot_probe {f : Shot → Shot} : (modShot f s).probe = s.probe := rfl
@[simp] theorem modShot_draws {f : Shot → Shot} : (modShot f s).draws = s.draws := rfl

@[simp] theorem modTemp_pending {f : Temp → Temp} : (modTemp f s).pending = s.pending := rfl
@[simp] theorem modTemp_otp {f : Temp → Temp} : (modTemp f s).otp = s.otp := rfl
@[simp] theorem modTemp_otpCrc {f : Temp → Temp} : (modTemp f s).otpCrc = s.otpCrc := rfl
@[simp] theorem modTemp_flash {f : Temp → Temp} : (modTemp f s).flash = s.flash := rfl
@[simp] theorem modTemp_sram {f : Temp → Temp} : (modTemp f s).sram = s.sram := rfl
@[simp] theorem modTemp_boot {f : Temp → Temp} : (modTemp f s).boot = s.boot := rfl
@[simp] theorem modTemp_lintel {f : Temp → Temp} : (modTemp f s).lintel = s.lintel := rfl
@[simp] theorem modTemp_clock {f : Temp → Temp} : (modTemp f s).clock = s.clock := rfl
@[simp] theorem modTemp_time {f : Temp → Temp} : (modTemp f s).time = s.time := rfl
@[simp] theorem modTemp_fabric {f : Temp → Temp} : (modTemp f s).fabric = s.fabric := rfl
@[simp] theorem modTemp_mason {f : Temp → Temp} : (modTemp f s).mason = s.mason := rfl
@[simp] theorem modTemp_faults {f : Temp → Temp} : (modTemp f s).faults = s.faults := rfl
@[simp] theorem modTemp_front {f : Temp → Temp} : (modTemp f s).front = s.front := rfl
@[simp] theorem modTemp_scribe {f : Temp → Temp} : (modTemp f s).scribe = s.scribe := rfl
@[simp] theorem modTemp_ftu {f : Temp → Temp} : (modTemp f s).ftu = s.ftu := rfl
@[simp] theorem modTemp_shot {f : Temp → Temp} : (modTemp f s).shot = s.shot := rfl
@[simp] theorem modTemp_temp {f : Temp → Temp} : (modTemp f s).temp = f s.temp := rfl
@[simp] theorem modTemp_integ {f : Temp → Temp} : (modTemp f s).integ = s.integ := rfl
@[simp] theorem modTemp_bill {f : Temp → Temp} : (modTemp f s).bill = s.bill := rfl
@[simp] theorem modTemp_tamper {f : Temp → Temp} : (modTemp f s).tamper = s.tamper := rfl
@[simp] theorem modTemp_journal {f : Temp → Temp} : (modTemp f s).journal = s.journal := rfl
@[simp] theorem modTemp_radio {f : Temp → Temp} : (modTemp f s).radio = s.radio := rfl
@[simp] theorem modTemp_link {f : Temp → Temp} : (modTemp f s).link = s.link := rfl
@[simp] theorem modTemp_cipher {f : Temp → Temp} : (modTemp f s).cipher = s.cipher := rfl
@[simp] theorem modTemp_keys {f : Temp → Temp} : (modTemp f s).keys = s.keys := rfl
@[simp] theorem modTemp_roles {f : Temp → Temp} : (modTemp f s).roles = s.roles := rfl
@[simp] theorem modTemp_entropy {f : Temp → Temp} : (modTemp f s).entropy = s.entropy := rfl
@[simp] theorem modTemp_lcd {f : Temp → Temp} : (modTemp f s).lcd = s.lcd := rfl
@[simp] theorem modTemp_ports {f : Temp → Temp} : (modTemp f s).ports = s.ports := rfl
@[simp] theorem modTemp_probe {f : Temp → Temp} : (modTemp f s).probe = s.probe := rfl
@[simp] theorem modTemp_draws {f : Temp → Temp} : (modTemp f s).draws = s.draws := rfl

@[simp] theorem modInteg_pending {f : Integ → Integ} : (modInteg f s).pending = s.pending := rfl
@[simp] theorem modInteg_otp {f : Integ → Integ} : (modInteg f s).otp = s.otp := rfl
@[simp] theorem modInteg_otpCrc {f : Integ → Integ} : (modInteg f s).otpCrc = s.otpCrc := rfl
@[simp] theorem modInteg_flash {f : Integ → Integ} : (modInteg f s).flash = s.flash := rfl
@[simp] theorem modInteg_sram {f : Integ → Integ} : (modInteg f s).sram = s.sram := rfl
@[simp] theorem modInteg_boot {f : Integ → Integ} : (modInteg f s).boot = s.boot := rfl
@[simp] theorem modInteg_lintel {f : Integ → Integ} : (modInteg f s).lintel = s.lintel := rfl
@[simp] theorem modInteg_clock {f : Integ → Integ} : (modInteg f s).clock = s.clock := rfl
@[simp] theorem modInteg_time {f : Integ → Integ} : (modInteg f s).time = s.time := rfl
@[simp] theorem modInteg_fabric {f : Integ → Integ} : (modInteg f s).fabric = s.fabric := rfl
@[simp] theorem modInteg_mason {f : Integ → Integ} : (modInteg f s).mason = s.mason := rfl
@[simp] theorem modInteg_faults {f : Integ → Integ} : (modInteg f s).faults = s.faults := rfl
@[simp] theorem modInteg_front {f : Integ → Integ} : (modInteg f s).front = s.front := rfl
@[simp] theorem modInteg_scribe {f : Integ → Integ} : (modInteg f s).scribe = s.scribe := rfl
@[simp] theorem modInteg_ftu {f : Integ → Integ} : (modInteg f s).ftu = s.ftu := rfl
@[simp] theorem modInteg_shot {f : Integ → Integ} : (modInteg f s).shot = s.shot := rfl
@[simp] theorem modInteg_temp {f : Integ → Integ} : (modInteg f s).temp = s.temp := rfl
@[simp] theorem modInteg_integ {f : Integ → Integ} : (modInteg f s).integ = f s.integ := rfl
@[simp] theorem modInteg_bill {f : Integ → Integ} : (modInteg f s).bill = s.bill := rfl
@[simp] theorem modInteg_tamper {f : Integ → Integ} : (modInteg f s).tamper = s.tamper := rfl
@[simp] theorem modInteg_journal {f : Integ → Integ} : (modInteg f s).journal = s.journal := rfl
@[simp] theorem modInteg_radio {f : Integ → Integ} : (modInteg f s).radio = s.radio := rfl
@[simp] theorem modInteg_link {f : Integ → Integ} : (modInteg f s).link = s.link := rfl
@[simp] theorem modInteg_cipher {f : Integ → Integ} : (modInteg f s).cipher = s.cipher := rfl
@[simp] theorem modInteg_keys {f : Integ → Integ} : (modInteg f s).keys = s.keys := rfl
@[simp] theorem modInteg_roles {f : Integ → Integ} : (modInteg f s).roles = s.roles := rfl
@[simp] theorem modInteg_entropy {f : Integ → Integ} : (modInteg f s).entropy = s.entropy := rfl
@[simp] theorem modInteg_lcd {f : Integ → Integ} : (modInteg f s).lcd = s.lcd := rfl
@[simp] theorem modInteg_ports {f : Integ → Integ} : (modInteg f s).ports = s.ports := rfl
@[simp] theorem modInteg_probe {f : Integ → Integ} : (modInteg f s).probe = s.probe := rfl
@[simp] theorem modInteg_draws {f : Integ → Integ} : (modInteg f s).draws = s.draws := rfl

@[simp] theorem modBill_pending {f : Bill → Bill} : (modBill f s).pending = s.pending := rfl
@[simp] theorem modBill_otp {f : Bill → Bill} : (modBill f s).otp = s.otp := rfl
@[simp] theorem modBill_otpCrc {f : Bill → Bill} : (modBill f s).otpCrc = s.otpCrc := rfl
@[simp] theorem modBill_flash {f : Bill → Bill} : (modBill f s).flash = s.flash := rfl
@[simp] theorem modBill_sram {f : Bill → Bill} : (modBill f s).sram = s.sram := rfl
@[simp] theorem modBill_boot {f : Bill → Bill} : (modBill f s).boot = s.boot := rfl
@[simp] theorem modBill_lintel {f : Bill → Bill} : (modBill f s).lintel = s.lintel := rfl
@[simp] theorem modBill_clock {f : Bill → Bill} : (modBill f s).clock = s.clock := rfl
@[simp] theorem modBill_time {f : Bill → Bill} : (modBill f s).time = s.time := rfl
@[simp] theorem modBill_fabric {f : Bill → Bill} : (modBill f s).fabric = s.fabric := rfl
@[simp] theorem modBill_mason {f : Bill → Bill} : (modBill f s).mason = s.mason := rfl
@[simp] theorem modBill_faults {f : Bill → Bill} : (modBill f s).faults = s.faults := rfl
@[simp] theorem modBill_front {f : Bill → Bill} : (modBill f s).front = s.front := rfl
@[simp] theorem modBill_scribe {f : Bill → Bill} : (modBill f s).scribe = s.scribe := rfl
@[simp] theorem modBill_ftu {f : Bill → Bill} : (modBill f s).ftu = s.ftu := rfl
@[simp] theorem modBill_shot {f : Bill → Bill} : (modBill f s).shot = s.shot := rfl
@[simp] theorem modBill_temp {f : Bill → Bill} : (modBill f s).temp = s.temp := rfl
@[simp] theorem modBill_integ {f : Bill → Bill} : (modBill f s).integ = s.integ := rfl
@[simp] theorem modBill_bill {f : Bill → Bill} : (modBill f s).bill = f s.bill := rfl
@[simp] theorem modBill_tamper {f : Bill → Bill} : (modBill f s).tamper = s.tamper := rfl
@[simp] theorem modBill_journal {f : Bill → Bill} : (modBill f s).journal = s.journal := rfl
@[simp] theorem modBill_radio {f : Bill → Bill} : (modBill f s).radio = s.radio := rfl
@[simp] theorem modBill_link {f : Bill → Bill} : (modBill f s).link = s.link := rfl
@[simp] theorem modBill_cipher {f : Bill → Bill} : (modBill f s).cipher = s.cipher := rfl
@[simp] theorem modBill_keys {f : Bill → Bill} : (modBill f s).keys = s.keys := rfl
@[simp] theorem modBill_roles {f : Bill → Bill} : (modBill f s).roles = s.roles := rfl
@[simp] theorem modBill_entropy {f : Bill → Bill} : (modBill f s).entropy = s.entropy := rfl
@[simp] theorem modBill_lcd {f : Bill → Bill} : (modBill f s).lcd = s.lcd := rfl
@[simp] theorem modBill_ports {f : Bill → Bill} : (modBill f s).ports = s.ports := rfl
@[simp] theorem modBill_probe {f : Bill → Bill} : (modBill f s).probe = s.probe := rfl
@[simp] theorem modBill_draws {f : Bill → Bill} : (modBill f s).draws = s.draws := rfl

@[simp] theorem modTamper_pending {f : Tamper → Tamper} : (modTamper f s).pending = s.pending := rfl
@[simp] theorem modTamper_otp {f : Tamper → Tamper} : (modTamper f s).otp = s.otp := rfl
@[simp] theorem modTamper_otpCrc {f : Tamper → Tamper} : (modTamper f s).otpCrc = s.otpCrc := rfl
@[simp] theorem modTamper_flash {f : Tamper → Tamper} : (modTamper f s).flash = s.flash := rfl
@[simp] theorem modTamper_sram {f : Tamper → Tamper} : (modTamper f s).sram = s.sram := rfl
@[simp] theorem modTamper_boot {f : Tamper → Tamper} : (modTamper f s).boot = s.boot := rfl
@[simp] theorem modTamper_lintel {f : Tamper → Tamper} : (modTamper f s).lintel = s.lintel := rfl
@[simp] theorem modTamper_clock {f : Tamper → Tamper} : (modTamper f s).clock = s.clock := rfl
@[simp] theorem modTamper_time {f : Tamper → Tamper} : (modTamper f s).time = s.time := rfl
@[simp] theorem modTamper_fabric {f : Tamper → Tamper} : (modTamper f s).fabric = s.fabric := rfl
@[simp] theorem modTamper_mason {f : Tamper → Tamper} : (modTamper f s).mason = s.mason := rfl
@[simp] theorem modTamper_faults {f : Tamper → Tamper} : (modTamper f s).faults = s.faults := rfl
@[simp] theorem modTamper_front {f : Tamper → Tamper} : (modTamper f s).front = s.front := rfl
@[simp] theorem modTamper_scribe {f : Tamper → Tamper} : (modTamper f s).scribe = s.scribe := rfl
@[simp] theorem modTamper_ftu {f : Tamper → Tamper} : (modTamper f s).ftu = s.ftu := rfl
@[simp] theorem modTamper_shot {f : Tamper → Tamper} : (modTamper f s).shot = s.shot := rfl
@[simp] theorem modTamper_temp {f : Tamper → Tamper} : (modTamper f s).temp = s.temp := rfl
@[simp] theorem modTamper_integ {f : Tamper → Tamper} : (modTamper f s).integ = s.integ := rfl
@[simp] theorem modTamper_bill {f : Tamper → Tamper} : (modTamper f s).bill = s.bill := rfl
@[simp] theorem modTamper_tamper {f : Tamper → Tamper} : (modTamper f s).tamper = f s.tamper := rfl
@[simp] theorem modTamper_journal {f : Tamper → Tamper} : (modTamper f s).journal = s.journal := rfl
@[simp] theorem modTamper_radio {f : Tamper → Tamper} : (modTamper f s).radio = s.radio := rfl
@[simp] theorem modTamper_link {f : Tamper → Tamper} : (modTamper f s).link = s.link := rfl
@[simp] theorem modTamper_cipher {f : Tamper → Tamper} : (modTamper f s).cipher = s.cipher := rfl
@[simp] theorem modTamper_keys {f : Tamper → Tamper} : (modTamper f s).keys = s.keys := rfl
@[simp] theorem modTamper_roles {f : Tamper → Tamper} : (modTamper f s).roles = s.roles := rfl
@[simp] theorem modTamper_entropy {f : Tamper → Tamper} : (modTamper f s).entropy = s.entropy := rfl
@[simp] theorem modTamper_lcd {f : Tamper → Tamper} : (modTamper f s).lcd = s.lcd := rfl
@[simp] theorem modTamper_ports {f : Tamper → Tamper} : (modTamper f s).ports = s.ports := rfl
@[simp] theorem modTamper_probe {f : Tamper → Tamper} : (modTamper f s).probe = s.probe := rfl
@[simp] theorem modTamper_draws {f : Tamper → Tamper} : (modTamper f s).draws = s.draws := rfl

@[simp] theorem modJournal_pending {f : Journal → Journal} : (modJournal f s).pending = s.pending := rfl
@[simp] theorem modJournal_otp {f : Journal → Journal} : (modJournal f s).otp = s.otp := rfl
@[simp] theorem modJournal_otpCrc {f : Journal → Journal} : (modJournal f s).otpCrc = s.otpCrc := rfl
@[simp] theorem modJournal_flash {f : Journal → Journal} : (modJournal f s).flash = s.flash := rfl
@[simp] theorem modJournal_sram {f : Journal → Journal} : (modJournal f s).sram = s.sram := rfl
@[simp] theorem modJournal_boot {f : Journal → Journal} : (modJournal f s).boot = s.boot := rfl
@[simp] theorem modJournal_lintel {f : Journal → Journal} : (modJournal f s).lintel = s.lintel := rfl
@[simp] theorem modJournal_clock {f : Journal → Journal} : (modJournal f s).clock = s.clock := rfl
@[simp] theorem modJournal_time {f : Journal → Journal} : (modJournal f s).time = s.time := rfl
@[simp] theorem modJournal_fabric {f : Journal → Journal} : (modJournal f s).fabric = s.fabric := rfl
@[simp] theorem modJournal_mason {f : Journal → Journal} : (modJournal f s).mason = s.mason := rfl
@[simp] theorem modJournal_faults {f : Journal → Journal} : (modJournal f s).faults = s.faults := rfl
@[simp] theorem modJournal_front {f : Journal → Journal} : (modJournal f s).front = s.front := rfl
@[simp] theorem modJournal_scribe {f : Journal → Journal} : (modJournal f s).scribe = s.scribe := rfl
@[simp] theorem modJournal_ftu {f : Journal → Journal} : (modJournal f s).ftu = s.ftu := rfl
@[simp] theorem modJournal_shot {f : Journal → Journal} : (modJournal f s).shot = s.shot := rfl
@[simp] theorem modJournal_temp {f : Journal → Journal} : (modJournal f s).temp = s.temp := rfl
@[simp] theorem modJournal_integ {f : Journal → Journal} : (modJournal f s).integ = s.integ := rfl
@[simp] theorem modJournal_bill {f : Journal → Journal} : (modJournal f s).bill = s.bill := rfl
@[simp] theorem modJournal_tamper {f : Journal → Journal} : (modJournal f s).tamper = s.tamper := rfl
@[simp] theorem modJournal_journal {f : Journal → Journal} : (modJournal f s).journal = f s.journal := rfl
@[simp] theorem modJournal_radio {f : Journal → Journal} : (modJournal f s).radio = s.radio := rfl
@[simp] theorem modJournal_link {f : Journal → Journal} : (modJournal f s).link = s.link := rfl
@[simp] theorem modJournal_cipher {f : Journal → Journal} : (modJournal f s).cipher = s.cipher := rfl
@[simp] theorem modJournal_keys {f : Journal → Journal} : (modJournal f s).keys = s.keys := rfl
@[simp] theorem modJournal_roles {f : Journal → Journal} : (modJournal f s).roles = s.roles := rfl
@[simp] theorem modJournal_entropy {f : Journal → Journal} : (modJournal f s).entropy = s.entropy := rfl
@[simp] theorem modJournal_lcd {f : Journal → Journal} : (modJournal f s).lcd = s.lcd := rfl
@[simp] theorem modJournal_ports {f : Journal → Journal} : (modJournal f s).ports = s.ports := rfl
@[simp] theorem modJournal_probe {f : Journal → Journal} : (modJournal f s).probe = s.probe := rfl
@[simp] theorem modJournal_draws {f : Journal → Journal} : (modJournal f s).draws = s.draws := rfl

@[simp] theorem modRadio_pending {f : Radio → Radio} : (modRadio f s).pending = s.pending := rfl
@[simp] theorem modRadio_otp {f : Radio → Radio} : (modRadio f s).otp = s.otp := rfl
@[simp] theorem modRadio_otpCrc {f : Radio → Radio} : (modRadio f s).otpCrc = s.otpCrc := rfl
@[simp] theorem modRadio_flash {f : Radio → Radio} : (modRadio f s).flash = s.flash := rfl
@[simp] theorem modRadio_sram {f : Radio → Radio} : (modRadio f s).sram = s.sram := rfl
@[simp] theorem modRadio_boot {f : Radio → Radio} : (modRadio f s).boot = s.boot := rfl
@[simp] theorem modRadio_lintel {f : Radio → Radio} : (modRadio f s).lintel = s.lintel := rfl
@[simp] theorem modRadio_clock {f : Radio → Radio} : (modRadio f s).clock = s.clock := rfl
@[simp] theorem modRadio_time {f : Radio → Radio} : (modRadio f s).time = s.time := rfl
@[simp] theorem modRadio_fabric {f : Radio → Radio} : (modRadio f s).fabric = s.fabric := rfl
@[simp] theorem modRadio_mason {f : Radio → Radio} : (modRadio f s).mason = s.mason := rfl
@[simp] theorem modRadio_faults {f : Radio → Radio} : (modRadio f s).faults = s.faults := rfl
@[simp] theorem modRadio_front {f : Radio → Radio} : (modRadio f s).front = s.front := rfl
@[simp] theorem modRadio_scribe {f : Radio → Radio} : (modRadio f s).scribe = s.scribe := rfl
@[simp] theorem modRadio_ftu {f : Radio → Radio} : (modRadio f s).ftu = s.ftu := rfl
@[simp] theorem modRadio_shot {f : Radio → Radio} : (modRadio f s).shot = s.shot := rfl
@[simp] theorem modRadio_temp {f : Radio → Radio} : (modRadio f s).temp = s.temp := rfl
@[simp] theorem modRadio_integ {f : Radio → Radio} : (modRadio f s).integ = s.integ := rfl
@[simp] theorem modRadio_bill {f : Radio → Radio} : (modRadio f s).bill = s.bill := rfl
@[simp] theorem modRadio_tamper {f : Radio → Radio} : (modRadio f s).tamper = s.tamper := rfl
@[simp] theorem modRadio_journal {f : Radio → Radio} : (modRadio f s).journal = s.journal := rfl
@[simp] theorem modRadio_radio {f : Radio → Radio} : (modRadio f s).radio = f s.radio := rfl
@[simp] theorem modRadio_link {f : Radio → Radio} : (modRadio f s).link = s.link := rfl
@[simp] theorem modRadio_cipher {f : Radio → Radio} : (modRadio f s).cipher = s.cipher := rfl
@[simp] theorem modRadio_keys {f : Radio → Radio} : (modRadio f s).keys = s.keys := rfl
@[simp] theorem modRadio_roles {f : Radio → Radio} : (modRadio f s).roles = s.roles := rfl
@[simp] theorem modRadio_entropy {f : Radio → Radio} : (modRadio f s).entropy = s.entropy := rfl
@[simp] theorem modRadio_lcd {f : Radio → Radio} : (modRadio f s).lcd = s.lcd := rfl
@[simp] theorem modRadio_ports {f : Radio → Radio} : (modRadio f s).ports = s.ports := rfl
@[simp] theorem modRadio_probe {f : Radio → Radio} : (modRadio f s).probe = s.probe := rfl
@[simp] theorem modRadio_draws {f : Radio → Radio} : (modRadio f s).draws = s.draws := rfl

@[simp] theorem modLink_pending {f : Link → Link} : (modLink f s).pending = s.pending := rfl
@[simp] theorem modLink_otp {f : Link → Link} : (modLink f s).otp = s.otp := rfl
@[simp] theorem modLink_otpCrc {f : Link → Link} : (modLink f s).otpCrc = s.otpCrc := rfl
@[simp] theorem modLink_flash {f : Link → Link} : (modLink f s).flash = s.flash := rfl
@[simp] theorem modLink_sram {f : Link → Link} : (modLink f s).sram = s.sram := rfl
@[simp] theorem modLink_boot {f : Link → Link} : (modLink f s).boot = s.boot := rfl
@[simp] theorem modLink_lintel {f : Link → Link} : (modLink f s).lintel = s.lintel := rfl
@[simp] theorem modLink_clock {f : Link → Link} : (modLink f s).clock = s.clock := rfl
@[simp] theorem modLink_time {f : Link → Link} : (modLink f s).time = s.time := rfl
@[simp] theorem modLink_fabric {f : Link → Link} : (modLink f s).fabric = s.fabric := rfl
@[simp] theorem modLink_mason {f : Link → Link} : (modLink f s).mason = s.mason := rfl
@[simp] theorem modLink_faults {f : Link → Link} : (modLink f s).faults = s.faults := rfl
@[simp] theorem modLink_front {f : Link → Link} : (modLink f s).front = s.front := rfl
@[simp] theorem modLink_scribe {f : Link → Link} : (modLink f s).scribe = s.scribe := rfl
@[simp] theorem modLink_ftu {f : Link → Link} : (modLink f s).ftu = s.ftu := rfl
@[simp] theorem modLink_shot {f : Link → Link} : (modLink f s).shot = s.shot := rfl
@[simp] theorem modLink_temp {f : Link → Link} : (modLink f s).temp = s.temp := rfl
@[simp] theorem modLink_integ {f : Link → Link} : (modLink f s).integ = s.integ := rfl
@[simp] theorem modLink_bill {f : Link → Link} : (modLink f s).bill = s.bill := rfl
@[simp] theorem modLink_tamper {f : Link → Link} : (modLink f s).tamper = s.tamper := rfl
@[simp] theorem modLink_journal {f : Link → Link} : (modLink f s).journal = s.journal := rfl
@[simp] theorem modLink_radio {f : Link → Link} : (modLink f s).radio = s.radio := rfl
@[simp] theorem modLink_link {f : Link → Link} : (modLink f s).link = f s.link := rfl
@[simp] theorem modLink_cipher {f : Link → Link} : (modLink f s).cipher = s.cipher := rfl
@[simp] theorem modLink_keys {f : Link → Link} : (modLink f s).keys = s.keys := rfl
@[simp] theorem modLink_roles {f : Link → Link} : (modLink f s).roles = s.roles := rfl
@[simp] theorem modLink_entropy {f : Link → Link} : (modLink f s).entropy = s.entropy := rfl
@[simp] theorem modLink_lcd {f : Link → Link} : (modLink f s).lcd = s.lcd := rfl
@[simp] theorem modLink_ports {f : Link → Link} : (modLink f s).ports = s.ports := rfl
@[simp] theorem modLink_probe {f : Link → Link} : (modLink f s).probe = s.probe := rfl
@[simp] theorem modLink_draws {f : Link → Link} : (modLink f s).draws = s.draws := rfl

@[simp] theorem modCipher_pending {f : CipherSt → CipherSt} : (modCipher f s).pending = s.pending := rfl
@[simp] theorem modCipher_otp {f : CipherSt → CipherSt} : (modCipher f s).otp = s.otp := rfl
@[simp] theorem modCipher_otpCrc {f : CipherSt → CipherSt} : (modCipher f s).otpCrc = s.otpCrc := rfl
@[simp] theorem modCipher_flash {f : CipherSt → CipherSt} : (modCipher f s).flash = s.flash := rfl
@[simp] theorem modCipher_sram {f : CipherSt → CipherSt} : (modCipher f s).sram = s.sram := rfl
@[simp] theorem modCipher_boot {f : CipherSt → CipherSt} : (modCipher f s).boot = s.boot := rfl
@[simp] theorem modCipher_lintel {f : CipherSt → CipherSt} : (modCipher f s).lintel = s.lintel := rfl
@[simp] theorem modCipher_clock {f : CipherSt → CipherSt} : (modCipher f s).clock = s.clock := rfl
@[simp] theorem modCipher_time {f : CipherSt → CipherSt} : (modCipher f s).time = s.time := rfl
@[simp] theorem modCipher_fabric {f : CipherSt → CipherSt} : (modCipher f s).fabric = s.fabric := rfl
@[simp] theorem modCipher_mason {f : CipherSt → CipherSt} : (modCipher f s).mason = s.mason := rfl
@[simp] theorem modCipher_faults {f : CipherSt → CipherSt} : (modCipher f s).faults = s.faults := rfl
@[simp] theorem modCipher_front {f : CipherSt → CipherSt} : (modCipher f s).front = s.front := rfl
@[simp] theorem modCipher_scribe {f : CipherSt → CipherSt} : (modCipher f s).scribe = s.scribe := rfl
@[simp] theorem modCipher_ftu {f : CipherSt → CipherSt} : (modCipher f s).ftu = s.ftu := rfl
@[simp] theorem modCipher_shot {f : CipherSt → CipherSt} : (modCipher f s).shot = s.shot := rfl
@[simp] theorem modCipher_temp {f : CipherSt → CipherSt} : (modCipher f s).temp = s.temp := rfl
@[simp] theorem modCipher_integ {f : CipherSt → CipherSt} : (modCipher f s).integ = s.integ := rfl
@[simp] theorem modCipher_bill {f : CipherSt → CipherSt} : (modCipher f s).bill = s.bill := rfl
@[simp] theorem modCipher_tamper {f : CipherSt → CipherSt} : (modCipher f s).tamper = s.tamper := rfl
@[simp] theorem modCipher_journal {f : CipherSt → CipherSt} : (modCipher f s).journal = s.journal := rfl
@[simp] theorem modCipher_radio {f : CipherSt → CipherSt} : (modCipher f s).radio = s.radio := rfl
@[simp] theorem modCipher_link {f : CipherSt → CipherSt} : (modCipher f s).link = s.link := rfl
@[simp] theorem modCipher_cipher {f : CipherSt → CipherSt} : (modCipher f s).cipher = f s.cipher := rfl
@[simp] theorem modCipher_keys {f : CipherSt → CipherSt} : (modCipher f s).keys = s.keys := rfl
@[simp] theorem modCipher_roles {f : CipherSt → CipherSt} : (modCipher f s).roles = s.roles := rfl
@[simp] theorem modCipher_entropy {f : CipherSt → CipherSt} : (modCipher f s).entropy = s.entropy := rfl
@[simp] theorem modCipher_lcd {f : CipherSt → CipherSt} : (modCipher f s).lcd = s.lcd := rfl
@[simp] theorem modCipher_ports {f : CipherSt → CipherSt} : (modCipher f s).ports = s.ports := rfl
@[simp] theorem modCipher_probe {f : CipherSt → CipherSt} : (modCipher f s).probe = s.probe := rfl
@[simp] theorem modCipher_draws {f : CipherSt → CipherSt} : (modCipher f s).draws = s.draws := rfl

@[simp] theorem modKeys_pending {f : Keys → Keys} : (modKeys f s).pending = s.pending := rfl
@[simp] theorem modKeys_otp {f : Keys → Keys} : (modKeys f s).otp = s.otp := rfl
@[simp] theorem modKeys_otpCrc {f : Keys → Keys} : (modKeys f s).otpCrc = s.otpCrc := rfl
@[simp] theorem modKeys_flash {f : Keys → Keys} : (modKeys f s).flash = s.flash := rfl
@[simp] theorem modKeys_sram {f : Keys → Keys} : (modKeys f s).sram = s.sram := rfl
@[simp] theorem modKeys_boot {f : Keys → Keys} : (modKeys f s).boot = s.boot := rfl
@[simp] theorem modKeys_lintel {f : Keys → Keys} : (modKeys f s).lintel = s.lintel := rfl
@[simp] theorem modKeys_clock {f : Keys → Keys} : (modKeys f s).clock = s.clock := rfl
@[simp] theorem modKeys_time {f : Keys → Keys} : (modKeys f s).time = s.time := rfl
@[simp] theorem modKeys_fabric {f : Keys → Keys} : (modKeys f s).fabric = s.fabric := rfl
@[simp] theorem modKeys_mason {f : Keys → Keys} : (modKeys f s).mason = s.mason := rfl
@[simp] theorem modKeys_faults {f : Keys → Keys} : (modKeys f s).faults = s.faults := rfl
@[simp] theorem modKeys_front {f : Keys → Keys} : (modKeys f s).front = s.front := rfl
@[simp] theorem modKeys_scribe {f : Keys → Keys} : (modKeys f s).scribe = s.scribe := rfl
@[simp] theorem modKeys_ftu {f : Keys → Keys} : (modKeys f s).ftu = s.ftu := rfl
@[simp] theorem modKeys_shot {f : Keys → Keys} : (modKeys f s).shot = s.shot := rfl
@[simp] theorem modKeys_temp {f : Keys → Keys} : (modKeys f s).temp = s.temp := rfl
@[simp] theorem modKeys_integ {f : Keys → Keys} : (modKeys f s).integ = s.integ := rfl
@[simp] theorem modKeys_bill {f : Keys → Keys} : (modKeys f s).bill = s.bill := rfl
@[simp] theorem modKeys_tamper {f : Keys → Keys} : (modKeys f s).tamper = s.tamper := rfl
@[simp] theorem modKeys_journal {f : Keys → Keys} : (modKeys f s).journal = s.journal := rfl
@[simp] theorem modKeys_radio {f : Keys → Keys} : (modKeys f s).radio = s.radio := rfl
@[simp] theorem modKeys_link {f : Keys → Keys} : (modKeys f s).link = s.link := rfl
@[simp] theorem modKeys_cipher {f : Keys → Keys} : (modKeys f s).cipher = s.cipher := rfl
@[simp] theorem modKeys_keys {f : Keys → Keys} : (modKeys f s).keys = f s.keys := rfl
@[simp] theorem modKeys_roles {f : Keys → Keys} : (modKeys f s).roles = s.roles := rfl
@[simp] theorem modKeys_entropy {f : Keys → Keys} : (modKeys f s).entropy = s.entropy := rfl
@[simp] theorem modKeys_lcd {f : Keys → Keys} : (modKeys f s).lcd = s.lcd := rfl
@[simp] theorem modKeys_ports {f : Keys → Keys} : (modKeys f s).ports = s.ports := rfl
@[simp] theorem modKeys_probe {f : Keys → Keys} : (modKeys f s).probe = s.probe := rfl
@[simp] theorem modKeys_draws {f : Keys → Keys} : (modKeys f s).draws = s.draws := rfl

@[simp] theorem modRoles_pending {f : Roles → Roles} : (modRoles f s).pending = s.pending := rfl
@[simp] theorem modRoles_otp {f : Roles → Roles} : (modRoles f s).otp = s.otp := rfl
@[simp] theorem modRoles_otpCrc {f : Roles → Roles} : (modRoles f s).otpCrc = s.otpCrc := rfl
@[simp] theorem modRoles_flash {f : Roles → Roles} : (modRoles f s).flash = s.flash := rfl
@[simp] theorem modRoles_sram {f : Roles → Roles} : (modRoles f s).sram = s.sram := rfl
@[simp] theorem modRoles_boot {f : Roles → Roles} : (modRoles f s).boot = s.boot := rfl
@[simp] theorem modRoles_lintel {f : Roles → Roles} : (modRoles f s).lintel = s.lintel := rfl
@[simp] theorem modRoles_clock {f : Roles → Roles} : (modRoles f s).clock = s.clock := rfl
@[simp] theorem modRoles_time {f : Roles → Roles} : (modRoles f s).time = s.time := rfl
@[simp] theorem modRoles_fabric {f : Roles → Roles} : (modRoles f s).fabric = s.fabric := rfl
@[simp] theorem modRoles_mason {f : Roles → Roles} : (modRoles f s).mason = s.mason := rfl
@[simp] theorem modRoles_faults {f : Roles → Roles} : (modRoles f s).faults = s.faults := rfl
@[simp] theorem modRoles_front {f : Roles → Roles} : (modRoles f s).front = s.front := rfl
@[simp] theorem modRoles_scribe {f : Roles → Roles} : (modRoles f s).scribe = s.scribe := rfl
@[simp] theorem modRoles_ftu {f : Roles → Roles} : (modRoles f s).ftu = s.ftu := rfl
@[simp] theorem modRoles_shot {f : Roles → Roles} : (modRoles f s).shot = s.shot := rfl
@[simp] theorem modRoles_temp {f : Roles → Roles} : (modRoles f s).temp = s.temp := rfl
@[simp] theorem modRoles_integ {f : Roles → Roles} : (modRoles f s).integ = s.integ := rfl
@[simp] theorem modRoles_bill {f : Roles → Roles} : (modRoles f s).bill = s.bill := rfl
@[simp] theorem modRoles_tamper {f : Roles → Roles} : (modRoles f s).tamper = s.tamper := rfl
@[simp] theorem modRoles_journal {f : Roles → Roles} : (modRoles f s).journal = s.journal := rfl
@[simp] theorem modRoles_radio {f : Roles → Roles} : (modRoles f s).radio = s.radio := rfl
@[simp] theorem modRoles_link {f : Roles → Roles} : (modRoles f s).link = s.link := rfl
@[simp] theorem modRoles_cipher {f : Roles → Roles} : (modRoles f s).cipher = s.cipher := rfl
@[simp] theorem modRoles_keys {f : Roles → Roles} : (modRoles f s).keys = s.keys := rfl
@[simp] theorem modRoles_roles {f : Roles → Roles} : (modRoles f s).roles = f s.roles := rfl
@[simp] theorem modRoles_entropy {f : Roles → Roles} : (modRoles f s).entropy = s.entropy := rfl
@[simp] theorem modRoles_lcd {f : Roles → Roles} : (modRoles f s).lcd = s.lcd := rfl
@[simp] theorem modRoles_ports {f : Roles → Roles} : (modRoles f s).ports = s.ports := rfl
@[simp] theorem modRoles_probe {f : Roles → Roles} : (modRoles f s).probe = s.probe := rfl
@[simp] theorem modRoles_draws {f : Roles → Roles} : (modRoles f s).draws = s.draws := rfl

@[simp] theorem modEntropy_pending {f : Entropy → Entropy} : (modEntropy f s).pending = s.pending := rfl
@[simp] theorem modEntropy_otp {f : Entropy → Entropy} : (modEntropy f s).otp = s.otp := rfl
@[simp] theorem modEntropy_otpCrc {f : Entropy → Entropy} : (modEntropy f s).otpCrc = s.otpCrc := rfl
@[simp] theorem modEntropy_flash {f : Entropy → Entropy} : (modEntropy f s).flash = s.flash := rfl
@[simp] theorem modEntropy_sram {f : Entropy → Entropy} : (modEntropy f s).sram = s.sram := rfl
@[simp] theorem modEntropy_boot {f : Entropy → Entropy} : (modEntropy f s).boot = s.boot := rfl
@[simp] theorem modEntropy_lintel {f : Entropy → Entropy} : (modEntropy f s).lintel = s.lintel := rfl
@[simp] theorem modEntropy_clock {f : Entropy → Entropy} : (modEntropy f s).clock = s.clock := rfl
@[simp] theorem modEntropy_time {f : Entropy → Entropy} : (modEntropy f s).time = s.time := rfl
@[simp] theorem modEntropy_fabric {f : Entropy → Entropy} : (modEntropy f s).fabric = s.fabric := rfl
@[simp] theorem modEntropy_mason {f : Entropy → Entropy} : (modEntropy f s).mason = s.mason := rfl
@[simp] theorem modEntropy_faults {f : Entropy → Entropy} : (modEntropy f s).faults = s.faults := rfl
@[simp] theorem modEntropy_front {f : Entropy → Entropy} : (modEntropy f s).front = s.front := rfl
@[simp] theorem modEntropy_scribe {f : Entropy → Entropy} : (modEntropy f s).scribe = s.scribe := rfl
@[simp] theorem modEntropy_ftu {f : Entropy → Entropy} : (modEntropy f s).ftu = s.ftu := rfl
@[simp] theorem modEntropy_shot {f : Entropy → Entropy} : (modEntropy f s).shot = s.shot := rfl
@[simp] theorem modEntropy_temp {f : Entropy → Entropy} : (modEntropy f s).temp = s.temp := rfl
@[simp] theorem modEntropy_integ {f : Entropy → Entropy} : (modEntropy f s).integ = s.integ := rfl
@[simp] theorem modEntropy_bill {f : Entropy → Entropy} : (modEntropy f s).bill = s.bill := rfl
@[simp] theorem modEntropy_tamper {f : Entropy → Entropy} : (modEntropy f s).tamper = s.tamper := rfl
@[simp] theorem modEntropy_journal {f : Entropy → Entropy} : (modEntropy f s).journal = s.journal := rfl
@[simp] theorem modEntropy_radio {f : Entropy → Entropy} : (modEntropy f s).radio = s.radio := rfl
@[simp] theorem modEntropy_link {f : Entropy → Entropy} : (modEntropy f s).link = s.link := rfl
@[simp] theorem modEntropy_cipher {f : Entropy → Entropy} : (modEntropy f s).cipher = s.cipher := rfl
@[simp] theorem modEntropy_keys {f : Entropy → Entropy} : (modEntropy f s).keys = s.keys := rfl
@[simp] theorem modEntropy_roles {f : Entropy → Entropy} : (modEntropy f s).roles = s.roles := rfl
@[simp] theorem modEntropy_entropy {f : Entropy → Entropy} : (modEntropy f s).entropy = f s.entropy := rfl
@[simp] theorem modEntropy_lcd {f : Entropy → Entropy} : (modEntropy f s).lcd = s.lcd := rfl
@[simp] theorem modEntropy_ports {f : Entropy → Entropy} : (modEntropy f s).ports = s.ports := rfl
@[simp] theorem modEntropy_probe {f : Entropy → Entropy} : (modEntropy f s).probe = s.probe := rfl
@[simp] theorem modEntropy_draws {f : Entropy → Entropy} : (modEntropy f s).draws = s.draws := rfl

@[simp] theorem modLcd_pending {f : Lcd → Lcd} : (modLcd f s).pending = s.pending := rfl
@[simp] theorem modLcd_otp {f : Lcd → Lcd} : (modLcd f s).otp = s.otp := rfl
@[simp] theorem modLcd_otpCrc {f : Lcd → Lcd} : (modLcd f s).otpCrc = s.otpCrc := rfl
@[simp] theorem modLcd_flash {f : Lcd → Lcd} : (modLcd f s).flash = s.flash := rfl
@[simp] theorem modLcd_sram {f : Lcd → Lcd} : (modLcd f s).sram = s.sram := rfl
@[simp] theorem modLcd_boot {f : Lcd → Lcd} : (modLcd f s).boot = s.boot := rfl
@[simp] theorem modLcd_lintel {f : Lcd → Lcd} : (modLcd f s).lintel = s.lintel := rfl
@[simp] theorem modLcd_clock {f : Lcd → Lcd} : (modLcd f s).clock = s.clock := rfl
@[simp] theorem modLcd_time {f : Lcd → Lcd} : (modLcd f s).time = s.time := rfl
@[simp] theorem modLcd_fabric {f : Lcd → Lcd} : (modLcd f s).fabric = s.fabric := rfl
@[simp] theorem modLcd_mason {f : Lcd → Lcd} : (modLcd f s).mason = s.mason := rfl
@[simp] theorem modLcd_faults {f : Lcd → Lcd} : (modLcd f s).faults = s.faults := rfl
@[simp] theorem modLcd_front {f : Lcd → Lcd} : (modLcd f s).front = s.front := rfl
@[simp] theorem modLcd_scribe {f : Lcd → Lcd} : (modLcd f s).scribe = s.scribe := rfl
@[simp] theorem modLcd_ftu {f : Lcd → Lcd} : (modLcd f s).ftu = s.ftu := rfl
@[simp] theorem modLcd_shot {f : Lcd → Lcd} : (modLcd f s).shot = s.shot := rfl
@[simp] theorem modLcd_temp {f : Lcd → Lcd} : (modLcd f s).temp = s.temp := rfl
@[simp] theorem modLcd_integ {f : Lcd → Lcd} : (modLcd f s).integ = s.integ := rfl
@[simp] theorem modLcd_bill {f : Lcd → Lcd} : (modLcd f s).bill = s.bill := rfl
@[simp] theorem modLcd_tamper {f : Lcd → Lcd} : (modLcd f s).tamper = s.tamper := rfl
@[simp] theorem modLcd_journal {f : Lcd → Lcd} : (modLcd f s).journal = s.journal := rfl
@[simp] theorem modLcd_radio {f : Lcd → Lcd} : (modLcd f s).radio = s.radio := rfl
@[simp] theorem modLcd_link {f : Lcd → Lcd} : (modLcd f s).link = s.link := rfl
@[simp] theorem modLcd_cipher {f : Lcd → Lcd} : (modLcd f s).cipher = s.cipher := rfl
@[simp] theorem modLcd_keys {f : Lcd → Lcd} : (modLcd f s).keys = s.keys := rfl
@[simp] theorem modLcd_roles {f : Lcd → Lcd} : (modLcd f s).roles = s.roles := rfl
@[simp] theorem modLcd_entropy {f : Lcd → Lcd} : (modLcd f s).entropy = s.entropy := rfl
@[simp] theorem modLcd_lcd {f : Lcd → Lcd} : (modLcd f s).lcd = f s.lcd := rfl
@[simp] theorem modLcd_ports {f : Lcd → Lcd} : (modLcd f s).ports = s.ports := rfl
@[simp] theorem modLcd_probe {f : Lcd → Lcd} : (modLcd f s).probe = s.probe := rfl
@[simp] theorem modLcd_draws {f : Lcd → Lcd} : (modLcd f s).draws = s.draws := rfl

@[simp] theorem modPorts_pending {f : Ports → Ports} : (modPorts f s).pending = s.pending := rfl
@[simp] theorem modPorts_otp {f : Ports → Ports} : (modPorts f s).otp = s.otp := rfl
@[simp] theorem modPorts_otpCrc {f : Ports → Ports} : (modPorts f s).otpCrc = s.otpCrc := rfl
@[simp] theorem modPorts_flash {f : Ports → Ports} : (modPorts f s).flash = s.flash := rfl
@[simp] theorem modPorts_sram {f : Ports → Ports} : (modPorts f s).sram = s.sram := rfl
@[simp] theorem modPorts_boot {f : Ports → Ports} : (modPorts f s).boot = s.boot := rfl
@[simp] theorem modPorts_lintel {f : Ports → Ports} : (modPorts f s).lintel = s.lintel := rfl
@[simp] theorem modPorts_clock {f : Ports → Ports} : (modPorts f s).clock = s.clock := rfl
@[simp] theorem modPorts_time {f : Ports → Ports} : (modPorts f s).time = s.time := rfl
@[simp] theorem modPorts_fabric {f : Ports → Ports} : (modPorts f s).fabric = s.fabric := rfl
@[simp] theorem modPorts_mason {f : Ports → Ports} : (modPorts f s).mason = s.mason := rfl
@[simp] theorem modPorts_faults {f : Ports → Ports} : (modPorts f s).faults = s.faults := rfl
@[simp] theorem modPorts_front {f : Ports → Ports} : (modPorts f s).front = s.front := rfl
@[simp] theorem modPorts_scribe {f : Ports → Ports} : (modPorts f s).scribe = s.scribe := rfl
@[simp] theorem modPorts_ftu {f : Ports → Ports} : (modPorts f s).ftu = s.ftu := rfl
@[simp] theorem modPorts_shot {f : Ports → Ports} : (modPorts f s).shot = s.shot := rfl
@[simp] theorem modPorts_temp {f : Ports → Ports} : (modPorts f s).temp = s.temp := rfl
@[simp] theorem modPorts_integ {f : Ports → Ports} : (modPorts f s).integ = s.integ := rfl
@[simp] theorem modPorts_bill {f : Ports → Ports} : (modPorts f s).bill = s.bill := rfl
@[simp] theorem modPorts_tamper {f : Ports → Ports} : (modPorts f s).tamper = s.tamper := rfl
@[simp] theorem modPorts_journal {f : Ports → Ports} : (modPorts f s).journal = s.journal := rfl
@[simp] theorem modPorts_radio {f : Ports → Ports} : (modPorts f s).radio = s.radio := rfl
@[simp] theorem modPorts_link {f : Ports → Ports} : (modPorts f s).link = s.link := rfl
@[simp] theorem modPorts_cipher {f : Ports → Ports} : (modPorts f s).cipher = s.cipher := rfl
@[simp] theorem modPorts_keys {f : Ports → Ports} : (modPorts f s).keys = s.keys := rfl
@[simp] theorem modPorts_roles {f : Ports → Ports} : (modPorts f s).roles = s.roles := rfl
@[simp] theorem modPorts_entropy {f : Ports → Ports} : (modPorts f s).entropy = s.entropy := rfl
@[simp] theorem modPorts_lcd {f : Ports → Ports} : (modPorts f s).lcd = s.lcd := rfl
@[simp] theorem modPorts_ports {f : Ports → Ports} : (modPorts f s).ports = f s.ports := rfl
@[simp] theorem modPorts_probe {f : Ports → Ports} : (modPorts f s).probe = s.probe := rfl
@[simp] theorem modPorts_draws {f : Ports → Ports} : (modPorts f s).draws = s.draws := rfl

@[simp] theorem modProbe_pending {f : Debug → Debug} : (modProbe f s).pending = s.pending := rfl
@[simp] theorem modProbe_otp {f : Debug → Debug} : (modProbe f s).otp = s.otp := rfl
@[simp] theorem modProbe_otpCrc {f : Debug → Debug} : (modProbe f s).otpCrc = s.otpCrc := rfl
@[simp] theorem modProbe_flash {f : Debug → Debug} : (modProbe f s).flash = s.flash := rfl
@[simp] theorem modProbe_sram {f : Debug → Debug} : (modProbe f s).sram = s.sram := rfl
@[simp] theorem modProbe_boot {f : Debug → Debug} : (modProbe f s).boot = s.boot := rfl
@[simp] theorem modProbe_lintel {f : Debug → Debug} : (modProbe f s).lintel = s.lintel := rfl
@[simp] theorem modProbe_clock {f : Debug → Debug} : (modProbe f s).clock = s.clock := rfl
@[simp] theorem modProbe_time {f : Debug → Debug} : (modProbe f s).time = s.time := rfl
@[simp] theorem modProbe_fabric {f : Debug → Debug} : (modProbe f s).fabric = s.fabric := rfl
@[simp] theorem modProbe_mason {f : Debug → Debug} : (modProbe f s).mason = s.mason := rfl
@[simp] theorem modProbe_faults {f : Debug → Debug} : (modProbe f s).faults = s.faults := rfl
@[simp] theorem modProbe_front {f : Debug → Debug} : (modProbe f s).front = s.front := rfl
@[simp] theorem modProbe_scribe {f : Debug → Debug} : (modProbe f s).scribe = s.scribe := rfl
@[simp] theorem modProbe_ftu {f : Debug → Debug} : (modProbe f s).ftu = s.ftu := rfl
@[simp] theorem modProbe_shot {f : Debug → Debug} : (modProbe f s).shot = s.shot := rfl
@[simp] theorem modProbe_temp {f : Debug → Debug} : (modProbe f s).temp = s.temp := rfl
@[simp] theorem modProbe_integ {f : Debug → Debug} : (modProbe f s).integ = s.integ := rfl
@[simp] theorem modProbe_bill {f : Debug → Debug} : (modProbe f s).bill = s.bill := rfl
@[simp] theorem modProbe_tamper {f : Debug → Debug} : (modProbe f s).tamper = s.tamper := rfl
@[simp] theorem modProbe_journal {f : Debug → Debug} : (modProbe f s).journal = s.journal := rfl
@[simp] theorem modProbe_radio {f : Debug → Debug} : (modProbe f s).radio = s.radio := rfl
@[simp] theorem modProbe_link {f : Debug → Debug} : (modProbe f s).link = s.link := rfl
@[simp] theorem modProbe_cipher {f : Debug → Debug} : (modProbe f s).cipher = s.cipher := rfl
@[simp] theorem modProbe_keys {f : Debug → Debug} : (modProbe f s).keys = s.keys := rfl
@[simp] theorem modProbe_roles {f : Debug → Debug} : (modProbe f s).roles = s.roles := rfl
@[simp] theorem modProbe_entropy {f : Debug → Debug} : (modProbe f s).entropy = s.entropy := rfl
@[simp] theorem modProbe_lcd {f : Debug → Debug} : (modProbe f s).lcd = s.lcd := rfl
@[simp] theorem modProbe_ports {f : Debug → Debug} : (modProbe f s).ports = s.ports := rfl
@[simp] theorem modProbe_probe {f : Debug → Debug} : (modProbe f s).probe = f s.probe := rfl
@[simp] theorem modProbe_draws {f : Debug → Debug} : (modProbe f s).draws = s.draws := rfl

@[simp] theorem modGov_pending {f : Governor → Governor} : (modGov f s).pending = s.pending := rfl
@[simp] theorem modGov_otp {f : Governor → Governor} : (modGov f s).otp = s.otp := rfl
@[simp] theorem modGov_otpCrc {f : Governor → Governor} : (modGov f s).otpCrc = s.otpCrc := rfl
@[simp] theorem modGov_flash {f : Governor → Governor} : (modGov f s).flash = s.flash := rfl
@[simp] theorem modGov_sram {f : Governor → Governor} : (modGov f s).sram = s.sram := rfl
@[simp] theorem modGov_boot {f : Governor → Governor} : (modGov f s).boot = s.boot := rfl
@[simp] theorem modGov_lintel {f : Governor → Governor} : (modGov f s).lintel = { s.lintel with gov := f s.lintel.gov } := rfl
@[simp] theorem modGov_clock {f : Governor → Governor} : (modGov f s).clock = s.clock := rfl
@[simp] theorem modGov_time {f : Governor → Governor} : (modGov f s).time = s.time := rfl
@[simp] theorem modGov_fabric {f : Governor → Governor} : (modGov f s).fabric = s.fabric := rfl
@[simp] theorem modGov_mason {f : Governor → Governor} : (modGov f s).mason = s.mason := rfl
@[simp] theorem modGov_faults {f : Governor → Governor} : (modGov f s).faults = s.faults := rfl
@[simp] theorem modGov_front {f : Governor → Governor} : (modGov f s).front = s.front := rfl
@[simp] theorem modGov_scribe {f : Governor → Governor} : (modGov f s).scribe = s.scribe := rfl
@[simp] theorem modGov_ftu {f : Governor → Governor} : (modGov f s).ftu = s.ftu := rfl
@[simp] theorem modGov_shot {f : Governor → Governor} : (modGov f s).shot = s.shot := rfl
@[simp] theorem modGov_temp {f : Governor → Governor} : (modGov f s).temp = s.temp := rfl
@[simp] theorem modGov_integ {f : Governor → Governor} : (modGov f s).integ = s.integ := rfl
@[simp] theorem modGov_bill {f : Governor → Governor} : (modGov f s).bill = s.bill := rfl
@[simp] theorem modGov_tamper {f : Governor → Governor} : (modGov f s).tamper = s.tamper := rfl
@[simp] theorem modGov_journal {f : Governor → Governor} : (modGov f s).journal = s.journal := rfl
@[simp] theorem modGov_radio {f : Governor → Governor} : (modGov f s).radio = s.radio := rfl
@[simp] theorem modGov_link {f : Governor → Governor} : (modGov f s).link = s.link := rfl
@[simp] theorem modGov_cipher {f : Governor → Governor} : (modGov f s).cipher = s.cipher := rfl
@[simp] theorem modGov_keys {f : Governor → Governor} : (modGov f s).keys = s.keys := rfl
@[simp] theorem modGov_roles {f : Governor → Governor} : (modGov f s).roles = s.roles := rfl
@[simp] theorem modGov_entropy {f : Governor → Governor} : (modGov f s).entropy = s.entropy := rfl
@[simp] theorem modGov_lcd {f : Governor → Governor} : (modGov f s).lcd = s.lcd := rfl
@[simp] theorem modGov_ports {f : Governor → Governor} : (modGov f s).ports = s.ports := rfl
@[simp] theorem modGov_probe {f : Governor → Governor} : (modGov f s).probe = s.probe := rfl
@[simp] theorem modGov_draws {f : Governor → Governor} : (modGov f s).draws = s.draws := rfl

@[simp] theorem drew_pending {n : Nat} : (drew n s).pending = s.pending := rfl
@[simp] theorem drew_otp {n : Nat} : (drew n s).otp = s.otp := rfl
@[simp] theorem drew_otpCrc {n : Nat} : (drew n s).otpCrc = s.otpCrc := rfl
@[simp] theorem drew_flash {n : Nat} : (drew n s).flash = s.flash := rfl
@[simp] theorem drew_sram {n : Nat} : (drew n s).sram = s.sram := rfl
@[simp] theorem drew_boot {n : Nat} : (drew n s).boot = s.boot := rfl
@[simp] theorem drew_lintel {n : Nat} : (drew n s).lintel = s.lintel := rfl
@[simp] theorem drew_clock {n : Nat} : (drew n s).clock = s.clock := rfl
@[simp] theorem drew_time {n : Nat} : (drew n s).time = s.time := rfl
@[simp] theorem drew_fabric {n : Nat} : (drew n s).fabric = s.fabric := rfl
@[simp] theorem drew_mason {n : Nat} : (drew n s).mason = s.mason := rfl
@[simp] theorem drew_faults {n : Nat} : (drew n s).faults = s.faults := rfl
@[simp] theorem drew_front {n : Nat} : (drew n s).front = s.front := rfl
@[simp] theorem drew_scribe {n : Nat} : (drew n s).scribe = s.scribe := rfl
@[simp] theorem drew_ftu {n : Nat} : (drew n s).ftu = s.ftu := rfl
@[simp] theorem drew_shot {n : Nat} : (drew n s).shot = s.shot := rfl
@[simp] theorem drew_temp {n : Nat} : (drew n s).temp = s.temp := rfl
@[simp] theorem drew_integ {n : Nat} : (drew n s).integ = s.integ := rfl
@[simp] theorem drew_bill {n : Nat} : (drew n s).bill = s.bill := rfl
@[simp] theorem drew_tamper {n : Nat} : (drew n s).tamper = s.tamper := rfl
@[simp] theorem drew_journal {n : Nat} : (drew n s).journal = s.journal := rfl
@[simp] theorem drew_radio {n : Nat} : (drew n s).radio = s.radio := rfl
@[simp] theorem drew_link {n : Nat} : (drew n s).link = s.link := rfl
@[simp] theorem drew_cipher {n : Nat} : (drew n s).cipher = s.cipher := rfl
@[simp] theorem drew_keys {n : Nat} : (drew n s).keys = s.keys := rfl
@[simp] theorem drew_roles {n : Nat} : (drew n s).roles = s.roles := rfl
@[simp] theorem drew_entropy {n : Nat} : (drew n s).entropy = s.entropy := rfl
@[simp] theorem drew_lcd {n : Nat} : (drew n s).lcd = s.lcd := rfl
@[simp] theorem drew_ports {n : Nat} : (drew n s).ports = s.ports := rfl
@[simp] theorem drew_probe {n : Nat} : (drew n s).probe = s.probe := rfl
@[simp] theorem drew_draws {n : Nat} : (drew n s).draws = s.draws + n := rfl

end Sys2Proof.Machine
end

