-- ==== Sys2Proof/Safety.lean ====
section
/-! DEFINITION. What a safe step is, and the words in which statements are made: a register write that nothing hinders and
what it leaves, and a state in which nothing follows from the cycle. -/

namespace Sys2Proof

open Sys2Proof.Machine

/-- An outcome that is a next state. -/
def answers (o : Host.Outcome State Fault Refusal) : Bool :=
  match o with
  | .next _ => true
  | .fault _ => false
  | .refused _ => false

/-- The step at a state ends in a next state. -/
def SafeStep (s : State) : Prop := answers (step s) = true

/-- The voltages that a supply command reports lie within Table 18.5 (R605); the other commands report none. -/
def withinRatings (c : Instr) : Bool :=
  match c with
  | .vbatFall mv => vbatRated mv
  | .vbatRise mv _ => vbatRated mv
  | .vioFall mv => vioRated mv
  | .vioRise mv _ => vioRated mv
  | .vaonSourceSwitch vbat vbak _ => vbatRated vbat && vbakRated vbak
  | .vbakLowChange mv => vbakRated mv
  | .vbatReversal mv => vbatRated mv
  | .vbatMeasure vbat vbak _ => vbatRated vbat && vbakRated vbak
  | .vbatRecovery mv => vbatRated mv
  | .flashBrownout mv => vbatRated mv
  | _ => true

/-- Nothing hinders a write of one word (R17, R487, R500, R524, R527, R564, R569): the main domain runs, the word is
mapped and answers, the chip is not grave, the role may write it, no master of higher rank writes it in the same fabric
cycle, the strict audit does not refuse it, and its block is not fenced. -/
def WriteOpen (s : State) (w : WriteCtx) (addr : Nat) : Prop :=
  s.lintel.mainOn = true ∧ busyAt s (place addr) = false ∧ place addr ≠ .unmapped ∧ s.faults.grave = false
  ∧ mayWrite (portRequest w.master s) w.master (roleOf s w.master) (place addr) = true ∧ rivalOf w addr = none
  ∧ (strictWord (place addr) && strictRefused (portRequest w.master s)) = false
  ∧ writeFenced (portRequest w.master s) (place addr) = false

/-- The master and role of a write. -/
def writer (s : State) (w : WriteCtx) : Actor := ⟨w.master, roleOf s w.master⟩

/-- What a write leaves that completes with `st` and whose effect, on the state with the port's request noted, is `t`:
the audit record of the word before and after (R498). -/
def answered (st : Status) (s : State) (w : WriteCtx) (addr : Nat) (t : State) : State :=
  auditWrite (writer s w) addr (regWord (portRequest w.master s) w.master (roleOf s w.master) addr)
    (regWord t w.master (roleOf s w.master) addr) st t

/-- What a write leaves that completes DONE. -/
def written (s : State) (w : WriteCtx) (addr : Nat) (t : State) : State := answered .done s w addr t

/-- What a write leaves that is turned away REFUSED_POLICY and has no effect but its record. -/
def turnedAway (s : State) (w : WriteCtx) (addr : Nat) : State :=
  answered .refusedPolicy s w addr (portRequest w.master s)

/-- Nothing follows from a state at the end of a cycle: no consequence waits, the halt has a session of level 2, the link
has followed its plan, the journal waits for no lock or supply, and ALIVE is low where a source asks for it. -/
def Quiet (s : State) : Prop :=
  s.faults.todo = [] ∧ debugSync s = s ∧ linkSync s = s ∧ journalLock s = s ∧ grantPeak s = s ∧ aliveSync s = s

end Sys2Proof
end

