-- ==== Sys2Proof/Certificates/Slice0/Obligations.lean ====
section
/-! DEFINITION. The statements for the provers: one proposition each, listed in OBLIGATIONS.json. Where a statement says
what a command answers, it names the state before the consequences of the cycle; `settle` takes those (R514 to R524), and
`QuietStateIsSettled` says when there are none. -/

open Sys2Proof Sys2Proof.Machine

/-! ### Rules stated whole -/

/-- R16: the clock-quality code of a record is the highest code of Table 0.4 whose condition (R100) holds, and every
record built carries it at its place: amendment, snapshot, tamper, audit, event, profile, fault and counter
records. -/
def Obligations.HighestQualityCode : Prop :=
  ∀ (s : State) (stream : Nat),
    let unset := 400 * 86400 < s.time.sinceSet / 32768 ∧ s.time.invalid = false
    let stepped := 60 * 32768 < nth s.time.stepSums stream
    let lost := s.time.invalid = true
    let holds := fun (code : Nat) => (code = 0 ∧ ¬ unset ∧ ¬ stepped ∧ ¬ lost) ∨ (code = 1 ∧ unset) ∨ (code = 2 ∧ stepped)
      ∨ (code = 3 ∧ lost)
    let carried := fun (n : Nat) => BitVec.ofNat 8 (quality s n)
    holds (quality s stream) ∧ (∀ code, holds code → code ≤ quality s stream)
    ∧ (∀ header mac st port kind, header.length = 32 → mac.length = 16 → ∃ rec,
      writeAmendment header mac st port kind s
        = submitRecord (if kind = 4 then 0x00 else 0x08) 0 rec (clearStepSum 0 s) ∧ rec.getD 58 0 = carried 0)
    ∧ (∀ reason key skipped, (snapshot s reason key skipped).getD 2 0 = carried 1)
    ∧ (∀ e, (tamperRecord s e).getD 3 0 = carried 2)
    ∧ (∀ a seq queued, (auditBytes s a seq queued).reverse.getD 2 0 = carried 3)
    ∧ (∀ type body, (eventRecord s type body).getD 1 0 = carried 4)
    ∧ (loadProfile s).getD 1 0 = carried 5
    ∧ (∀ src set, (histRecord s src set).getD 24 0 = carried 6)
    ∧ ∀ master kind slot counter peer, ∃ rec,
      writeCounter master kind slot counter peer s = submitRecord master 7 rec (clearStepSum 7 s) ∧ rec.getD 3 0 = carried 7

/-- R17: of two writes of one item in one fabric cycle that of the higher-ranked master is applied; the other leaves
everything but its counter, SET_STATUS.LAST and its audit record as it was, and completes CONFLICT_LOST with the
winner's master. A descriptor's staging words are no shared item: each master has its own. -/
def Obligations.HigherRankedWriteWins : Prop :=
  ∀ (s : State) (w : WriteCtx) (addr role m : Nat) (v : Word) (o : WriteObs), place addr ≠ .unmapped →
    s.faults.grave = false → mayWrite s w.master role (place addr) = true →
    let audited := fun (st : Status) (t : State) =>
      auditWrite ⟨w.master, role⟩ addr (regWord s w.master role addr)
        (regWord (noteSetCtrl (place addr) st t) w.master role addr) st (noteSetCtrl (place addr) st t)
    let e := writeEffect o ⟨w.master, role⟩ (place addr) v s
    (rivalOf w addr = some m → (∃ r ∈ w.rivals, r.1 = m ∧ r.2 = addr / 4) ∧ masterRank m < masterRank w.master)
    ∧ (rivalOf w addr = none → (∀ off, place addr = .queue off → 0x20 ≤ off % 0x40) →
      ∀ r ∈ w.rivals, r.2 = addr / 4 → masterRank w.master ≤ masterRank r.1)
    ∧ (rivalOf w addr = some m → writeWord o w role addr v s =
      (audited .conflictLost (modFabric (fun f => { f with conflicts := satInc f.conflicts }) s), .conflictLost, m))
    ∧ (rivalOf w addr = none → (strictWord (place addr) && strictRefused s) = false → writeFenced s (place addr) = false →
      writeWord o w role addr v s = (audited e.2 e.1, e.2, 0))

/-- R30: the chip is sealed when two or more bits of the seal byte read 1, and not with fewer; a seal command that is
done, on a byte whose bits all take their program, leaves all eight bits 1. -/
def Obligations.SealByte : Prop :=
  ∀ s t : State,
    (isSealed s = true ↔ ∃ i j, i < j ∧ j < 8 ∧ (s.otp.get 0 0x140).getLsbD i = true
      ∧ (s.otp.get 0 0x140).getLsbD j = true)
    ∧ ∀ (metro : Word) (stuck : List (Nat × Byte)), stuck.find? (fun x => x.1 == 0x140) = none →
      sealEffect metro stuck s = (t, .done) → t.otp.get 0 0x140 = 0xFF

/-- R531: with ALIVE_EN = 0 the output ALIVE is low, and with FLTN_EN = 0 FLT_N is released, in every state. -/
def Obligations.DisabledPins : Prop :=
  ∀ s : State, ((items s).fault.aliveEn = 0 → aliveHigh s = false) ∧ ((items s).fault.fltnEn = 0 → fltLow s = false)

/-! ### The queue and the step -/

/-- A step runs the command at the front of the queue with the queue's rest; on an empty queue the block idles (the
model's choice, log 1). -/
def Obligations.StepRunsFrontCommand : Prop :=
  (∀ (c : Instr) (rest : List Instr) (s : State), s.pending = c :: rest → step s = exec c { s with pending := rest })
  ∧ (∀ s : State, s.pending = [] → step s = .next s)

/-- Every command answers a next state, but where a supply command reports a voltage outside the absolute limits; then
it ends in the fault `outsideRatings` (R605: outside them no statement of the manual holds). None touches the
queue: the commands that wait stay as they were. -/
def Obligations.EveryCommandAnswers : Prop :=
  (∀ (c : Instr) (s : State),
    (withinRatings c = true → ∃ t, exec c s = .next t)
    ∧ (withinRatings c = false → exec c s = .fault .outsideRatings))
  ∧ (∀ (c : Instr) (s t : State), exec c s = .next t → t.pending = s.pending)

/-! ### Whole-machine rules -/

/-- State.reset lists no byte of OTP, its companions, the flash and the work SRAM, has no command waiting, RETLOST
set, the main domain off, no GRAVE latch and ALIVE low (the model's choices, log 3). -/
def Obligations.ResetState : Prop :=
  Memory.wf State.reset = true ∧ State.reset.pending = [] ∧ State.reset.lintel.retlost = true
  ∧ State.reset.lintel.mainOn = false ∧ State.reset.faults.grave = false ∧ State.reset.faults.alive = false

/-- Every step keeps the canonical form of the OTP array, its companions, the flash and the work SRAM. -/
def Obligations.StepKeepsMemoryForm : Prop :=
  ∀ s t : State, Memory.wf s = true → step s = .next t → Memory.wf t = true

/-- Over every command that answers a next state, a bit of the OTP array that reads 1 before it reads 1 after it. -/
def Obligations.OtpBitsStay : Prop :=
  ∀ (c : Instr) (s t : State) (a i : Nat), exec c s = .next t →
    (s.otp.get 0 a).getLsbD i = true → (t.otp.get 0 a).getLsbD i = true

/-- Over every command that answers a next state, a chip that is sealed before it is sealed after it. -/
def Obligations.NoCommandUnseals : Prop :=
  ∀ (c : Instr) (s t : State), exec c s = .next t → isSealed s = true → isSealed t = true

/-- Every command that answers a next state leaves DT as it was, but for the tick, the time set, the crystal's make-
up, the starts (VBAT_RISE, VIO_RISE, RESET_N_PULSE, WATCHDOG_EXPIRY), VAON_POWER_ON and the commands that can end
a mount (MOUNT, FLASH_OP_READY, COMMIT_SETTLE_END). -/
def Obligations.DtChangesOnlyByTime : Prop :=
  ∀ (c : Instr) (s t : State), exec c s = .next t →
    (match c with
     | .d04Tick | .timeSetApply | .xlFailDetect _ | .vbatRise _ _ | .vioRise _ _ | .resetNPulse _ _ _ _
     | .watchdogExpiry _ _ | .vaonPowerOn | .mount _ _ _ | .flashOpReady _ | .commitSettleEnd _ => True
     | _ => t.time.dt = s.time.dt)

/-- On a chip that is not bare, every command that answers a next state leaves the running configuration as it was,
but for the starts (VBAT_RISE, VIO_RISE, RESET_N_PULSE, WATCHDOG_EXPIRY), VAON_POWER_ON, STAGE_TIMEOUT and
RESEAT_LOCK. -/
def Obligations.ConfigurationChangesOnlyAtStartAndReseat : Prop :=
  ∀ (c : Instr) (s t : State), s.boot.bare = false → exec c s = .next t →
    (match c with
     | .vbatRise _ _ | .vioRise _ _ | .resetNPulse _ _ _ _ | .watchdogExpiry _ _ | .vaonPowerOn | .stageTimeout
     | .reseatLock _ _ => True
     | _ => t.boot.img = s.boot.img)

/-- No command but VBAT_FALL, VIO_FALL and VAON_POWER_ON takes the chip from the grave state to a state whose GRAVE
latch is clear. -/
def Obligations.GraveClearsOnlyByPowerLoss : Prop :=
  ∀ (c : Instr) (s t : State), s.faults.grave = true → exec c s = .next t → t.faults.grave = false →
    (match c with
     | .vbatFall _ | .vioFall _ | .vaonPowerOn => True
     | _ => False)

/-- On a chip that is not bare, a block's FENCED bit that is set stays set over every command that answers a next
state, but for VBAT_FALL, VIO_FALL, the starts (VBAT_RISE, VIO_RISE, RESET_N_PULSE, WATCHDOG_EXPIRY),
VAON_POWER_ON and STAGE_TIMEOUT. -/
def Obligations.FenceHoldsUntilBringUp : Prop :=
  ∀ (c : Instr) (s t : State) (b : Block), s.boot.bare = false → exec c s = .next t →
    (winOf s b).fenced = true →
    (match c with
     | .vbatFall _ | .vioFall _ | .vbatRise _ _ | .vioRise _ _ | .resetNPulse _ _ _ _ | .watchdogExpiry _ _
     | .vaonPowerOn | .stageTimeout => True
     | _ => (winOf t b).fenced = true)

/-- No command but the starts (VBAT_RISE, VIO_RISE, RESET_N_PULSE, WATCHDOG_EXPIRY) and those that can end a mount
(MOUNT, FLASH_OP_READY, COMMIT_SETTLE_END) takes the chip from a state with RETLOST set to one with RETLOST clear. -/
def Obligations.RetlostClearsOnlyAtBringUp : Prop :=
  ∀ (c : Instr) (s t : State), s.lintel.retlost = true → exec c s = .next t → t.lintel.retlost = false →
    (match c with
     | .vbatRise _ _ | .vioRise _ _ | .resetNPulse _ _ _ _ | .watchdogExpiry _ _ | .mount _ _ _ | .flashOpReady _
     | .commitSettleEnd _ => True
     | _ => False)

/-- In the next state that any command answers, the output ALIVE is low and does not run where a source of class B, C
or D is raised in some block, or where the chip is grave. -/
def Obligations.AliveLowWhileDegraded : Prop :=
  ∀ (c : Instr) (s t : State), exec c s = .next t → degraded t = true ∨ t.faults.grave = true →
    t.faults.alive = false ∧ t.faults.aliveRun = false

/-- The end of a command's cycle, settle, leaves a quiet state as it is: one in which no consequence waits and the
debug session, the link's plan, the journal's lock and supply and ALIVE ask for nothing. -/
def Obligations.QuietStateIsSettled : Prop :=
  ∀ s : State, Quiet s → settle s = s

/-! ### Supplies, starts and clocks (chapter 2) -/

/-- VBAT and VIO (R66, R67, R604): a fall of VBAT below 2.00 V, or of VIO below 1.58 V, while that supply was there
takes a main domain that is on off. A rise of VBAT to 2.10 V or more, or of VIO to 1.62 V or more, while that
supply was not there brings the main domain up if the other supply is there; a VAON that touches VRET in the same
instant sets RETLOST where VIO is not there yet (R72). Any other change within the ratings of Table 18.5 changes
nothing.

What the main domain loses when it goes off (R67, R68): every job and the work SRAM; device time, OTP, the flash's
bytes outside an operation that was cut off, and RETLOST stay. -/
def Obligations.SupplyThresholds : Prop :=
  (∀ (s : State) (mv : Int) (o : BootObs), vbatRated mv = true →
    let off := fun (t : State) => if t.lintel.mainOn = true then mainOff t else t
    exec (.vbatFall mv) s = .next (settle (if s.lintel.vbatOk = true ∧ mv < 2000 then
        off (modLintel (fun l => { l with vbatOk := false }) s) else s))
    ∧ exec (.vbatRise mv o) s = .next (settle (if s.lintel.vbatOk = false ∧ 2100 ≤ mv then
        let t := modLintel (fun l => { l with vbatOk := true, reversedNow := false }) s
        if s.lintel.vioOk = true then bringUp .power { o with vbatMv := satNat 16 mv.toNat } t
        else if o.vretTouch = true then
          modFaults (fun f => { f with d05Halves := 0 }) (modLintel (fun l => { l with retlost := true }) t)
        else t
      else s))
    ∧ exec (.vioFall mv) s = .next (settle (if s.lintel.vioOk = true ∧ mv < 1580 then
        off (modLintel (fun l => { l with vioOk := false }) s) else s))
    ∧ exec (.vioRise mv o) s = .next (settle (if s.lintel.vioOk = false ∧ 1620 ≤ mv then
        let t := modLintel (fun l => { l with vioOk := true }) s
        if s.lintel.vbatOk = true then bringUp .power o t else t
      else s)))
  ∧ (∀ s : State, s.journal.op = .none →
    (mainOff s).fabric.jobs = [] ∧ (mainOff s).sram = [] ∧ (mainOff s).lintel.mainOn = false
    ∧ (mainOff s).boot.running = false ∧ (mainOff s).time.dt = s.time.dt ∧ (mainOff s).time.ticks = s.time.ticks
    ∧ (mainOff s).otp = s.otp ∧ (mainOff s).flash = s.flash ∧ (mainOff s).lintel.retlost = s.lintel.retlost
    ∧ (mainOff s).tamper = s.tamper ∧ (mainOff s).bill.slots = s.bill.slots ∧ (mainOff s).integ.copies = s.integ.copies)

/-- RESET_N, the watchdog and a stage that exceeds its maximum (R40, R95, R527, R602, R610): on a chip that is on and
not grave, a pulse of 10 µs or more (or one of 2 µs or more that the chip takes) resets the main domain, unless a
supply falls in the same cycle; any other pulse changes nothing. A watchdog not kicked within WDOG_PERIOD, in a
chip that runs, is not grave and does not pause it, resets it too. A stage from 0x1 to 0x8 that exceeds its
maximum makes the chip bare with reason 4. Where these conditions do not hold, the watchdog and the stage timeout
change nothing. -/
def Obligations.ResetsAndStageTimeout : Prop :=
  ∀ (s : State) (us : Nat) (taken fall : Bool) (o : BootObs),
    exec (.resetNPulse us taken fall o) s = .next (settle (
      if s.lintel.mainOn = true ∧ s.faults.grave = false ∧ fall = false ∧ (10 ≤ us ∨ (2 ≤ us ∧ taken = true))
      then bringUp .pin o (mainOff s) else s))
    ∧ exec (.watchdogExpiry fall o) s = .next (settle (
      if s.boot.running = true ∧ s.faults.grave = false ∧ s.clock.wdogPaused = false ∧ fall = false
          ∧ passed s s.clock.kickAt (secTicks (items s).power.wdogPeriod) = true
      then bringUp .wdog o (mainOff s) else s))
    ∧ exec .stageTimeout s = .next (settle (
      if s.lintel.mainOn = true ∧ s.boot.bare = false ∧ s.boot.running = false ∧ within 1 8 s.boot.stage = true
          ∧ passed s s.boot.stageSince (msTicks (stageMaxMs s.boot.stage)) = true
      then enterBare 4 s else s))

/-- The AON supply (R64, R66, R69, R70, R74): VAON changes source where VBAT is 30 mV below VBAK, and back where it is
30 mV above it; the switch is counted, a dip above 150 mV raises SWITCH_DIP, and one that takes VAON to 1.55 V or
less touches VRET. VAON at VRET sets RETLOST and starts the D05 counter again. VBAK_LOW sets below 1.80 V and
clears at 1.85 V, and its source follows where a backup cell is fitted. A VBAT below −0.3 V while VBAK feeds VAON
and VBAT_OK is 0 is latched and raises VBAT_REVERSED. A VAON that comes up from nothing, with the main domain off,
starts with RETLOST set, device time 0, no key in a slot and the D05 counter at 0; OTP and the flash are as they
were. -/
def Obligations.AonSupply : Prop :=
  ∀ (s : State) (vbat vbak : Int) (dip : Nat), vbatRated vbat = true → vbakRated vbak = true →
    let touch := fun (t : State) => modFaults (fun f => { f with d05Halves := 0 })
      (modLintel (fun l => { l with retlost := true }) t)
    let before := if s.lintel.srcVbak = true then vbak else vbat
    let switched := raiseIf (decide (150 < dip)) Src.switchDip
      (modLintel (fun l => { l with srcVbak := !l.srcVbak, switches := satInc l.switches }) s)
    let low := if s.lintel.vbakLow = true then decide (vbak < 1850) else decide (vbak < 1800)
    let judged := modLintel (fun l => { l with
      vbakLow := low, vbakMv := if l.mainOn = true then satNat 16 vbak.toNat else l.vbakMv }) s
    exec (.vaonSourceSwitch vbat vbak dip) s = .next (settle (
      if (s.lintel.srcVbak = true ∧ vbak + 30 ≤ vbat) ∨ (s.lintel.srcVbak = false ∧ vbat ≤ vbak - 30) then
        if before - dip ≤ 1550 then touch switched else switched
      else s))
    ∧ exec .vaonTouchesVret s = .next (settle (touch s))
    ∧ exec (.vbakLowChange vbak) s = .next (settle (
      if (items s).power.bakFitted = 1 then setLevel Src.vbakLow low judged else judged))
    ∧ exec (.vbatReversal vbat) s = .next (settle (
      if vbat < -300 ∧ s.lintel.srcVbak = true ∧ s.lintel.vbatOk = false then
        raise Src.vbatReversed (modLintel (fun l => { l with revLatch := true, reversedNow := true }) s)
      else s))
    ∧ (s.lintel.mainOn = false → ∃ t, exec .vaonPowerOn s = .next (settle t) ∧ t.otp = s.otp ∧ t.flash = s.flash
      ∧ t.lintel.retlost = true ∧ t.time.dt = 0 ∧ t.faults.d05Halves = 0 ∧ t.keys = {} ∧ t.sram = [])
    ∧ (s.lintel.mainOn = true → exec .vaonPowerOn s = .next (settle s))

/-- Loaded VBAT (R80 to R82): a measurement that falls due is shown, its charge counted, and above FLASH_MIN + 100 mV
what waits for the flash limit is released. A recovery above TX_MIN + 100 mV releases a held transmitter. A VBAT
below TX_MIN in a transmission ends it, holds the transmitter and ends its job BROWNOUT. A VBAT below FLASH_MIN in
a program or erase cuts that operation off, part of its bytes written: a STAGE that it belongs to is given up; the
page in the pending slot waits there, and its work is dropped; a mount waits; any other journal job's work is
dropped and the job ends BROWNOUT, but a WRITE, whose records fill the slot.

The governor's day (R84, R616): a day of D04 counted moves DAY_INDEX in every state. The roll is evaluated where
rolls run and none is held, and held otherwise, up to 255. Each roll that is evaluated goes with the wear loop,
unless the journal is fenced (R361). A chip that runs then rolls the relay's day and marks the segment check due
while the display runs. Held rolls are evaluated after the mount, in day order. -/
def Obligations.LoadedVbat : Prop :=
  (∀ (s : State) (vbat vbak mv : Nat) (c : Charge),
    (vbatRated vbat = true → vbakRated vbak = true → s.lintel.mainOn = true → measureDue s = true →
      exec (.vbatMeasure vbat vbak c) s = .next (settle (takeCharge c
        (modLintel (fun l => { l with vbakMv := vbak, measuredAt := s.time.ticks }) (takeVbat vbat s)))))
    ∧ (vbatRated mv = true → s.lintel.mainOn = true →
      exec (.vbatRecovery mv) s = .next (settle (modLintel (fun l => { l with
        txHeld := if (items s).power.txMin + 100 < mv then false else l.txHeld }) (takeVbat mv s))))
    ∧ (inPhase s .onAir = true → s.radio.act.kind.transmits = true → mv < (items s).power.txMin →
      let ended := modLintel (fun l => { l with txHeld := true, vbatMv := mv, minLoaded := mv }) (synthGood (endAct s))
      (s.radio.act.job = none → exec (.txBrownout mv) s = .next (settle ended))
      ∧ ∀ id, s.radio.act.job = some id →
        (ctxOf ended id = none → exec (.txBrownout mv) s = .next (settle ended))
        ∧ ∀ x, ctxOf ended id = some x → exec (.txBrownout mv) s = .next (settle (leaveCtx id
          { status := .brownout, qflags := 2 * b2n x.interfered, result := x.result } ended)))
    ∧ (vbatRated mv = true → s.lintel.peak = .program ∨ s.lintel.peak = .erase → mv < (items s).power.flashMin →
      let seen := takeVbat mv s
      let cut := cutOp seen
      let mounts := mountWorks seen
      let own := (seen.journal.pend.map (·.own)).getD false
      (stageOp seen = true → exec (.flashBrownout mv) s = .next (settle (giveUp .brownout cut)))
      ∧ (stageOp seen = false → mounts = true →
        exec (.flashBrownout mv) s = .next (settle (mountBrownout seen.journal.op cut)))
      ∧ (stageOp seen = false → mounts = false → own = true →
        exec (.flashBrownout mv) s = .next (settle (pendBrownout (dropWork cut))))
      ∧ (stageOp seen = false → mounts = false → own = false →
        (workJob seen = none → exec (.flashBrownout mv) s = .next (settle (dropWork cut)))
        ∧ ∀ j, workJob seen = some j →
          (j.desc.opcode ≠ 1 → exec (.flashBrownout mv) s = .next (settle (giveUp .brownout cut)))
          ∧ (j.desc.opcode = 1 → exec (.flashBrownout mv) s = .next (settle (pendBrownout
            (modJournal (fun x => { x with work := x.work.drop 1 }) (fillPending j (dropWork cut)))))))))
  ∧ (∀ (s : State) (c : Charge),
    (counted s s.lintel.gov.dayStart (secTicks 86400) = true →
      let rolled := modGov (fun g => { g with
          dayStart := g.dayStart + secTicks 86400, dayIndex := min (g.dayIndex + 1) 65535 }) (takeCharge c s)
      let judged := if rollsRun rolled = true ∧ rolled.lintel.gov.held = [] then evaluateRoll (today rolled) rolled
        else modGov (fun g => { g with
          held := if g.held.length < 255 then g.held ++ [today rolled] else g.held }) rolled
      let marked := modLcd (fun l => { l with segDue := displayRuns judged }) (linkDayRoll judged)
      exec (.governorDayRoll c) s = .next (settle (if judged.boot.running = true then marked else judged)))
    ∧ (∀ day, let rolled := modGov (rolledFor (items s).power day) s
      let told := writeEvent 0x00 3 (dayBody rolled.lintel.gov day) rolled
      evaluateRoll day s = if (winOf told .journal).fenced = true then told else wearDay day told)
    ∧ (rollsRun s = true → exec .governorCatchup s = .next (settle (
        s.lintel.gov.held.foldl (fun t d => evaluateRoll d t) (modGov (fun g => { g with held := [] }) s)))))

/-- Oscillators (R93, R96, R101, R600): a crystal that fails hands over to D05, DT and the time base take the ticks
that D05 makes up, a chip that runs evaluates the calendar for them, and XL_FAIL is set. Every 64 s the crystal is
tried again: a try is counted, an offset it measures is shown, and one that succeeds returns to D04 and clears
XL_FAIL. A monitor that fails raises its source. TEST_EN runs D25 on an unsealed chip; on a sealed one
D25_ACTIVE_SEALED follows whether D25 runs, and a rising TEST_EN is alarm source 4.

ALIVE (R530, R531): half a period of D05 while the chip runs, is neither grave nor degraded and ALIVE_EN is set
turns the output over; otherwise it stays as it is. -/
def Obligations.Oscillators : Prop :=
  (∀ (s : State) (n : Nat) (ok level runs d06 : Bool) (ppm : Option Int),
    (s.clock.xlOk = true → exec (.xlFailDetect n) s = .next (settle (
      let t := advance (xlMakeup s n) (modClock (fun c =>
        { c with xlOk := false, onRc := true, retries := 0, monFail := setBit c.monFail 3 true }) s)
      setLevel Src.xlFail true (modTime (fun y =>
          { y with calDue := y.calDue || (s.boot.running && decide (0 < xlMakeup s n)) })
        (modClock (fun c => { c with retryAt := t.time.ticks }) t)))))
    ∧ (s.clock.xlOk = false → passed s s.clock.retryAt (secTicks 64) = true →
      let tried := modClock (fun c => { c with
        retries := min (c.retries + 1) 255, retryAt := s.time.ticks, xlOk := ok, onRc := !ok
        rcPpm := (ppm.map (satInt 16)).getD c.rcPpm }) s
      exec (.xlRetry ok ppm) s = .next (settle (if ok = true then setLevel Src.xlFail false tried else tried)))
    ∧ (s.lintel.mainOn = true → exec (.clockMonitorFail d06) s = .next (settle (
      raise (if d06 = true then Src.d06Range else Src.rc32mRange)
        (modClock (fun c => { c with monFail := setBit c.monFail (if d06 = true then 5 else 6) true }) s))))
    ∧ (isSealed s = false → exec (.testEnChange level runs) s =
        .next (settle (modClock (fun c => { c with testEn := level, d25 := level }) s)))
    ∧ (isSealed s = true →
      let shown := setLevel Src.d25ActiveSealed runs (modClock (fun c => { c with testEn := level, d25 := runs }) s)
      exec (.testEnChange level runs) s =
        .next (settle (if level = true ∧ s.clock.testEn = false then alarmBy 4 shown else shown))))
  ∧ (∀ s : State,
    (s.lintel.mainOn = true → s.boot.running = true → s.faults.grave = false → degraded s = false →
      (items s).fault.aliveEn = 1 → exec .aliveToggle s = .next (settle (modFaults (fun f =>
        { f with d05Halves := f.d05Halves + 1, alive := !f.alive, aliveRun := true }) s)))
    ∧ (s.faults.grave = true ∨ degraded s = true → exec .aliveToggle s =
      .next (settle (modFaults (fun f => { f with d05Halves := f.d05Halves + 1 }) s))))

/-- DT advances by one unit at every D04 tick (R97).

The tick that carries a set (R98): DT takes the value set, or with ADJUST the sum, in place of its advance. An
adjustment that leaves the range of DT is refused at that tick, and DT advances. -/
def Obligations.DeviceTime : Prop :=
  (∀ s : State, s.time.pend = none →
    ∃ t, exec .d04Tick s = .next t ∧ t.time.dt = s.time.dt + 1)
  ∧ (∀ (s : State) (p : PendingSet), s.time.pend = some p →
    (∀ v, setTarget s p = some v → ∃ t, exec .timeSetApply s = .next t ∧ t.time.dt = BitVec.ofNat 64 v)
    ∧ (setTarget s p = none → ∃ t, exec .timeSetApply s = .next (settle t) ∧ t.time.dt = s.time.dt + 1
      ∧ t.time.last = Status.refusedPolicy.code))

/-! ### Register writes and reads (R12 to R18, R45, R50, R98, R292, R498, R510, R516, R518, R571) -/

/-- A write of one word that nothing hinders has the effect of its word and is recorded, whatever it completes with:
its audit record holds the word before and after (R498), and SET_STATUS.LAST follows a SET_CTRL write (R98). -/
def Obligations.RegisterWriteApplies : Prop :=
  ∀ (s : State) (w : WriteCtx) (addr : Nat) (v : Word) (o : WriteObs), WriteOpen s w addr →
    let e := writeEffect o (writer s w) (place addr) v (portRequest w.master s)
    exec (.registerWrite w addr v o) s =
      .next (settle (answered e.2 s w addr (noteSetCtrl (place addr) e.2 e.1)))

/-- A set of device time is asked for with its key (R98 step 2): SET_VALUE waits for the next D04 tick, as an
adjustment where ADJUST is set. A write with another key, or by the Mason core, is REFUSED_POLICY. Both show in
SET_STATUS.LAST.

A reseat asked for by RESEAT_CTRL (R50, R51, R60): with its key, and a pending copy of higher SEQ, it waits for
its lock; where no such copy is there, RESEAT_RESULT shows REFUSED_POLICY; a request during a staging, or while
another reseat waits, is held back (the model's choice, log 36). With another key it is turned away.

ERASE_CMD with its key erases every slot whose ERASE_ON names source 5, and with another is turned away (R463).
LCD_CTRL selects a page that the image holds and starts its dwell, and takes HOLD, whose time counts from the
write that sets it; a selection of another page is turned away (R553; the last is the model's choice, log 29). -/
def Obligations.KeyedWrites : Prop :=
  (∀ (s : State) (w : WriteCtx) (key : Half), WriteOpen s w 0x4028 →
    let ask := fun (adjust : Bool) => written s w 0x4028 (modTime (fun t =>
      { t with last := Status.done.code, pend := some ⟨adjust, t.setValue, writer s w⟩ }) (portRequest w.master s))
    let turned := answered .refusedPolicy s w 0x4028
      (modTime (fun t => { t with last := Status.refusedPolicy.code }) (portRequest w.master s))
    (w.master ≠ 8 → exec (.timeSetRequest w 0x7D1E) s = .next (settle (ask false))
      ∧ exec (.timeAdjustRequest w 0x7D1E) s = .next (settle (ask true)))
    ∧ (w.master = 8 ∨ key ≠ 0x7D1E → exec (.timeSetRequest w key) s = .next (settle turned)
      ∧ exec (.timeAdjustRequest w key) s = .next (settle turned)))
  ∧ (∀ (s : State) (w : WriteCtx) (key : Half), WriteOpen s w 0x1040 →
    let u := portRequest w.master s
    let asked := fun (f : Boot → Boot) => exec (.reseatRequestGo w 0xA5C3) s =
      .next (settle (written s w 0x1040 (modBoot f u)))
    let held := stagingNow u = true ∨ u.boot.reseatWait.isSome = true
    (¬ held → reseatable u = true → asked fun b => { b with reseatWait := some none, reseatActor := writer s w })
    ∧ (¬ held → reseatable u = false → asked fun b => { b with reseatResult := Status.refusedPolicy.code })
    ∧ (held → asked fun b => { b with deferred := b.deferred ++ [.reseatWrite (writer s w)] })
    ∧ (key ≠ 0xA5C3 → exec (.reseatRequestGo w key) s = .next (settle (turnedAway s w 0x1040))))
  ∧ (∀ (s : State) (w : WriteCtx) (ns reps page : Nat) (hold : Bool) (key : Half),
    let u := portRequest w.master s
    let kept := fun (l : Lcd) => { l with
      pageSel := page, hold := hold, holdAt := if hold = true ∧ l.hold = false then s.time.ticks else l.holdAt }
    (WriteOpen s w 0x2C020 →
      exec (.eraseCmd w 0xC1A5 ns reps) s = .next (settle (written s w 0x2C020 (alarm 5 (2 ^ 24 - 1) true ns reps u)))
      ∧ (key ≠ 0xC1A5 → exec (.eraseCmd w key ns reps) s = .next (settle (turnedAway s w 0x2C020))))
    ∧ (WriteOpen s w 0x2F004 → page < 32 →
      (page < (items s).display.pages.length → exec (.pageSelect w page hold) s = .next (settle (written s w 0x2F004
        (modLcd (fun l => { kept l with cur := page, dwellAt := s.time.ticks }) u))))
      ∧ ((items s).display.pages.length ≤ page →
        exec (.pageSelect w page hold) s = .next (settle (turnedAway s w 0x2F004)))
      ∧ exec (.pageHold w page hold) s = .next (settle (written s w 0x2F004 (modLcd kept u)))))

/-- The image-load path of the bare state (R45): in a bare chip ERASE, PROGRAM and FINISH of the service port act on
the copy named, and RESULT takes the load's status; elsewhere, or by another master, they are turned away. -/
def Obligations.ImageLoad : Prop :=
  ∀ (s : State) (w : WriteCtx) (copyB : Bool) (o : FlashObs) (boot : BootObs), WriteOpen s w 0x1050 →
    let u := modBoot (fun b => { b with loadCopyB := copyB }) (portRequest w.master s)
    let shown := fun (r : State × Status) =>
      written s w 0x1050 (modBoot (fun b => { b with loadResult := r.2.code }) r.1)
    (s.boot.bare = true → w.master = 1 →
      exec (.imageLoadErase w copyB o) s = .next (settle (shown (loadErase copyB o u)))
      ∧ exec (.imageLoadProgram w copyB o) s = .next (settle (shown (loadProgram copyB o u)))
      ∧ exec (.imageLoadFinish w copyB o boot) s = .next (settle (shown (loadFinish (writer s w) copyB o boot u))))
    ∧ (s.boot.bare = false ∨ w.master ≠ 1 →
      exec (.imageLoadErase w copyB o) s = .next (settle (turnedAway s w 0x1050))
      ∧ exec (.imageLoadProgram w copyB o) s = .next (settle (turnedAway s w 0x1050))
      ∧ exec (.imageLoadFinish w copyB o boot) s = .next (settle (turnedAway s w 0x1050)))

/-- The seal (R30, R32, R33): a seal command of a maker session on the service port of a chip that runs has the effect
of `sealChip`, and is recorded with its status; where that is DONE the chip is sealed. With another METRO_CRC than
the running image's, or on a chip that is sealed, it programs nothing and is REFUSED_POLICY (the status is the
model's choice, log 36). From any other session it is turned away. -/
def Obligations.SealCommand : Prop :=
  ∀ (s : State) (w : WriteCtx) (metro : Word) (stuck : List (Nat × Byte)), WriteOpen s w 0x1060 →
    let r := sealChip (writer s w) metro stuck (portRequest w.master s)
    (w.master = 1 → roleOf s w.master = 3 → s.boot.running = true →
      exec (.sealCommand w metro stuck) s = .next (settle (answered r.2 s w 0x1060 r.1))
      ∧ (r.2 = .done → isSealed r.1 = true)
      ∧ (metro ≠ s.boot.img.metro ∨ isSealed s = true → r.2 = .refusedPolicy ∧ r.1.otp = s.otp))
    ∧ (w.master ≠ 1 ∨ roleOf s w.master ≠ 3 ∨ s.boot.running = false →
      exec (.sealCommand w metro stuck) s = .next (settle (turnedAway s w 0x1060)))

/-- Queue registers (R130, R133, R134, R617): the DESC7 write of a master submits its staged descriptor, and on a
queue that is not enabled, is fenced or is not the port's own it raises QUEUE_ACCESS as well. A Q_CTRL write of a
master that may submit takes NOTIFY_EN and clears OVERRUN; another raises QUEUE_ACCESS and is REFUSED_POLICY. The
staging words are those of the master that writes: one of masters 0x00 to 0x05, or the Mason core; another is
turned away.

GRAN_CTRL of a port (R573): a granule of class C or H given to the port's owner, REFUSED_CAPACITY where none is to
be had, and one of its own freed; another's is not. A port that has had no access for OPT_IDLE_S and has no
session open gives its granules back. -/
def Obligations.QueueAndGranuleWrites : Prop :=
  (∀ (s : State) (w : WriteCtx) (q : Nat) (v : Word) (notify : Bool), q < 64 →
    let d7 := 0x6000 + q * 0x40 + 0x1C
    let ctl := 0x6000 + q * 0x40 + 0x38
    let u := portRequest w.master s
    let own := if w.master = 8 then 6 else w.master
    let staged := modQueue q (fun x => { x with staging := upd x.staging own (fun d => put d 7 v) }) u
    let sent := submitJob (writer s w) q (Desc.ofWords (nth (nth staged.fabric.queues q).staging own).toList) []
      none false staged
    (WriteOpen s w d7 → w.master < 6 ∨ w.master = 8 → exec (.jobSubmit w q v) s = .next (settle (written s w d7
      (if queueShut u w.master q = true then queueAccess (writer s w) d7 sent else sent))))
    ∧ (WriteOpen s w d7 → ¬ (w.master < 6 ∨ w.master = 8) →
      exec (.jobSubmit w q v) s = .next (settle (turnedAway s w d7)))
    ∧ (WriteOpen s w ctl → maySubmit u (writer s w) q = true →
      exec (.queueOverrunClear w q notify) s = .next (settle (written s w ctl
        (modQueue q (fun x => { x with notifyEn := notify, overrun := false }) u))))
    ∧ (WriteOpen s w ctl → maySubmit u (writer s w) q = false →
      exec (.queueOverrunClear w q notify) s = .next (settle (answered .refusedPolicy s w ctl
        (queueAccess (writer s w) ctl u)))))
  ∧ (∀ (s t : State) (w : WriteCtx) (g : Nat), isPort w.master = true →
    let u := portRequest w.master s
    let shown := fun (cmd : Nat) (given : Option Nat) (st : Status) (t : State) => written s w 0x30030 (modPorts (fun p =>
      { p with granCtl := upd p.granCtl w.master fun c => (cmd, given.getD c.2.1, st.code) }) t)
    (WriteOpen s w 0x30030 →
      (portAlloc 2 (writer s w) u = (t, some g) →
        exec (.granAllocC w) s = .next (settle (shown 1 (some g) .done t)))
      ∧ (portAlloc 2 (writer s w) u = (t, none) →
        exec (.granAllocC w) s = .next (settle (shown 1 (some 0xFF) .refusedCapacity t)))
      ∧ (portAlloc 3 (writer s w) u = (t, some g) →
        exec (.granAllocH w) s = .next (settle (shown 2 (some g) .done t)))
      ∧ (portAlloc 3 (writer s w) u = (t, none) →
        exec (.granAllocH w) s = .next (settle (shown 2 (some 0xFF) .refusedCapacity t)))
      ∧ (g < 256 → (portGrans u w.master).contains g = true →
        exec (.granFree w g) s = .next (settle (shown 3 none .done (dropPortGran g u))))
      ∧ (g < 256 → (portGrans u w.master).contains g = false →
        exec (.granFree w g) s = .next (settle (shown 3 none .refusedPolicy u))))
    ∧ (s.boot.running = true → sessionOpen s w.master = false →
      passed s (nth s.ports.access w.master) (secTicks (items s).ports.optIdleS) = true →
      exec (.portGranuleIdleFree w.master) s = .next (settle (freePortGrans w.master s))))

/-- Fault windows (R516, R518, R539): ones written to FAULT_STATUS clear the sources whose condition does not hold,
and FAULT_FORCE raises every named source that does not occur in the same cycle with ACCESS 0xE and the writing
master. On a sealed chip a force that would newly raise a class D source is REFUSED_POLICY and raises none. -/
def Obligations.FaultWindowWrites : Prop :=
  ∀ (s : State) (w : WriteCtx) (b : Block) (mask real : Half),
    let u := portRequest w.master s
    let named := (List.range b.sources.length).filter fun i => mask.toNat.testBit i
    let barred := isSealed u = true ∧ ∃ i ∈ named, isRaised u ⟨b, i⟩ = false ∧ classOf u ⟨b, i⟩ = 3
    (WriteOpen s w (b.base + 0xF00) → exec (.faultStatusClear w b mask) s = .next (settle (written s w (b.base + 0xF00)
      (clearStatus b mask.toNat u))))
    ∧ (WriteOpen s w (b.base + 0xF08) → ¬ barred → exec (.faultForce w b ⟨mask, real⟩) s = .next (settle (written s w (b.base + 0xF08)
      ((named.filter fun i => !real.toNat.testBit i).foldl (fun t i =>
        raiseBy ⟨b, i⟩ ⟨w.master, 0xE, b.base + 0xF08⟩ t) u))))
    ∧ (WriteOpen s w (b.base + 0xF08) → barred →
      exec (.faultForce w b ⟨mask, real⟩) s = .next (settle (turnedAway s w (b.base + 0xF08))))

/-- Reads with a side effect: RESET_CAUSE clears when the service port reads it (R18), CPL3 pops the completion read
(R571), and a low word latches the words above it for the port that reads it (R292). -/
def Obligations.ReadEffects : Prop :=
  ∀ (s : State) (q master addr : Nat), s.lintel.mainOn = true →
    let u := fun (m : Nat) => portRequest m s
    (frameStop (u 1) 1 (roleOf s 1) (frameAddrs 0x1020 1) false = none →
      ∃ t, exec .resetCauseRead s = .next (settle t) ∧ t.boot.causePor = false ∧ t.boot.causePin = false
        ∧ t.boot.causeWdog = false ∧ t.boot.causeCold = false)
    ∧ (q < 64 → frameStop (u 1) 1 (roleOf s 1) (frameAddrs (0x6000 + q * 0x40 + 0x2C) 1) false = none →
      exec (.completionPop q) s =
        .next (settle (readWords 1 (roleOf s 1) (frameAddrs (0x6000 + q * 0x40 + 0x2C) 1) (u 1)).1))
    ∧ (isPort master = true → master ≠ 2 →
      frameStop (u master) master (roleOf s master) (frameAddrs addr 1) false = none →
      exec (.latchedWordRead master addr) s =
        .next (settle (readWords master (roleOf s master) (frameAddrs addr 1) (u master)).1))

/-! ### The fabric and the Mason core (chapter 3) -/

/-- Admission and waiting (R116 to R119, R135): of the waiting jobs at the heads of their FIFOs the first in the order
of class, priority and age that finds its tag and granules is admitted, after a stalled descriptor has taken a
place; an M job evicts queued H jobs for what it lacks. A C or H job that has waited Q_WAIT_MS ends DEFERRED, and
a retry whose time has come is submitted once more. -/
def Obligations.WaitingJobs : Prop :=
  ∀ (s t : State) (j : Job) (r : Retry) (q seq : Nat),
    (s.boot.running = true → s.faults.grave = false →
      let u := takeStalled s
      exec .waitingAdmission s = .next (settle (admitFirst 64 (fifoHeads u) u).1)
      ∧ (firstBy (waitsBefore u) (fifoHeads u) = none → exec .waitingAdmission s = .next (settle u))
      ∧ (firstBy (waitsBefore u) (fifoHeads u) = some j →
        tryAdmit j.id (if classOfQueue j.queue = 0 then evictFor 9 j.id u else u) = some t →
        exec .waitingAdmission s = .next (settle t)))
    ∧ (s.fabric.jobs.find? (fun j => j.queue == q && j.phase == .waiting && j.seq.toNat == seq) = some j →
      exec (.fifoWaitExpiry q seq) s = .next (settle (
        if waitOver s j = true then endEarly j .deferred (beatOf s (classOfQueue q)) 1 s else s)))
    ∧ (s.fabric.retries.find? (fun r => r.queue == q && decide (r.due ≤ s.time.ticks)) = some r →
      s.boot.running = true → s.faults.grave = false →
      exec (.autoRetryResubmit q) s = .next (settle (submitJob r.actor q r.desc [] none true
        (modFabric (fun f => { f with retries := f.retries.erase r }) s))))

/-- Dispatch (R109, R120, R121, R524, R617): a free engine takes the first ready job by class, priority and admission
age. It runs on the engine, a Mason job in a free context, with its wait counted; a SHOT_PAIR and a temperature
set begin. A job that its actor may not run ends REFUSED_ROLE, and one whose engine is fenced completes FENCED. -/
def Obligations.Dispatch : Prop :=
  ∀ (s : State) (j : Job) (n waitUs : Nat) (c : Charge), s.boot.running = true → s.faults.grave = false →
    nextJob s n = some j →
    let u := countDelay (classOfQueue j.queue) (delayUs s j waitUs) (takeCharge c s)
    let on := modJob j.id (fun x => { x with phase := .running, startedAt := u.time.ticks, mark := dispatchMark u j }) u
    let held := match j.desc.engine, freeContext u with
      | 0, some i => modMason (fun m => { m with ctxs := put m.ctxs i { busy := true, job := some j.id } }) on
      | _, _ => on
    let begun := if j.desc.engine = 4 ∧ j.desc.opcode = 1 then shotDispatch j held
      else if j.desc.engine = 6 ∧ j.desc.opcode = 1 then modTemp (fun t => { t with run := some (setRun j u) }) held
      else held
    (engineFenced s n = true →
      exec (.jobDispatch n waitUs c) s = .next (settle (completeWith j.id .fenced (takeCharge c s))))
    ∧ (engineFree s n = true → engineFenced s n = false → jobActorOk j.desc j.actor = true →
      exec (.jobDispatch n waitUs c) s = .next (settle begun))
    ∧ (engineFree s n = true → engineFenced s n = false → jobActorOk j.desc j.actor = false →
      exec (.jobDispatch n waitUs c) s = .next (settle (engineEnds j.id { status := .refusedRole } held)))

/-- Ends of a job (R109, R111, R115, R139): a job its engine has ended is completed with the engine's result, a
temperature record being published, a display page taken up and a snapshot finished first. A dispatched job past
its class's watchdog, and a held one past four of them, complete TIMEOUT, the dispatched one but for an ending of
the engine that R20 puts first. -/
def Obligations.JobEnds : Prop :=
  ∀ (s : State) (j : Job) (r : JobResult) (tag n : Nat) (c : Charge), jobByTag s tag = some j →
    let charged := takeCharge c s
    let timedOut := fun (t : State) => completeJob j.id (j.endsWith .timeout) (dropJob j (j.endsWith .timeout).status t)
    let watchdog := passed s j.startedAt (watchdogTicks (classOfQueue j.queue)) = true
    (j.phase = .ended r → ¬ watchdog →
      exec (.jobCompletion tag c) s = .next (settle (completeJob j.id r
        (if j.desc.engine = 6 ∧ j.desc.opcode = 1 ∧ r.status.ok = true then publishTemp j charged
        else if j.desc.engine = 15 ∧ j.desc.opcode = 1 ∧ r.status.ok = true then pendRender r charged
        else if j.desc.engine = 8 ∧ j.desc.opcode = 1 ∧ r.status.ok = true then snapshotDone j r charged
        else charged))))
    ∧ (j.phase = .ended r → watchdog → exec (.jobCompletion tag c) s = .next (settle (timedOut charged)))
    ∧ (j.onIt = true → watchdog → exec (.jobWatchdogExpiry tag) s = .next (settle (timedOut s)))
    ∧ (j.phase = .held n → passed s j.admittedAt (4 * watchdogTicks (classOfQueue j.queue)) = true →
      exec (.heldJobTimeout tag) s = .next (settle (completeJob j.id { status := .timeout } s)))

/-- Triggers and Mason events (R110, R118, R131, R140, R315, R619): triggers 2 to 7 that have counted their period of
D04, and are neither stalled nor held by a reseat, submit their template as the chip. A boundary of DT, and a
kind-10 entry that has counted its period, put their events to the core's FIFO; at an hour the unjournaled billing
slots are submitted again, and a full FIFO drops a timer's event with TRIG_DROP.

The scrubber (R127): a freed granule whose bytes all read zero after zeroing is free again, with its 512 bytes
zero and its secret mark clear; one with a byte that does not read zero is retired and SCRUB_FAIL raised. Other
granules' bytes stay as they are. -/
def Obligations.TriggersAndScrubber : Prop :=
  (∀ (s : State) (n i : Nat) (e : EventEntry),
    let tr := at0 (items s).fabric.trig n
    let fired := modMason (fun m => { m with
      timerFired := (i, firedOf s i + 1) :: m.timerFired.filter fun x => x.1 != i }) s
    (within 2 7 n = true → s.boot.running = true → s.faults.grave = false → tr.period ≠ 0 →
      counted s (nth s.fabric.trigLast n) tr.period = true → trigStalled s n = false → trigHeld s = false →
      exec (.hwTrigger n) s = .next (settle (submitJob ⟨0, 0⟩ tr.queue (Desc.ofWords tr.template) [] none false
        (modFabric (fun f => { f with
          trigLast := put f.trigLast n (lastInstant s (nth f.trigLast n) tr.period) }) s))))
    ∧ (within 1 4 n = true → nth s.time.due (n - 1) = true → s.boot.running = true →
      let told := masonEvent n 0 0 (modTime (fun t => { t with due := put t.due (n - 1) false }) s)
      exec (.dtBoundaryEvent n) s = .next (settle (if n = 3 then journalSlots told else told)))
    ∧ ((items s).mason.events[i]? = some e → e.kind = 10 → e.arg ≠ 0 → s.mason.running = true →
      counted s s.mason.timerBase ((firedOf s i + 1) * e.arg) = true →
      exec (.masonTimerEvent i) s = .next (settle (if s.mason.fifo.length < 32 then
          modMason (fun m => { m with fifo := m.fifo ++ [⟨10, 0, e.arg, e.recipe⟩] }) fired
        else raise Src.trigDrop (modMason (fun m => { m with drops := satInc m.drops }) fired)))))
  ∧ (∀ (s : State) (g : Nat) (stuck : List (Nat × Byte)), g < 192 → (nth s.fabric.grans g).scrubbing = true →
    ((∀ x ∈ stuck, x.1 < 512 → x.2 = 0) →
      ∃ t, exec (.granuleZeroed g stuck) s = .next (settle t) ∧ (∀ k, k < 512 → t.sram.get 0 (g * 512 + k) = 0)
      ∧ (nth t.fabric.grans g).scrubbing = false ∧ (nth t.fabric.grans g).secret = false
      ∧ (nth t.fabric.grans g).retired = false
      ∧ (∀ a, a < g * 512 ∨ g * 512 + 512 ≤ a → t.sram.get 0 a = s.sram.get 0 a))
    ∧ ((∃ x ∈ stuck, x.1 < 512 ∧ x.2 ≠ 0) →
      ∃ t, exec (.granuleZeroed g stuck) s = .next (settle (raise Src.scrubFail t))
      ∧ (nth t.fabric.grans g).retired = true
      ∧ (∀ a, a < g * 512 ∨ g * 512 + 512 ≤ a → t.sram.get 0 a = s.sram.get 0 a)))

/-- Recipes (R95, R110, R124, R131, R132, R550, R620, R621): a waiting entry takes the first free context, and each op
of Table 3.6 acts as its row says: SUBMIT submits its template as the core (but a display refresh of the second
recipe only in every REFRESH_S-th second, the model's choice, log 19), WAIT waits for the job submitted last and
takes its status, IFST skips on that status, LOCK takes the lock once it is free (the on-demand billing recipe
after the monthly one, R327), UNLOCK releases it, SETITEM writes one item, and END frees the context, the second
recipe's with a kick of the watchdog.

A locked sequence past its bound (R52, R132, R349): a recipe's after 5 ms is rolled back TIMEOUT and its recipe
ends; the journal's own commit is rolled back by the journal; a consent's commit ends its job TIMEOUT; a reseat
past 200 ms is cut, and a key-slot load of a reseat that is late alone is given up. Each raises LOCK_OVERRUN. -/
def Obligations.Recipes : Prop :=
  (∀ (s : State) (e : TrigEntry) (i tpl q st skip addr : Nat) (k : LockKind) (v : Word)
    (rivals : List (Nat × Nat)) (o : WriteObs),
    let c := nth s.mason.ctxs i
    let on := fun (f : MContext → MContext) (t : State) => modMason (fun m => { m with ctxs := upd m.ctxs i f }) t
    let d := Desc.ofWords (at0 (items s).mason.templates tpl)
    let past := fun (c : MContext) => { c with pc := c.pc + 1 }
    (coreFree s = true → freeContext s = some i → nextEntry s = some e →
      exec .recipeStart s = .next (settle (on (fun _ => { busy := true, kind := e.kind, recipe := e.recipe })
        (modMason (fun m => { m with fifo := m.fifo.erase e }) s))))
    ∧ (ctxMaySteps s i = true → notHalted s i = true →
      (stepAt s c = some (.submit tpl q) → exec (.recipeSubmit i) s = .next (settle (
        if refreshSkipped i d s = true then on past s
        else submitJob ⟨8, 0⟩ q d [] (some i) false (on (fun c =>
          { c with pc := c.pc + 1, lastJob := some s.fabric.nextId, lastEnd := none }) s))))
      ∧ (stepAt s c = some .wait → exec (.recipeWait i) s = .next (settle (on (fun c => match c.lastJob, c.lastEnd with
        | none, _ => { c with pc := c.pc + 1, waiting := false }
        | some _, some st => { c with pc := c.pc + 1, waiting := false, test := st.code }
        | some _, none => { c with waiting := true }) s)))
      ∧ (stepAt s c = some (.ifst st skip) → exec (.recipeIfst i) s = .next (settle (on (fun c =>
          { c with pc := c.pc + 1 + (if c.test = st then skip else 0) }) s)))
      ∧ (stepAt s c = some (.lock k) → exec (.recipeLock i) s = .next (settle (
        if s.mason.lock = none ∧ monthlyFirst i k s = false then modMason (fun m => { m with lock := some (k, s.time.ticks) })
          (on (fun c => { c with pc := c.pc + 1, lock := some k }) s)
        else s)))
      ∧ (stepAt s c = some .unlock → exec (.recipeUnlock i) s = .next (settle (on past (releaseLock i s))))
      ∧ (stepAt s c = some (.setItem addr v) →
        let w := writeWord o ⟨8, rivals⟩ 0 addr v s
        exec (.recipeSetitem i rivals o) s =
          .next (settle (on (fun c => { c with pc := c.pc + 1, test := w.2.1.code }) w.1)))
      ∧ (stepAt s c = some .stop ∨ stepAt s c = none →
        let freed := releaseLock i s
        exec (.recipeEnd i) s = .next (settle (on (fun _ => {}) (
          if (nth s.mason.ctxs i).kind = 1 then modClock (fun c => { c with kickAt := s.time.ticks }) freed
          else freed))))))
  ∧ (∀ (s : State) (f : FlashObs) (k : LockKind) (since tag : Nat) (j : Job),
    let overrun := fun (t : State) => raise Src.lockOverrun (journalResume (resumeSlots t))
    let late := passed s since (msTicks 5) = true
    (s.mason.lock = some (k, since) → ownLock s .journalCommit = false → k ≠ .reseat → late → reseatLocked s = false →
      exec (.lockOverrun f .held) s = .next (settle (overrun (endLockHolder (rollbackRecipeLock .timeout s)))))
    ∧ (s.mason.lock = some (.journalCommit, since) → ownLock s .journalCommit = true → late → reseatLocked s = false →
      exec (.lockOverrun f .held) s = .next (settle (overrun (journalUnlock (journalRollback f .timeout s)))))
    ∧ (s.mason.lock = some (.reseat, since) → reseatLocked s = true → reseatInTime s = false →
      exec (.lockOverrun f .held) s = .next (settle (overrun (reseatCut .timeout .timeout f s))))
    ∧ (s.mason.lock = some (k, since) → k ≠ .reseat → late → reseatLocked s = true → reseatInTime s = true →
      exec (.lockOverrun f .held) s = .next (settle (raise Src.lockOverrun (abortLoads (modBoot (fun b =>
        { b with reload := b.reload.filter fun n => !(nth s.keys.slots n).loading }) s)))))
    ∧ (s.mason.lock = some (.consentCommit, since) → ownLock s .consentCommit = true → late →
      runningJob s tag 13 0x14 = some j →
      let x := ConsentIn.ofBytes (inputBytes s j 0)
      exec (.lockOverrun f (.consent tag)) s = .next (settle (overrun (engineEnds j.id { status := .timeout }
        (auditConsent 8 j.actor (j.desc.arg 0) x.items x.digest .timeout (unlockAs .consentCommit s)))))))

/-! ### Staging, reseat and the journal (chapters 1 and 10) -/

/-- Staging and reseat jobs (R47, R48, R50, R60, R61, R80, R124): a STAGE is checked in the order of R47, the fence
and the strict audit before it and VBAT after it; one that passes has the steps of R48 put into the flash's work,
and one that fails ends with its status and reject reason. A STAGE that meets another staging or a waiting reseat
is held back. A reseat job whose role holds the right, that the strict audit does not refuse and that no higher-
ranked request of its cycle beats, asks for its reseat, and so does the pending copy's activation time. A job that
asks during a staging completes DEFERRED and its request is held. Once no staging or reseat is in progress the
oldest request held back goes on. -/
def Obligations.StagingAndReseat : Prop :=
  ∀ (s : State) (j : Job) (tag id mv : Nat) (a : Actor) (rivals : List Nat) (rest : List Deferred),
    let v := takeVbat mv s
    let am := readAmend v j
    let ends := fun (st : Status) => engineEnds j.id { status := st } s
    let resumed := modBoot (fun b => { b with deferred := rest }) s
    let held := stagingNow s = true ∨ s.boot.reseatWait.isSome = true
    let runs := s.fabric.jobs.find? (fun j => j.id == id && j.phase == .running) = some j
    (runningJob s tag 0 1 = some j → Deferred.stage j.id ∉ s.boot.deferred → stagedJob s ≠ some j.id →
      (¬ held → exec (.stage tag mv) s = .next (settle (
          if (winOf v .journal).fenced = true then stageFails j am .fenced 0 v
          else if strictRefused v = true then stageFails j am .refusedPolicy 0 v
          else match stageCheck v j am with
            | .error (st, r) => stageFails j am st r (if st = .refusedPolicy then lapseConsent am v else v)
            | .ok img => if flashVbatOk v = true then stageWrite j am img v else stageFails j am .brownout 0 v)))
      ∧ (held → exec (.stage tag mv) s = .next (settle (modBoot (fun b =>
          { b with deferred := b.deferred ++ [.stage j.id] }) s))))
    ∧ (runningJob s tag 0 2 = some j → Deferred.reseatJob j.id ∉ s.boot.deferred →
      s.boot.reseatWait ≠ some (some j.id) →
      exec (.reseatJob ⟨tag, rivals⟩) s = .next (settle (
        if hasRight s .reseat j.actor.role = false then ends .refusedRole
        else if strictRefused s = true then ends .refusedPolicy
        else match outranking j.actor.master rivals with
          | some m => engineEnds j.id { status := .conflictLost, winner := m } s
          | none => askReseat (some j.id) j.actor (.reseatJob j.id) s)))
    ∧ (standbyPending s = true → s.boot.activateDt ≠ 0 → s.boot.activateDt.toNat ≤ s.time.dt.toNat →
      s.time.invalid = false → Deferred.reseatDt ∉ s.boot.deferred →
      exec .activateDtReached s = .next (settle (askReseat none ⟨0, 0⟩ .reseatDt s)))
    ∧ (¬ held →
      (s.boot.deferred = .stage id :: rest → runs →
        exec (.stageDeferredResume mv) s = .next (settle (stageBegin j mv resumed)))
      ∧ (s.boot.deferred = .reseatJob id :: rest → runs → exec (.stageDeferredResume mv) s = .next (settle (
        askReseat (some id) j.actor (.reseatJob id) resumed)))
      ∧ (s.boot.deferred = .reseatWrite a :: rest →
        exec (.stageDeferredResume mv) s = .next (settle (askReseat none a (.reseatWrite a) resumed)))
      ∧ (s.boot.deferred = .reseatDt :: rest →
        exec (.stageDeferredResume mv) s = .next (settle (askReseat none ⟨0, 0⟩ .reseatDt resumed))))
    ∧ (¬ held → askReseat (some id) a (.reseatJob id) s = if reseatable s = true then
          modBoot (fun b => { b with reseatWait := some (some id), reseatActor := a }) s
        else engineEnds id { status := .refusedPolicy } (modBoot (fun b =>
          { b with reseatResult := Status.refusedPolicy.code }) s))
    ∧ (stagingNow s = true → askReseat (some id) a (.reseatJob id) s =
        engineEnds id { status := .deferred } (modBoot (fun b =>
          { b with deferred := b.deferred ++ [.reseatWrite a] }) s))

/-- The reseat (R50 to R53, R56, R58, R540, Table 1.9): a reseat that waits takes its lock where nothing holds it off,
and each step of Table 1.9 comes after the one before it, within 200 ms of the lock; one that a fence has met
before the switch point is rolled back ABORTED at the switch (the last is the model's choice, log 36). Where a
reseat runs whole in one command, a standby copy that passes its judgement with a higher SEQ gives the
configuration that runs afterwards, and with another the old one runs on. -/
def Obligations.ReseatSwitches : Prop :=
  ∀ (s t : State) (o : FlashObs) (dur : Nat),
    let at_ := fun (n : Nat) => s.boot.reseatPhase = n ∧ reseatInTime s = true
    (reseatMayLock s = true → exec (.reseatLock ⟨.take, o⟩ dur) s = .next (settle (reseatTake s)))
    ∧ (at_ 1 → s.boot.reseatFenced = true →
      exec (.reseatLock ⟨.switch, o⟩ dur) s = .next (settle (reseatCut .aborted .aborted {} s)))
    ∧ (at_ 1 → s.boot.reseatFenced = false → flashBetween s = true →
      exec (.reseatLock ⟨.switch, o⟩ dur) s = .next (settle (reseatSwitch (.since dur) s)))
    ∧ (at_ 2 → flashBetween s = true → exec (.reseatLock ⟨.store, o⟩ dur) s = .next (settle (reseatStore o s)))
    ∧ (at_ 3 → exec (.reseatLock ⟨.load, o⟩ dur) s = .next (settle (reseatLoad s)))
    ∧ (at_ 3 → exec (.reseatLock ⟨.finish, o⟩ dur) s = .next (settle (reseatFinish .done (.since dur) (resumeSlots s))))
    ∧ (reseatMayLock s = true → flashBetween s = true → dur ≤ 2000 →
      exec (.reseatLock ⟨.whole, o⟩ dur) s = .next (settle (reseatWhole o dur s))
      ∧ (s.boot.bare = false → exec (.reseatLock ⟨.whole, o⟩ dur) s = .next t →
        let x := judgeCopy (reseatTake s) (standbyB s)
        (x.reject = 0 → x.active = false → s.boot.img.seq < x.seq → t.boot.img = x.img)
        ∧ (x.reject ≠ 0 ∨ x.active = true ∨ x.seq ≤ s.boot.img.seq → t.boot.img = s.boot.img)))

/-- Writing (R338, R345 to R350, R358, R365, Table 10.10): a WRITE of the chip that may begin, with 1 to the per-page
number of records, puts its page into the pending slot, after an inline reclaim of the oldest sector where fewer
than ERASED_MIN sectors are erased. The page is programmed at the next write position, its body must read back as
written, and it then waits for the commit's lock. The flash's readiness ends the program or the erase in progress,
with what it did, and the flash's work goes on step by step. COMMIT must read twice as written after
COMMIT_SETTLE_US; else the page fails. A page cut off by a brownout is voided and rewritten when VBAT has stayed
above FLASH_MIN + 100 mV for 10 ms. -/
def Obligations.JournalWriting : Prop :=
  ∀ (s : State) (j : Job) (p : PendingPage) (o : FlashObs) (task : FlashTask) (rest : List FlashTask) (bs : List Byte)
    (tag mv a n w fuel : Nat),
    let t := modJournal (fun x => { x with job := some j.id, copied := 0 }) (takeVbat mv s)
    let ends := fun (fail : Bool) (u : State) => freePeak (modJournal (fun x =>
      { x with op := .none, opFail := o.protectedFail || fail }) u)
    let u := takeVbat mv (touchFlash (drew 1 s))
    (runningJob s tag 10 1 = some j →
      (jobActorOk j.desc j.actor = false →
        exec (.write tag mv) s = .next (settle (engineEnds j.id { status := .refusedRole } s)))
      ∧ (jobActorOk j.desc j.actor = true → writeOk j = false →
        exec (.write tag mv) s = .next (settle (engineEnds j.id { status := .aborted } s)))
      ∧ (jobActorOk j.desc j.actor = true → writeOk j = true → journalFree s = false →
        exec (.write tag mv) s = .next (settle s))
      ∧ (jobActorOk j.desc j.actor = true → writeOk j = true → journalFree s = true →
        exec (.write tag mv) s = .next (settle (
          match (if (erasedSectors t).length < (items t).journal.erasedMin then oldestSector t else none) with
          | some v => beginReclaim v [.write] t
          | none => fillPending j t))))
    ∧ (s.journal.pend = some p → s.journal.wsector = some w → s.journal.wpage < 15 →
      workStep .place s = touchFlash (modJournal (fun x =>
        { x with
          op := .program (w * 0x1000 + s.journal.wpage * 256) (p.image.take 0xFA), work := .verify :: x.work
          wpage := x.wpage + 1, pend := some { p with addr := w * 0x1000 + s.journal.wpage * 256 } }) s))
    ∧ (s.journal.pend = some p → workStep .verify s =
        if flashRead s p.addr 0xFA = p.image.take 0xFA then modJournal (fun x => { x with op := .lock }) s
        else pageFailed p s)
    ∧ (flashMay s = true → s.journal.work = task :: rest →
        runWork (fuel + 1) s = runWork fuel (workStep task (modJournal (fun x => { x with work := rest }) s)))
    ∧ (s.lintel.peak ≠ .none → s.journal.waitVbat = false → s.lintel.peak = s.journal.op.peak → flashAwake s = true →
      (s.journal.op = .program a bs →
        exec (.flashOpReady o) s = .next (settle (runWork 64 (ends false (programFlash o a bs s)))))
      ∧ (s.journal.op = .erase n →
        exec (.flashOpReady o) s = .next (settle (runWork 64 (ends o.eraseFail (eraseFlash o n s))))))
    ∧ (s.journal.op = .settle → s.journal.pend = some p →
      counted s s.journal.opAt (upTicks (items s).journal.commitSettleUs) = true →
      exec (.commitSettleEnd mv) s = .next (settle (runWork 64 (
        if flashRead s (p.addr + 0xFA) 4 = commitWord ∧ flashRead u (p.addr + 0xFA) 4 = commitWord then commitPage p u
        else pageFailed p (journalUnlock (modJournal (fun j => { j with op := .none }) u))))))
    ∧ (s.journal.pend = some p → p.waitVbat = true → flashIdle s = true → s.journal.mounted = true →
      (winOf s .journal).fenced = false → s.faults.grave = false → (items s).power.flashMin + 100 < mv →
      counted s s.journal.vbatLowAt (msTicks 10) = true →
      exec (.brownoutRewrite mv) s = .next (settle (modJournal (fun x =>
        { x with work := (if p.addr < s.journal.size then [.void p.addr false, .rewrite true] else [.rewrite true])
                  ++ x.work }) (takeVbat mv s))))

/-- Reading and housekeeping (R80, R337, R338, R353 to R356, R359, R361, R362, R365): with the flash awake, a READ
whose role holds the right brings the page it asks for as it passes, with what it corrected and which copy passed
flagged, CHECK_FAILED where no copy passes, and its flag where no kept record is meant; RAW_READ brings the 256
bytes of a page as they read. RECLAIM and RELOCATE ask for the reclaim of the oldest and of the coldest sector,
REFRESH for the copies of a page or of the aged sectors' pages, after the sectors still to be retired, where the
journal is free. A flash operation takes the free peak load where VBAT is not below FLASH_MIN; else a job of class
C or H ends BROWNOUT and other work waits. MOUNT begins with the defect table, the scan, the pending slot and the
summary. A flash operation that does not end in time raises FLASH_BUSY_TIMEOUT, and a flash idle for DPD_IDLE_US
goes to deep power-down or off. -/
def Obligations.JournalJobs : Prop :=
  ∀ (s u : State) (j : Job) (tag seq c n ms mv : Nat) (page : List Byte),
    let w := touchFlash s
    let x := modJournal (fun x => { x with job := some j.id, copied := 0 }) (takeVbat mv s)
    let st := j.desc.arg 0 % 8
    let at_ := bits 23 8 (j.desc.arg 0) * 256
    let wants := readTarget s st (bits 9 8 (j.desc.arg 0)) (j.desc.arg 1)
    let flags := 2 * b2n (decide (0 < c)) + 4 * b2n (decide (0 < n))
    let one := j.desc.arg 0 % 2 ^ 24
    let retiring := fun (t : State) => pushWork (t.journal.failing.map FlashTask.retire) t
    let reclaims := fun (v : Option Sector) => match v with
      | none => pushWork [.house .reclaim] x
      | some v => beginReclaim v [.house .reclaim] x
    let asks := s.lintel.peak = .none ∧ s.journal.waitVbat = false ∧ s.journal.op.peak ≠ .none
    (flashAwake w = true →
      (runningJob s tag 10 2 = some j → jobActorOk j.desc j.actor = true →
        hasRight s (.readJournal st) j.actor.role = true → s.journal.mounted = true →
        (wants = none →
          exec (.read tag) s = .next (settle (engineEnds j.id
            { status := .doneFlagged, qflags := 1, result := j.desc.arg 1 % 2 ^ 20 } w)))
        ∧ (wants = some seq → fetchPage st seq w = (none, u) →
          exec (.read tag) s = .next (settle (engineEnds j.id { status := .checkFailed, result := seq % 2 ^ 20 } u)))
        ∧ (wants = some seq →
          fetchPage st seq w = (some (page, c, n), u) →
          exec (.read tag) s = .next (settle (engineEnds j.id
            { status := if flags = 0 then .done else .doneFlagged, qflags := flags
              result := seq % 2 ^ 20, out := page } u))))
      ∧ (runningJob s tag 10 3 = some j → jobActorOk j.desc j.actor = true → 0x020000 ≤ at_ → at_ < s.journal.size →
        exec (.rawRead tag) s = .next (settle (engineEnds j.id
          { status := .done, result := rawResult (flashRead s at_ 256), out := flashRead s at_ 256 } (drew 1 w))))
      ∧ (runningJob s tag 10 7 = some j → s.journal.mounted = false → jobActorOk j.desc j.actor = true →
        flashIdle s = true →
        exec (.mount tag mv ms) s = .next (settle (runWork 64 (modJournal (fun y =>
          { y with mountAt := w.time.ticks, work := [.tables, .scan, .pending, .summary ms] ++ y.work
                   job := some j.id, copied := 0 }) (takeVbat mv (takeKeep w)))))))
    ∧ (jobActorOk j.desc j.actor = true → journalFree s = true →
      (runningJob s tag 10 4 = some j → exec (.reclaim tag mv) s = .next (settle (retiring (reclaims (oldestSector x)))))
      ∧ (runningJob s tag 10 5 = some j → exec (.relocate tag mv) s = .next (settle (retiring (reclaims (coldestSector x)))))
      ∧ (runningJob s tag 10 6 = some j → exec (.journalRefresh tag mv) s = .next (settle (retiring (pushWork
        ((if one = 0 then (agedSectors x (today x)).flatMap (keptIn x)
          else x.journal.index.filter fun r => r.addr == one && isKept x r.stream r.seq).map FlashTask.copy
          ++ [.house (.refresh (one == 0))]) x)))))
    ∧ (asks → flashVbatOk s = true → grantPeak s = modJournal (fun y => { y with opAt := s.time.d04 })
        (modLintel (fun l => { l with peak := s.journal.op.peak }) s))
    ∧ (asks → flashVbatOk s = false → (workJob s).any (fun j => decide (2 ≤ classOfQueue j.queue)) = true →
        grantPeak s = giveUp .brownout s)
    ∧ (asks → flashVbatOk s = false → (workJob s).any (fun j => decide (2 ≤ classOfQueue j.queue)) = false →
        grantPeak s = modJournal (fun y => { y with waitVbat := true }) s)
    ∧ (s.lintel.peak = .program ∨ s.lintel.peak = .erase →
      counted s (max s.journal.opAt s.journal.readyAt) (busyLimit s) = true →
      exec .flashBusyTimeout s = .next (settle (raise Src.flashBusyTimeout s)))
    ∧ (s.journal.op = .none → onEngine s 10 = [] → s.journal.pwr = true → s.journal.dpd = false →
      counted s s.journal.accessAt (upTicks (items s).journal.dpdIdleUs) = true →
      exec .flashIdlePowerDown s = .next (settle (modJournal (fun x =>
        if (items s).journal.pwrMode = 0 then { x with dpd := true } else { x with pwr := false }) s)))

/-! ### Shots and flow (chapters 4 to 6) -/

/-- Shots (R140, R206, R207, R209, R210, R215, R221): at the trigger's instant of D04, PER and the jitter drawn for it
after the one before, path 1's pair is submitted as the fabric's trigger, or path 2's as the flow engine where
path 1 is fenced, and the next instant is counted from this one. A pair begins with the order its number gives,
path 2's after PATH_GAP_US; one on a fenced path or capture unit ends FENCED. Its retry falls due after its wait
and is counted.

Directions (R147, R149, R154, R170 to R172, R264): a direction that falls due fires where its lines, the lock, its
window and the reservoir are good, and its window opens; otherwise it ends not fired, with the kind of what kept
it. A reservoir that stays out of its 25 mV, and a PLL that does not lock, end it not fired with PUMP_SLOW or
PLL_LOCK_FAIL, a failing line first, and its wait counts in every case. The window's close, at WIN_LEN or where
lock is lost, ends it once its ticks have passed: the record, the capture registers and the peak are taken. -/
def Obligations.Shots : Prop :=
  (∀ (s : State) (j : Job) (r : PairRun) (tag w : Nat) (rest : List Nat),
    let base := nth s.fabric.trigLast 0 + msTicks s.shot.per
    let t := at0 (items s).fabric.trig 0
    let drawn := drawUpTo (items s).shot.jitterMs s
    let u := modFabric (fun f => { f with trigLast := put f.trigLast 0 base })
      (modShot (fun x => { x with per := x.perNext, jitter := msTicks drawn.1 }) drawn.2)
    let late := s.time.d04 - (base + s.shot.jitter)
    let p := j.desc.arg 0 % 2
    (s.boot.running = true → trigHeld s = false → trigStalled s 0 = false → base + s.shot.jitter ≤ s.time.d04 →
      (livePaths s = 0 :: rest → exec .shotTrigger s = .next (settle (heldSince late u.fabric.nextId
        (submitJob ⟨0, 0⟩ t.queue (Desc.ofWords t.template) [] none false u))))
      ∧ (livePaths s = 1 :: rest → exec .shotTrigger s = .next (settle (heldSince late u.fabric.nextId
        (chipJob 0x14 t.queue (templateOf s (items s).shot.shot2Tpl) [] u))))
      ∧ (livePaths s = [] → exec .shotTrigger s = .next (settle u)))
    ∧ (runningJob s tag 4 1 = some j → shotRun s = none → p < pathCount s →
      exec (.shotPair tag) s = .next (settle (
        if pathFenced s p = true ∨ captureFenced s = true then engineEnds j.id { status := .fenced } s
        else modShotPath p (fun y => { y with pairNo := y.pairNo + 1 }) (modShot (fun y =>
          { y with
            pairCount := y.pairCount + 1
            run := some {
              job := j.id, path := p, upFirst := (nth s.shot.paths p).pairNo % 2 == 0, plumbDue := plumbDueNow s p
              dueAt := if p = 1 then max s.time.ticks (s.shot.dirEndAt + wholeTicks (items s).shot.pathGapUs)
                else s.time.ticks
              zeroUsed := (nth s.shot.paths p).zeroOfs, startDt := s.time.dt, startTick := bootTicks s } }) s))))
    ∧ (shotRun s = some r → r.waitRetry = some w → w ≤ s.time.ticks →
      exec .noiseRetry s = .next (settle (modShot (fun x => { x with pairCount := x.pairCount + 1 })
        (modPair (fun y => { y with waitRetry := none, dueAt := s.time.ticks }) s)))))
  ∧ (∀ (s : State) (r : PairRun) (d : DirRec) (o : DirObs) (c : CloseObs) (l : LinePair) (mv : Nat),
    (dueRun s = some r →
      let d0 : DirRec := { isUp := nextIsUp r, originDt := s.time.dt, originTick := bootTicks s }
      let r0 := { r with startedAt := s.time.ticks }
      let x := dirStarts r.path (nextIsUp r) o (dirBegins o.waitUs r s)
      let y := checkLines r.path (nextIsUp r) false l.tx l.rx (modFront (fun x => { x with pumpMv := satNat 12 mv })
        (dirBegins l.waitUs r s))
      let missed : DirRec := { kind := if y.2 = true then .line else .capture, isUp := nextIsUp r }
      (x.2 = .record → exec (.shotDirection o) s = .next (settle (burst r.path ((evalOf s r.job).map (·.flow))
        (modPair (fun y => { y with openDir := some d0, obs := o, scale := s.ftu.scalePpb }) x.1))))
      ∧ (x.2 ≠ .record → exec (.shotDirection o) s = .next (settle (dirEnds { d0 with kind := x.2 } r0 x.1)))
      ∧ (pumpReady s mv = false → exec (.pumpSlow l mv) s = .next (settle (dirEnds missed r0 (raise Src.pumpSlow y.1))))
      ∧ exec (.pllLockTimeout l mv) s = .next (settle (dirEnds missed r0 (lockFailed y.1))))
    ∧ (openRun s = some (r, d) →
      let p := pathItems s r.path
      let x := fun (len : Nat) (cal : Option Nat) =>
        endDirection p (nth s.front.paths r.path).thr len cal s.ftu.alignOfs r.scale r.obs c d
      let late := fun (e : DirEnd) => r.startedAt + wholeTicks ((p.winOpen + e.dir.winRun) / 250) ≤ s.time.ticks
      let ends := fun (e : DirEnd) (t : State) =>
        dirEnds e.dir r (captureRegs p c e (latchPeak r.path d.isUp e.dir.peak t))
      let cut := x (min c.winRun p.winLen) (some (Config.freeIndex s.draws % 2 ^ 16))
      (late (x p.winLen none) →
        exec (.echoWindowClose c) s = .next (settle (ends (x p.winLen none) s)))
      ∧ (late cut → exec (.pllUnlockInWindow c) s = .next (settle (ends cut (drew 1 s))))))

/-- The flow engine's and the front end's jobs (R150, R152, R176, R211, R224, R230, Tables 4.5, 5.5 and 6.6): FLOW
ends with the two paths' outcomes in the low byte of its result, its record first in its output, and the throttle
it was dispatched with; PLUMB_REQUEST makes every path due; ORIENT_CHECK ends with the sign and counts it shows;
LINE_CHECK ends DONE where every line named reads 0, or FENCED for a fenced path; PEAK_PROBE brings its peak, or a
free flagged code where its direction does not fire; RAW_CAPTURE brings the words of its buffer.

The fine time unit (R185, R186, R188, R191, R201): CALIBRATE shows its sum and raises FTU_CAL_RANGE where it is
out of range or a pulse left the line; DENSITY over its 8192 hits shows DNL and raises FTU_DNL above 24; a scale
measurement of the 4 MHz count clears its staleness, raises SCALE_RANGE beyond 15,000 ppm, and is taken by a
direction whose window has not opened; a scale that is not measured in time is stale. -/
def Obligations.FlowAndFineTime : Prop :=
  (∀ (s : State) (j : Job) (tag : Nat) (o : DirObs) (lines : List LineObs),
    (runningJob s tag 5 1 = some j → exec (.flow tag) s = .next (settle (flowJob j s))
      ∧ ∃ r u k, flowJob j s = engineEnds j.id r u
        ∧ r.result = (flowOf s (flowEval s j.id 0) 0).1 + 16 * (flowOf s (flowEval s j.id 1) 1).1 + 256 * k
        ∧ r.out = u.shot.record ++ r.out.drop u.shot.record.length ∧ u.shot.throttled = j.mark)
    ∧ (runningJob s tag 4 2 = some j → exec (.plumbRequest tag) s = .next (settle (engineEnds j.id {}
        ((List.range (pathCount s)).foldl (fun t p => modShotPath p (fun x => { x with plumbDue := true }) t) s))))
    ∧ (runningJob s tag 5 2 = some j →
      let fwd := (s.shot.history.filter fun q => decide (((items s).flow.cutoff : Int) ≤ q)).length
      let rev := (s.shot.history.filter fun q => decide (q ≤ -((items s).flow.cutoff : Int))).length
      let sign := if s.shot.history.length < 16 then 0 else if 12 ≤ fwd then 1 else if 12 ≤ rev then 2 else 0
      exec (.orientCheck tag) s = .next (settle (engineEnds j.id
        { status := if sign = 1 then .done else .doneFlagged, result := sign + fwd * 4 + rev * 128 }
        (writeEvent 0x15 4 (bytesLE 1 sign ++ bytesLE 1 fwd ++ bytesLE 1 rev ++ [0])
          (raiseIf (sign == 2) Src.orientReversed (modShot (fun x =>
            { x with orientSign := sign, orientFwd := fwd, orientRev := rev, orientDt := s.time.dt }) s))))))
    ∧ (runningJob s tag 1 1 = some j → exec (.lineCheck tag lines) s = .next (settle (lineCheckJob lines j s))
      ∧ (((j.desc.arg 0).testBit 0 = true ∧ pathFenced s 0 = true) ∨ ((j.desc.arg 0).testBit 1 = true ∧ pathFenced s 1 = true) →
        lineCheckJob lines j s = engineEnds j.id { status := .fenced } s)
      ∧ (((j.desc.arg 0).testBit 0 = true → pathFenced s 0 = false) →
        ((j.desc.arg 0).testBit 1 = true → pathFenced s 1 = false) →
        ∃ r u, lineCheckJob lines j s = engineEnds j.id r u ∧ (r.status = .done ↔ r.result = 0)))
    ∧ (runningJob s tag 1 2 = some j →
      let p := j.desc.arg 0 % 2
      let isUp := !(j.desc.arg 0).testBit 1
      let x := dirStarts p isUp o s
      let peak := peakCode ((pathItems s p).winLen * 160) o
      exec (.peakProbe tag o) s = .next (settle (
        if pathFenced s p = true then engineEnds j.id { status := .fenced } s
        else if x.2 = .record then engineEnds j.id
          { status := if 250 ≤ peak then .doneFlagged else .done, result := peak + 256 * b2n (decide (250 ≤ peak)) }
          (latchPeak p isUp peak (burst p none x.1))
        else engineEnds j.id { status := .doneFlagged, result := Config.freeIndex x.1.draws % 256 } (drew 1 x.1))))
    ∧ (runningJob s tag 2 1 = some j →
      let b := (s.scribe.buf + j.desc.arg 0 % 2) % 2
      let ws := (nth s.scribe.ram b).take (128 * min 8 j.outs.length)
      exec (.rawCapture tag) s = .next (settle (engineEnds j.id (
        if (winOf s .scribe).fenced = true ∨ s.faults.grave = true then { status := .fenced }
        else {
          status := if nth s.scribe.ramOverflow b = true then .doneFlagged else .done, result := ws.length
          out := ws.flatMap fun w => bytesLE 4 w.toNat }) s))))
  ∧ (∀ (s : State) (j : Job) (tag count : Nat) (taps counts : List Nat) (escaped : Bool),
    let ok := calInRange taps && !escaped
    (runningJob s tag 3 1 = some j → exec (.calibrate tag taps escaped) s = .next (settle (engineEnds j.id
      { status := if ok = true then .done else .doneFlagged, result := calSum taps }
      (raiseIf (!ok) Src.ftuCalRange (modFtu (fun x =>
        { x with calOk := ok, calA := calSum taps, calB := calSum taps }) s)))))
    ∧ (runningJob s tag 3 2 = some j → counts.sum = 8192 →
      exec (.density tag counts) s = .next (settle (engineEnds j.id
        { status := if 24 < satNat 8 (dnlOf counts) then .doneFlagged else .done, result := satNat 8 (dnlOf counts) }
        (raiseIf (decide (24 < dnlOf counts)) Src.ftuDnl (modFtu (fun x => { x with dnl := satNat 8 (dnlOf counts) }) s)))))
    ∧ (s.boot.running = true →
      let ppb := satInt 32 (((count : Int) - 4000000) * 250)
      exec (.scaleMeasure count) s = .next (settle (
        setLevel Src.scaleRange (decide (15000000 < ppb.natAbs)) (setLevel Src.scaleStale false
          (modFtu (fun x => { x with scalePpb := ppb, scaleAt := s.time.ticks })
            (if windowOpen s = true then s else modPair (fun y => { y with scale := ppb }) s))))))
    ∧ (s.boot.running = true → passed s s.ftu.scaleAt (secTicks (4 * (items s).shot.scaleS)) = true →
      exec .scaleStale s = .next (settle (setLevel Src.scaleStale true s))))

/-! ### Temperature, integration, billing and tamper (chapters 7 to 9) -/

/-- The temperature engine (R244, R245, R247 to R249, R255, R257, R259, R264): the trigger fires at its period; a set
begins with the first input of its plan under the configuration and the flow record of its dispatch, and a set of
no input ends at once; conversion A starts when the settle has lasted its ticks; conversion A's code is kept after
the clocks of a conversion, and B's ends the input, with the bridge's current beside its codes; a channel probe
runs one input, and answers a free flagged value for inputs 6 and 7 (the model's choice, log 37). -/
def Obligations.TemperatureSets : Prop :=
  ∀ (s : State) (j : Job) (r : TempRun) (tag ua : Nat) (vin vref : Int) (limit : Bool),
    (s.boot.running = true → s.boot.bare = false → s.faults.grave = false → trigHeld s = false → trigStalled s 1 = false →
      counted s (nth s.fabric.trigLast 1) (secTicks (items s).temp.periodS) = true →
      exec .tempTrigger s = .next (settle (fireTrigger 1 (secTicks (items s).temp.periodS) s)))
    ∧ (runningJob s tag 6 1 = some j → (tempRun s).getD (setRun j s) = r → r.plan = [] → r.job = j.id →
      let plan := setPlan r.cfg (s.temp.refLeft == 0)
      let x := { r with refChecked := plan.contains 4 }
      exec (.tempSet tag) s = .next (settle (
        if plan = [] then finishSet { x with setDt := some s.time.dt } s
        else modTemp (fun t => { t with run := some (beginInput x plan s) }) s)))
    ∧ (tempRun s = some r → r.stage = .settle → r.plan ≠ [] → r.dueAt ≤ s.time.d04 →
      exec .excSettleEnd s = .next (settle (modRun (fun r =>
        { r with stage := .convA, dueAt := s.time.d04 + convTicks r, setDt := r.setDt <|> some s.time.dt }) s)))
    ∧ (tempRun s = some r → r.dueAt ≤ s.time.d04 →
      let n := r.plan.headD 0
      let t := if n = 5 then modTemp (fun x => { x with pbUa := satNat 12 ua }) s else s
      (r.stage = .convA → exec (.conversionEnd vin vref limit ua) s = .next (settle
        (modRun (fun r =>
          { r with
            stage := .convB, dueAt := s.time.d04 + convTicks r, groups := 0, lastGroup := none
            setDt := r.setDt <|> some s.time.dt
            res := upd r.res n fun x =>
              { x with a := convCode vin vref, limit := x.limit || limit, ua := x.ua ++ [ua] } })
          (noteConv n true (convCode vin vref) t))))
      ∧ (r.stage = .convB → exec (.conversionEnd vin vref limit ua) s = .next (settle
        (nextInput { r with res := upd r.res n fun x =>
          { x with b := convCode vin vref, limit := x.limit || limit, ua := x.ua ++ [ua] } }
          (noteConv n false (convCode vin vref) t)))))
    ∧ (runningJob s tag 6 2 = some j → tempRun s = none → jobActorOk j.desc j.actor = true →
      let n := j.desc.arg 0 % 8
      exec (.chProbe tag) s = .next (settle (
        if 6 ≤ n then engineEnds j.id { status := .doneFlagged, result := Config.freeIndex s.draws % 2 ^ 20 } (drew 1 s)
        else modTemp (fun t =>
          { t with run := some (beginInput { job := j.id, probe := true, cfg := (items s).temp } [n] s) }) s)))

/-- The integrator (R266, R268, R273 to R289): a STEP over a record of form 1 takes its plan's effect, answers with
its flags and cause, and ends flagged where any of its flags is set; over a record of another form it only ends;
ACC_RESET by the maker on an unsealed chip clears the accumulators, the window's sums, the reference volume and
the bypass window's beginnings; an error run of ERR_ALARM_S raises ERROR_RUN.

Billing (R300, R303, R309 to R313): the calendar is evaluated when it is due; the tariff input is taken once it
has shown its level for TAR_DEB_MS; a snapshot asked for within the day's number asks the core for a commit, one
beyond it is refused until the day's roll; a commit submitted inside its lock takes the snapshot and ends with its
sequence number, and as it completes its record is submitted and the request that waited for it ends, flagged
where a monthly commit came between. -/
def Obligations.IntegrationAndBilling : Prop :=
  (∀ (s : State) (j : Job) (tag : Nat),
    (runningJob s tag 7 1 = some j →
      (leAt (stepInput s j).flow 0 1 ≠ 1 →
        exec (.step tag) s = .next (settle (engineEnds j.id { status := .done } s)))
      ∧ (leAt (stepInput s j).flow 0 1 = 1 → exec (.step tag) s = .next (settle (stepJob j s))
        ∧ ∃ r u, stepJob j s = engineEnds j.id r u ∧ r.result = (planStep s j).flags + (planStep s j).cause * 2 ^ 12
          ∧ (r.status = .done ↔ r.result % 4096 = 0)))
    ∧ (runningJob s tag 7 2 = some j → jobActorOk j.desc j.actor = true → isSealed s = false →
      exec (.accReset tag) s = .next (settle (engineEnds j.id { status := .done } (modTamper (fun t =>
        { t with refVol := 0, bypRef := 0, bypOwn := 0 })
        (commitInteg (fun c =>
          { lastTick := c.lastTick, lastPairDt := c.lastPairDt
            win := { c.win with ticks := 0, sumV := 0, sumE := 0, sumC := 0 } }) s)))))
    ∧ ((items s).integ.errAlarmS * 32768 ≤ s.integ.errRun → s.boot.running = true →
      exec .errorRun s = .next (settle (setLevel Src.errorRun true s))))
  ∧ (∀ (s : State) (j w : Job) (r : JobResult) (tag samples : Nat) (level : Bool),
    (s.time.calDue = true → calendarRuns s = true → (winOf s .bill).fenced = false →
      exec .calendarEvaluate s = .next (settle (evaluateCalendar (modTime (fun t => { t with calDue := false }) s))))
    ∧ (s.bill.extIn ≠ level → (items s).bill.tarDebMs * 1024 ≤ samples * 1000 → sampledFor s s.bill.extAt samples = true →
      exec (.tarInChange ⟨level, samples⟩) s = .next (settle (modBill (fun b =>
        { b with extIn := level, extAt := s.time.d04 }) s)))
    ∧ (runningJob s tag 8 2 = some j → j.mark = false → jobActorOk j.desc j.actor = true →
      exec (.snapRequest tag) s = .next (settle (
        if snapsToday s < (items s).bill.snapDayMax then
          masonEvent 9 1 0 (modJob j.id (fun j => { j with mark := true }) s)
        else engineEnds j.id { status := .refusedPolicy, retryS := secondsToRoll s } s)))
    ∧ (runningJob s tag 8 1 = some j → jobActorOk j.desc j.actor = true → j.mark = true →
      j.desc.arg 0 % 4 = 1 ∨ j.desc.arg 0 % 4 = 2 →
      let u := commitSnapshot (j.desc.arg 0 % 4) s
      exec (.billCommit tag) s = .next (settle (engineEnds j.id { status := .done, result := u.bill.snapSeq % 2 ^ 16 }
        (modBill (fun b =>
          { b with
            before := some (snapBefore j.id s)
            flagged := if j.desc.arg 0 % 4 = 1 ∧ s.bill.due.any (fun d => decide (0 < d.2)) = true
              then b.flagged ++ (snapWaiters s).map (·.id) else b.flagged }) u))))
    ∧ (let v := journalSlot s.bill.newest (modBill (fun b => { b with before := none }) s)
      (j.desc.arg 0 % 4 = 1 → snapshotDone j r s = v)
      ∧ (j.desc.arg 0 % 4 = 2 → (snapWaiters v).head? = some w →
        snapshotDone j r s = engineEnds w.id
          { r with status := if v.bill.flagged.contains w.id then .doneFlagged else .done }
          (modBill (fun b => { b with flagged := b.flagged.filter (· != w.id) }) v))))

/-- Tamper (R300, R318 to R324): an input's change starts its debounce, whose end at the active polarity opens the
tamper and at the other closes it; a pulse input takes a level that PLS_DEB samples have shown, and its leading
edge counts a pulse or its reference volume by the input's mode, one faster than PLS_MAX_HZ raising
PULSE_OVERRATE; a bypass window's end leaves its shortfall, and opens or closes the source where the reference
volume sufficed to judge it; an acknowledgement clears the named latches and shows those left. -/
def Obligations.TamperInputs : Prop :=
  ∀ (s : State) (j : Job) (tag n samples : Nat) (level leading : Bool), n < 2 →
    ((debOf s n).raw ≠ level → exec (.tamperInputChange n level) s = .next (settle (modDeb n (fun d =>
        { d with raw := level, sinceTick := s.time.d04, sinceDt := s.time.dt.toNat }) s)))
    ∧ (counted s (debOf s n).sinceTick
        (msTicks (if n = 0 then (items s).tamper.magDebMs else (items s).tamper.caseDebMs)) = true →
      let u := modDeb n (fun d => { d with level := d.raw }) s
      let active := b2n (debOf s n).raw = (if n = 0 then (items s).tamper.magPol else (items s).tamper.casePol)
      exec (.tamperDebounceEnd n) s = .next (settle (
        if active then openTamper n (debOf s n).sinceDt (debOf s n).sinceTick u
        else closeTamper n (debOf s n).sinceDt (debOf s n).sinceTick 0 u)))
    ∧ (nth s.tamper.pls n ≠ level → (items s).tamper.plsDeb ≤ samples → sampledFor s (nth s.tamper.plsAt n) samples = true →
      let mode := at0 (items s).tamper.plsMode n
      exec (.pulseEdge n leading ⟨level, samples⟩) s = .next (settle (
        if leading = false ∨ mode = 0 then
          modTamper (fun t => { t with pls := put t.pls n level, plsAt := put t.plsAt n s.time.d04 }) s
        else raiseIf (((nth s.tamper.pulseAt n).map fun t => decide ((s.time.d04 - t) * (items s).tamper.plsMaxHz < 32768)).getD
            false) Src.pulseOverrate (modTamper (fun t =>
          { t with
            pls := put t.pls n level
            plsAt := put t.plsAt n s.time.d04
            pulseAt := put t.pulseAt n (some s.time.d04)
            refVol := if mode = 1 then (t.refVol + (items s).tamper.plsNl) % 2 ^ 64 else t.refVol
            pulse := if mode = 2 then upd t.pulse n (fun p => (p + 1) % 2 ^ 64) else t.pulse }) s))))
    ∧ ((items s).tamper.plsMode.contains 1 = true → counted s s.tamper.bypAt (secTicks (60 * (items s).tamper.bypWinMin)) = true →
      let now := (integNow s).volFwd.int + (integNow s).errVol.int
      let ref := s.tamper.refVol - s.tamper.bypRef
      let own := now - s.tamper.bypOwn
      let u := modTamper (fun t =>
        { t with bypAt := s.time.d04, bypRef := t.refVol, bypOwn := now, bypShort := ref - own }) s
      exec .bypassWindow s = .next (settle (
        if ref < (items s).tamper.bypMinNl then u
        else if (items s).tamper.bypTolPm * ref < (ref - own) * 1000 then openTamper 3 s.time.dt.toNat s.time.d04 u
        else closeTamper 3 s.time.dt.toNat s.time.d04 ((ref - own) / 1000000) u)))
    ∧ (runningJob s tag 9 1 = some j → jobActorOk j.desc j.actor = true →
      let left := (List.range 6).foldl (fun acc i =>
        acc + b2n (s.tamper.ack.testBit i && !((j.desc.arg 0).testBit i)) * 2 ^ i) 0
      exec (.tamperAck tag) s = .next (settle (engineEnds j.id { status := .done, result := left }
        (modTamper (fun t => { t with ack := left }) s))))

/-! ### Quoin and roles (chapters 13 and 14) -/

/-- Cipher jobs (R450 to R457, R473, Table 13.9): a job whose slot allows it and whose arguments fit computes what its
operation computes on its inputs with the slot's key, in the cycles of its blocks and mode: a result that checks
out ends DONE, or flagged with a stale mask, with the bytes out and the tag behind the payload, secret where the
slot says so; a tag that does not match ends CHECK_FAILED with nothing out, counted; a mismatch of the engine's
own check in some block stops the job, whose blocks before it count, REFUSED_POLICY with QFLAGS 2, is counted,
raises FI_DETECT and is alarm source 3. -/
def Obligations.CipherJobs : Prop :=
  ∀ (s : State) (j : Job) (tag : Nat) (fi : Option Nat), useRefused s j = false → cipherArgsOk s j = true →
    let n := j.desc.arg 0 % 32
    let p := j.desc.arg 1 % 2 ^ 16
    let sl := nth s.keys.slots n
    let mode := cipherMode s n (bits 5 5 (j.desc.arg 0))
    let ends := fun (op : Nat) =>
      let a := if op ≤ 2 then j.desc.arg 1 / 2 ^ 16 else 0
      let count := cipherBlocks op p a
      let ran := match fi with
        | some k => min k (count - 1)
        | none => count
      let x := cipherCycles mode ran s
      let u := noteStale (modCipher (fun c =>
        { c with
          blocks := c.blocks + BitVec.ofNat 32 ran, lastCycles := satNat 16 x.1
          jobsS := if mode = 0 then satInc c.jobsS else c.jobsS
          jobsM := if mode = 1 then satInc c.jobsM else c.jobsM }) x.2)
      let y := cipherResult op sl.key (inputBytes s j 0) (slice (inputBytes s j 1) 0 a)
        (slice (inputBytes s j 2) 0 p) ((tagLen (j.desc.arg 2)).getD 16)
      let stale := u.cipher.mask.stale
      let k := ceilDiv y.1.length 512
      let secret := sl.attr.outSecret && (op == 2 || op == 5 || (op == 3 && sl.attr.use.testBit 1))
      if fi.isSome = true then alarmBy 3 (raise Src.fiDetect (modCipher (fun c => { c with fi := satInc c.fi })
        (engineEnds j.id { status := .refusedPolicy, qflags := 2 } u)))
      else if y.2.2 = false then
        engineEnds j.id { status := .checkFailed, qflags := 8 * b2n stale, result := satNat 16 x.1 + mode * 2 ^ 16 }
          (modCipher (fun c => { c with tagFail := satInc c.tagFail }) u)
      else engineEnds j.id {
          status := if stale = true then .doneFlagged else .done, qflags := 8 * b2n stale
          result := satNat 16 x.1 + mode * 2 ^ 16 + (if y.2.1.isEmpty = true then 0 else k % 8) * 2 ^ 17
          out := if y.2.1.isEmpty = true then y.1 else padTo (k * 512) 0 y.1 ++ y.2.1 }
        (if secret = true then j.outs.foldl (fun t g => modGran g (fun x => { x with secret := true }) t) u else u)
    (runningJob s tag 13 1 = some j → exec (.ccmSeal tag fi) s = .next (settle (ends 1)))
    ∧ (runningJob s tag 13 2 = some j → exec (.ccmOpen tag fi) s = .next (settle (ends 2)))
    ∧ (runningJob s tag 13 3 = some j → exec (.ctr tag fi) s = .next (settle (ends 3)))
    ∧ (runningJob s tag 13 4 = some j → exec (.cbcEnc tag fi) s = .next (settle (ends 4)))
    ∧ (runningJob s tag 13 5 = some j → exec (.cbcDec tag fi) s = .next (settle (ends 5)))
    ∧ (runningJob s tag 13 6 = some j → exec (.cmacGen tag fi) s = .next (settle (ends 6)))
    ∧ (runningJob s tag 13 7 = some j → exec (.cmacVer tag fi) s = .next (settle (ends 7)))

/-- Key erasure and the entropy source (R463, R464, R468 to R473): ZEROIZE and every alarm that can reach Quoin erase
the slots their source names, a mismatch of the engine's check outside a job's command stopping what the engine
does first; an erase repeat leaves those that fail again; a RANDOM job takes its bytes or waits for them, and a
consumer that has waited 2 ms without a block is refused; raw bits are health-tested before they serve as samples,
start-up test or conditioned block, and a block goes to the mask expander where that is due, and else to the FIFO
and those that wait. -/
def Obligations.KeysAndEntropy : Prop :=
  ∀ (s : State) (j : Job) (tag i source ns reps failing since : Nat) (raw : List Bool) (want : AuthWait),
    let refused : JobResult := { status := .refusedPolicy, retryS := 1, qflags := 4 }
    (runningJob s tag 13 9 = some j → strictRefused s = false → exec (.zeroize tag ns reps) s = .next (settle
        (alarm 5 (j.desc.arg 0 % 2 ^ 24) true ns reps (engineEnds j.id {} s))))
    ∧ (alarmCan s source = true → source ≠ 3 →
      exec (.alarm source ns reps) s = .next (settle (alarm source (2 ^ 24 - 1) true ns reps s)))
    ∧ (s.lintel.mainOn = true → exec (.alarm 3 ns reps) s = .next (settle (abortLoads (alarm 3 (2 ^ 24 - 1) true ns reps
        (raise Src.fiDetect (modCipher (fun c => { c with fi := satInc c.fi }) ((onEngine s 13).foldl (fun t j =>
          engineEnds j.id { status := .refusedPolicy, qflags := 2 } t) s)))))))
    ∧ (s.keys.repeatMask ≠ 0 → exec (.eraseRepeat failing ns) s = .next (settle (modKeys (fun k =>
        { k with
          repeatMask := k.repeatMask &&& failing
          eraseNs := if k.repeatMask &&& failing = 0 then min ns 4095 else k.eraseNs }) s)))
    ∧ (runningJob s tag 14 1 = some j →
      (j.desc.arg 0 % 1024 ≠ 0 → j.desc.arg 0 % 1024 ≤ 512 → j.outs ≠ [] → j.mark = false →
        exec (.random tag) s = .next (settle (serveRandom { j with mark := true }
          (modJob j.id (fun x => { x with mark := true }) s))))
      ∧ (j.mark = true → passed s (max j.startedAt s.entropy.blockAt) (msTicks 2) = true → exec (.entropyWaitTimeout (.job tag)) s =
        .next (settle (engineEnds j.id refused s))))
    ∧ (i < 4 → (nth s.roles.sess i).want = some want → passed s want.since (msTicks 2) = true →
      let u := modRoles (fun r => { r with authLast := Status.refusedPolicy.code })
        (modSess i (fun y => { y with want := none }) s)
      exec (.entropyWaitTimeout (.port i)) s = .next (settle ((want.job.map fun id => engineEnds id refused u).getD u)))
    ∧ (s.link.reqWait = some since → passed s (max since s.entropy.blockAt) (msTicks 2) = true →
      exec (.entropyWaitTimeout .link) s = .next (settle (modLink (fun l =>
        { l with st := if l.st = 2 then 1 else l.st, best := none, join := none, reqWait := none }) s)))
    ∧ (runningJob s tag 14 2 = some j → isSealed s = false → j.desc.arg 0 % 8192 ≠ 0 → j.desc.arg 0 % 8192 ≤ 4096 →
      j.outs ≠ [] → raw.length = j.desc.arg 0 % 8192 → exec (.rawSamples tag raw) s = .next (settle (engineEnds j.id
        { out := (List.range (ceilDiv raw.length 8)).map fun i => packBits 8 ((raw.drop (8 * i)).take 8) }
        (takeRaw raw s).1)))
    ∧ (s.entropy.running = true → (winOf s .entropy).fenced = false → s.lintel.mainOn = true →
      raw.length = 1024 → exec (.startupTestPass raw) s = .next (settle (if (takeRaw raw s).2 = true then
        modEntropy (fun e => { e with startupOk := true }) (takeRaw raw s).1 else (takeRaw raw s).1)))
    ∧ (sourceRuns s = true → exec (.healthTestFail raw) s = .next (settle (takeRaw raw s).1))
    ∧ (sourceRuns s = true → raw.length = (items s).keys.condRaw →
      let block := conditionBlock s raw
      let u := modEntropy (fun e => { e with condBlocks := e.condBlocks + 1 }) (takeRaw raw s).1
      let v := modEntropy (fun e => { e with fifo := e.fifo ++ block, blockAt := s.time.ticks }) u
      exec (.conditionedBlock raw) s = .next (settle (
        if (takeRaw raw s).2 = false then (takeRaw raw s).1
        else if maskDue u = true then seedMask block u
        else if u.entropy.startupOk = false then u
        else (v.fabric.jobs.filter fun j => j.desc.engine == 14 && j.desc.opcode == 1 && j.phase == .running
          && j.mark).foldl (fun t j => serveRandom j t) (serveAuth v))))
    ∧ (s.lintel.mainOn = true → 16 * (items s).keys.reseedBits ≤ s.cipher.mask.bits →
      exec .maskStale s = .next (settle (setLevel Src.maskStale true
        (modCipher (fun c => { c with mask := { c.mask with stale := true } }) s))))

/-- Sessions (R488 to R492, R501, R503): AUTH_BEGIN gives a challenge or waits for its random bytes, AUTH_FINISH with
the right response opens the session, SESSION_END ends it; the job forms end their jobs with the exchange's
status, the register forms are writes of AUTH_CTRL with the three action bits; idle and longest time, the age of a
challenge, the end of the last lockout and DEBUG_HOURS act when they have passed. -/
def Obligations.Sessions : Prop :=
  ∀ (s : State) (j : Job) (w : WriteCtx) (v : Word) (tag i : Nat) (c : Challenge),
    (runningJob s tag 13 0x10 = some j → authWaits s j = false →
      let x := authBegin j.actor.master (j.desc.arg 0 % 8) (bytesLE 4 (j.desc.arg 1) ++ bytesLE 4 (j.desc.arg 2))
        (some j.id) s
      exec (.authBegin (.job tag)) s = .next (settle (
        if x.2.1 = .done then x.1 else engineEnds j.id { status := x.2.1, retryS := x.2.2 } x.1)))
    ∧ (runningJob s tag 13 0x11 = some j →
      let x := authFinish j.actor.master ((inputBytes s j 0).take 16) false s
      exec (.authFinish (.job tag)) s = .next (settle (engineEnds j.id
        { status := x.2.1, qflags := b2n (authKeyless s j.actor.master), out := x.2.2 } x.1)))
    ∧ (runningJob s tag 13 0x12 = some j → sessionOf j.actor.master = some i →
      exec (.sessionEnd (.job tag)) s = .next (settle (engineEnds j.id { status := .done } (endSession i s))))
    ∧ (WriteOpen s w (authCtrlAddr s) →
      let e := fun (bit : Nat) => writeEffect {} (writer s w) (place (authCtrlAddr s))
        (BitVec.ofNat 32 (v.toNat % 8 + 2 ^ bit)) (portRequest w.master s)
      let ends := fun (bit : Nat) => settle (answered (e bit).2 s w (authCtrlAddr s) (e bit).1)
      exec (.authBegin (.write w v)) s = .next (ends 8)
      ∧ exec (.authFinish (.write w v)) s = .next (ends 9)
      ∧ exec (.sessionEnd (.write w v)) s = .next (ends 10))
    ∧ (i < 4 → (nth s.roles.sess i).isOpen = true →
      (counted s (nth s.roles.sess i).lastAt (secTicks (items s).roles.sessIdleS) = true →
        exec (.sessionIdleTimeout i) s = .next (settle (endSession i s)))
      ∧ (counted s (nth s.roles.sess i).openedAt (secTicks (items s).roles.sessMaxS) = true →
        exec (.sessionMaxTimeout i) s = .next (settle (endSession i s))))
    ∧ (i < 4 → (nth s.roles.sess i).chal = some c → counted s c.at_ (secTicks (items s).roles.authChalS) = true →
      exec (.challengeExpiry i) s = .next (settle (modRoles (fun r =>
        { r with authState := if r.authState = 1 then 0 else r.authState })
        (modSess i (fun x => { x with chal := none }) s))))
    ∧ (anyLockout s = false → exec .lockoutEnd s = .next (settle (setLevel Src.authLockout false s)))
    ∧ ((items s).ports.debugHours ≠ 0 →
      counted s s.roles.debugSince (secTicks (3600 * (items s).ports.debugHours)) = true →
      exec .debugHoursExpiry s = .next (settle (modRoles (fun r => { r with debugExpired := true }) s)))

/-- AUTH_FINISH opens a session only by a matching response to the challenge, which it takes away (R488, R489): the
challenge is there and not expired, its role's key verifies the response, and the session has the challenge's
role.

A consent is committed by two different roles that the pairs of its protection items allow (R494 to R496). -/
def Obligations.AuthorityNeedsProof : Prop :=
  (∀ (s : State) (master i : Nat) (resp : List Byte) (fi : Bool), sessionOf master = some i → i < 4 →
    (nth s.roles.sess i).isOpen = false → (nth (authFinish master resp fi s).1.roles.sess i).isOpen = true →
    fi = false ∧ ∃ c k, (nth s.roles.sess i).chal = some c ∧ roleKey s c.role = some k
      ∧ counted s c.at_ (secTicks (items s).roles.authChalS) = false
      ∧ cmac k (authMsg s "YLAU" c.nc c.nh master c.role) = padTo 16 0 resp
      ∧ (nth (authFinish master resp fi s).1.roles.sess i).role = c.role
      ∧ (nth (authFinish master resp fi s).1.roles.sess i).chal = none)
  ∧ (∀ (s : State) (c : Consent) (role : Nat) (x : ConsentIn), (signOutcome s c role x).2 = .committed →
    c.state = .committed ∨ (c.state = .proposed ∧ role ≠ c.proposer ∧ x.items = c.items ∧ x.digest = c.digest
      ∧ x.baseSeq = c.baseSeq ∧ s.time.d04 < c.until_ ∧ c.baseSeq = s.boot.img.seq
      ∧ pairAllowed s c.items c.proposer role = true))

/-- Dual consent (R494 to R497, R504): a proposal with its role's token takes an entry and a reference for 24 h, the
countersign of another role over the same terms, in its locked sequence, commits it for 24 h, its proposer or
signer withdraws it, and an entry not signed or not used in time expires with CONSENT_EXPIRED and an audit record. -/
def Obligations.Consents : Prop :=
  ∀ (s : State) (j : Job) (tag e : Nat),
    let x := ConsentIn.ofBytes (inputBytes s j 0)
    let a := j.actor
    let c := nth s.roles.consents e
    let u := unlockAs .consentCommit s
    (runningJob s tag 13 0x13 = some j → within 1 3 a.role = true → strictRefused s = false →
      tokenCheck s a.role x = none → x.items < 256 → x.baseSeq = s.boot.img.seq → consentRoom s = some e →
      exec (.consentPropose tag) s = .next (settle (engineEnds j.id { result := s.roles.nextRef % 2 ^ 20 }
        (auditConsent 7 a s.roles.nextRef x.items x.digest .done (modRoles (fun r => { r with nextRef := s.roles.nextRef + 1 })
          (modConsent e (fun _ => {
            state := .proposed, proposer := a.role, items := x.items, ref := s.roles.nextRef, baseSeq := x.baseSeq
            digest := x.digest, until_ := s.time.d04 + secTicks 86400 }) s))))))
    ∧ (runningJob s tag 13 0x14 = some j → lockBusy s = false ∨ ownLock s .consentCommit = true →
      within 1 3 a.role = true → strictRefused u = false → tokenCheck u a.role x = none →
      consentByRef u (j.desc.arg 0) = some e → signOutcome u c a.role x = (.done, .committed) →
      exec (.consentSign tag) s = .next (settle (engineEnds j.id { status := .done, result := j.desc.arg 0 % 2 ^ 20 }
        (auditConsent 8 a (j.desc.arg 0) x.items x.digest .done (modConsent e (fun c =>
          { c with state := .committed, signer := a.role, until_ := s.time.d04 + secTicks 86400 }) u)))))
    ∧ (runningJob s tag 13 0x15 = some j → stageHolds s (j.desc.arg 0) = false → strictRefused s = false →
      consentByRef s (j.desc.arg 0) = some e →
      (c.state = .proposed ∧ a.role = c.proposer) ∨ (c.state = .committed ∧ (a.role = c.proposer ∨ a.role = c.signer)) →
      exec (.consentWithdraw tag) s = .next (settle (engineEnds j.id {} (auditConsent 9 a (j.desc.arg 0) c.items c.digest
        .done (modConsent e (fun c => { c with state := .withdrawn }) s)))))
    ∧ (e < 4 → c.until_ ≤ s.time.d04 →
      let gone := auditConsent 9 ⟨0, 0⟩ c.ref c.items c.digest .refusedPolicy
        (raise Src.consentExpired (modConsent e (fun c => { c with state := .expired }) s))
      (c.state = .proposed → exec (.consentSignExpiry e) s = .next (settle gone))
      ∧ (c.state = .committed → exec (.consentUseExpiry e) s = .next (settle gone)))

/-! ### The radio (chapter 11) -/

/-- Radio jobs (R375 to R377, R386, R387, R394, Table 11.7): SEND, RF_TEST, SLOT_TX and SLOT_RX take a context with
their instant. A SEND's lies its jitter after the due instant of its period, or after its dispatch, or is the
point that a wake has drawn, and its template is its own chain's; a slot whose instant can no longer be met with
the start-up it still needs, or whose carrier lies in no band entry of its port, ends SLOT_MISSED (the last is the
model's reading, log 15); the telegram's and the probe's instants come round with their periods; at a jitter point
or a retry the context's start-up begins, unless the air is taken (then a SEND or probe moves behind), VBAT is too
low (then it ends BROWNOUT) or transmissions are held. -/
def Obligations.RadioJobs : Prop :=
  ∀ (s : State) (j : Job) (c : RadioCtx) (tag t : Nat) (b : Band),
    let r := (items s).radio
    let tpl := j.tpl.getD s.radio.builtTpl
    let air := gyaleAir (bits 6 6 (j.desc.arg 2)) (bits 7 7 (j.desc.arg 2)) (slotFrame s j).length
    let wait := drawMs 0 r.drvJitterMs s
    let due := s.time.ticks - (s.time.d04 - s.radio.dueAt)
    let point := match j.mark, s.radio.wakePoint with
      | true, some t => t
      | _, _ => if s.radio.wasDue = true ∧ s.time.ticks ≤ due + wait.1 then due + wait.1 else s.time.ticks + wait.1
    (ctxOf s j.id = none → (runningJob s tag 11 2 = some j →
        exec (.wmbSend tag) s = .next (settle (enterCtx {
            job := j.id, kind := .send, at_ := some point, len := sendLen s tpl (profileNow s), template := tpl
            slot := (at0 r.templates tpl).slot, wake := j.mark }
          (modRadio (fun r => { r with wakePoint := if j.mark = true then none else r.wakePoint }) wait.2))))
      ∧ (runningJob s tag 11 6 = some j → jobActorOk j.desc j.actor = true →
        r.bandOf (j.desc.arg 0 * 1000) = some b → b.port = j.desc.arg 1 / 32 % 2 →
        within 1 1000 (j.desc.arg 2) = true → exec (.rfTest tag) s = .next (settle
        (enterCtx { job := j.id, kind := .test, at_ := some s.time.ticks, len := msTicks (j.desc.arg 2) } s)))
      ∧ (runningJob s tag 11 3 = some j → exec (.slotTx tag) s = .next (settle (
        if slotLate s j = true ∨ slotBandOk s j = false then slotMissed j.id s
        else enterCtx {
          job := j.id, kind := .slotTx, at_ := some (leadTick s (j.desc.arg 0)), len := usTicks (r.txLeadUs + air) } s)))
      ∧ (runningJob s tag 11 4 = some j → exec (.slotRx tag) s = .next (settle (
        if slotLate s j = true ∨ slotBandOk s j = false then slotMissed j.id s
        else enterCtx {
          job := j.id, kind := .slotRx, at_ := some (leadTick s (j.desc.arg 0))
          len := usTicks (r.txLeadUs + j.desc.arg 1 % 2 ^ 24) } s))))
    ∧ (j.desc.engine = 11 →
      let since := signed 32 (linkNow s + (if s.lintel.xoOn = true then 148 else 498) + 2 ^ 32 - j.desc.arg 0)
      (j.desc.opcode = 3 → (slotLate s j = true ↔ ((j.desc.arg 1 % 2 ^ 16 : Nat) : Int) < since))
      ∧ (j.desc.opcode = 4 → (slotLate s j = true ↔ 0 < since)))
    ∧ (radioUp s = true → counted s s.radio.dueAt (secTicks (at0 r.periodS (profileNow s))) = true →
      exec .telegramDue s = .next (settle (modRadio (fun x =>
        { x with dueAt := s.radio.dueAt + secTicks (at0 r.periodS (profileNow s)), wasDue := true }) s)))
    ∧ (radioUp s = true → s.radio.watch = 2 → passed s s.radio.probeAt (secTicks (60 * r.probeMin)) = true →
      exec .watchProbeDue s = .next (settle (modRadio (fun x =>
        { x with probeAt := x.probeAt + secTicks (60 * r.probeMin) }) s)))
    ∧ (jobByTag s tag = some j → ctxOf s j.id = some c → radioUp s = true → c.at_ = some t → t ≤ s.time.ticks →
      c.started = false → j.phase = .running →
      let a := ctxActivity s c j
      let begins := if slotLate s j = true then slotMissed j.id s else match airTaken s c.kind.rank c.len with
        | some free => deferStart c free s
        | none =>
          if c.kind.transmits = true ∧ txLow s = true then
            failCtx j.id .brownout 0 (modCtx j.id (fun x => { x with profF := c.kind == .send && profileNow s == 1 }) s)
          else if c.kind.transmits = true ∧ s.lintel.txHeld = true then s
          else startAct { a with txp := cappedPower s (actBand s a) a.port a.txp }
            (modCtx j.id (fun x => { x with started := true, profF := a.profF }) s)
      (c.retried = false → exec (.jitterPoint tag) s = .next (settle begins))
      ∧ (c.retried = true → exec (.sendRetry tag) s = .next (settle begins)))

/-- Activities on the air (R77, R94, R381, R384 to R387, R391, Table 11.5): at lock the transmission begins, listening
first where its band says so, or the receiver opens, and a slot reached too late is missed; no lock in time, no
crystal and a lock lost in the frame end it SYNTH_TIMEOUT; after LBT_US of listening a free channel starts the
transmission, a busy one backs off, up to LBT_TRIES times; the end of a transmission is counted and ends its job,
opens its receive window or is evaluated by the antenna watch. -/
def Obligations.RadioActivities : Prop :=
  ∀ (s : State) (b : Band) (xo : Option (Nat × Int)) (late rl air mv : Nat) (rssi : Int) (low : Bool),
    let act := s.radio.act
    let missed := fun (t : State) => (act.job.map fun id => slotMissed id (endAct t)).getD (endAct t)
    (inPhase s .startUp = true →
      let on := modLintel (fun l => { l with xoOn := true }) (modRadio (fun r => { r with locked := true }) s)
      let u := (xo.map fun x => modClock (fun c =>
        { c with xoOk := true, xoStartUs := satNat 16 x.1, linkPpm := satInt 16 x.2 }) on).getD on
      (lockOverdue s ((xo.map (·.1)).getD 0) = false → exec (.synthLock xo late) s = .next (settle (
        if act.kind.transmits = true then
          (if (actBand u act).any (fun b => b.lbtEn == 1) = true ∧ act.tries = 0 then
            modAct (fun x => { x with phase := .lbt, since := s.time.ticks }) u
          else beginTx late u)
        else if tooLate u act late = true then missed u
        else modAct (fun x => { x with phase := .onAir, since := s.time.ticks }) u)))
      ∧ (tooLate s act late = false → s.lintel.peak ≠ .program → beginTx late s =
        modLintel (fun l => { l with eraseSuspended := l.peak == .erase, peak := .tx })
          (modAct (fun a => { a with phase := .onAir, since := s.time.ticks }) s))
      ∧ (s.radio.locked = false → passed s act.since (400 * 512 / 15625) = true →
        exec (.synthTimeout late) s = .next (settle (synthFail late s)))
      ∧ (s.lintel.xoOn = false → passed s act.since (1000 * 512 / 15625) = true →
        exec (.xo39StartTimeout late) s = .next (settle (synthFail late (raise Src.xo39Fail
          (modClock (fun c => { c with xoOk := false, monFail := setBit c.monFail 8 true }) s))))))
    ∧ (inPhase s .onAir = true → exec .lockLostInFrame s = .next (settle (frameLost s)))
    ∧ (act.kind = .none → s.lintel.xoOn = true → passed s s.lintel.xoIdleSince (msTicks 2) = true →
      exec .xo39RunOnExpiry s = .next (settle (modLintel (fun l => { l with xoOn := false }) s)))
    ∧ (inPhase s .lbt = true → actBand s act = some b → passed s act.since (b.lbtUs * 512 / 15625) = true →
      let u := modAct (fun x => { x with tries := act.tries + 1 }) s
      let v := modRadio (fun r => { r with lbtBusy := satInc r.lbtBusy }) (synthGood (endAct u))
      let wait := drawMs 1 b.lbtBackoffMs u
      exec (.lbtListenEnd rssi late) s = .next (settle (
        if rssi < 2 * b.lbtDbm then beginTx late u
        else if tooLate s act late = true then missed u
        else if b.lbtTries ≤ act.tries + 1 then
          (match act.kind, act.job with
          | .slotTx, some id => slotMissed id v
          | _, _ => failAct act .refusedPolicy 1 v)
        else modAct (fun x => { x with phase := .backoff, since := s.time.ticks + wait.1 }) wait.2)))
    ∧ (inPhase s .backoff = true → act.since ≤ s.time.ticks → exec .lbtBackoffEnd s =
      .next (settle (modAct (fun x => { x with phase := .lbt, since := s.time.ticks }) s)))
    ∧ (inPhase s .onAir = true → act.kind.transmits = true →
      let n := if low = true then s.radio.paRun + 1 else 0
      let u := raiseIf (n == 4) Src.paLow (modRadio (fun r =>
        { r with
          lastAir := satNat 24 air, txCount := r.txCount + 1, paRun := if n = 4 then 0 else n
          rlLast := if 0 ≤ act.txp then min rl 63 else r.rlLast })
        (modLintel (fun l => { l with minLoaded := mv }) (synthGood (endAct s))))
      let v := if watchTakes s act = true then watchEval (min rl 63) u else u
      exec (.txEnd rl low air mv) s = .next (settle (match act.kind, act.job with
        | .send, some id => telegramOut id false v
        | .answer, some id => telegramOut id true v
        | .probe, some id => leaveCtx id { status := .done, result := min rl 63 } v
        | .slotTx, some id => leaveCtx id { status := .done, result := air % 2 ^ 20 } v
        | _, some id => leaveCtx id { status := .done } v
        | _, none => v)))

/-- Reception (R388 to R390, R392, R398 to R402): a receive window's start-up begins in time for its opening where the
air is free, and it closes at its end; a synchronisation word is noted; a frame that the receiver must give up is
counted and ends its slot RX_INTERFERED; a frame that fails its check, or is of a format its mode does not have,
is counted, one that passes goes to its slot's job, to its window, or wakes the chip in a sniff's extended listen;
a sniff begins at its period unless it is skipped, and ends without a rate, or with its extended listen.

Telegrams (R80, R381, R393 to R397, R400, R437, R438): a build takes its slot's next counter and delivers its
telegram; it is refused while the journal is fenced, and where the counter is exhausted and the telegram secured;
it waits for a reservation where the slot is at its own. A probe builds its telegram in the same way and takes a
context with it. A reservation that stands builds the telegram that waited; the held command whose time has come
is submitted and those it clashes with lose, or the one that comes before it makes it lose; the answer to a radio
command is built and sent in its SEND's answer time, or ends that SEND BROWNOUT. -/
def Obligations.RadioReception : Prop :=
  (∀ (s : State) (c : RadioCtx) (t : Nat) (x : WmbRx) (y : GyaleRx) (rssi : Int) (ok : Bool),
    let act := s.radio.act
    let f := profileNow s
    let heard := modAct (fun x => { x with sync := false }) s
    let bad := closeIfOver (modAct (fun x => { x with bad := true })
      (modRadio (fun r => { r with crcFail := satInc r.crcFail }) heard))
    let got := fun (rssi : Int) => modRadio (fun r => { r with rssiLast := rssi }) heard
    (radioUp s = true → windowDue s = some (c, t) →
      let u := modCtx c.job (fun c => { c with winAt := none }) s
      let len := msTicks (items s).radio.rxwLenMs
      exec .rxWindowOpen s = .next (settle (
        if airTaken u 1 (startTicks + len) = none then startAct {
            kind := .window, job := some c.job, port := (items s).radio.portOf (b2n c.profF), profF := c.profF
            opens := t, until_ := t + len } (modCtx c.job (fun c => { c with windows := c.windows + 1 }) u)
        else finishSend c.job (modRadio (fun r => { r with skipped := satInc r.skipped }) u))))
    ∧ (windowDue s = some (c, t) → c ∈ s.radio.ctxs ∧ c.winAt = some t ∧ t ≤ s.time.ticks + startTicks)
    ∧ (act.kind = .window → act.until_ ≤ s.time.ticks → act.sync = false →
      exec .rxWindowClose s = .next (settle (closeRxWindow s)))
    ∧ (inPhase s .onAir = true → act.kind.transmits = false →
      (act.sync = false → act.kind ≠ .window ∨ (act.opens ≤ s.time.ticks ∧ s.time.ticks ≤ act.until_) →
        exec .syncWordDetect s = .next (settle (modAct (fun x => { x with sync := true }) s)))
      ∧ (act.sync = true →
        (let u := modRadio (fun r => { r with interfered := satInc r.interfered }) s
          let v := modAct (fun x => { x with sync := false }) u
          exec .rxInterferenceAbort s = .next (settle (match act.kind, act.job with
            | .slotRx, some id => leaveCtx id { status := .rxInterfered } (synthGood (endAct v))
            | .window, some id => closeIfOver (modCtx id (fun c => { c with interfered := true }) v)
            | _, _ => closeIfOver v)))
        ∧ (exec (.rxFrameEnd (.gyale y ok)) s = .next (settle (if (phrOk y.phr && ok) = false then bad
          else match act.kind, act.job with
            | .slotRx, some id => leaveCtx id
              { status := .done, result := y.mpdu.length, out := y.mpdu ++ bytesInt 2 y.rssi }
              (synthGood (endAct (got y.rssi)))
            | _, _ => closeIfOver (got y.rssi))))
        ∧ (exec (.rxFrameEnd (.wmb x)) s = .next (settle (
          if (x.crcOk && modeHas (at0 (items s).radio.mode (b2n act.profF)) (b2n !x.formatA)) = false then bad
          else match act.kind, act.job with
            | .window, some id => windowFrame id x (got x.rssi)
            | .sniff, _ => if (act.extended && isWakeFrame s x) = true then synthGood (endAct (wakeFrame (got x.rssi)))
              else closeIfOver (got x.rssi)
            | _, _ => closeIfOver (got x.rssi))))))
    ∧ (act.kind ≠ .sniff → radioUp s = true → at0 (items s).radio.sniffEn f = 1 →
      passed s s.radio.sniffAt (msTicks (at0 (items s).radio.sniffPeriodMs f)) = true →
      let u := modRadio (fun x => { x with sniffAt := s.time.ticks }) s
      exec (.sniff rssi ok) s = .next (settle (if sniffSkipped s = true then
          modRadio (fun x => { x with skipped := satInc x.skipped }) u
        else startAct { kind := .sniff, port := (items s).radio.portOf f, profF := f == 1
                        until_ := s.time.ticks + usTicks (500 + at0 (items s).radio.sniffUs f) } u)))
    ∧ (act.kind = .sniff → act.phase = .onAir → act.sync = false →
      (act.extended = false → passed s act.since (usTicks (at0 (items s).radio.sniffUs f)) = true →
        exec (.sniff rssi ok) s = .next (settle (if 2 * (items s).radio.wakeDbm ≤ rssi ∧ ok = true then
            modAct (fun x => { x with extended := true, until_ := act.since + msTicks (items s).radio.wakeWaitMs }) s
          else synthGood (endAct s))))
      ∧ (act.extended = true → act.until_ ≤ s.time.ticks → exec (.sniff rssi ok) s = .next (settle (synthGood (endAct s))))))
  ∧ (∀ (s : State) (j : Job) (w : Nat × Nat) (c : RadioCtx) (tag : Nat) (h : HeldCmd) (rivals : List (Nat × Nat))
    (o : WriteObs),
    let builds := fun (tpl : Nat) (now : State) =>
      let t := at0 (items s).radio.templates tpl
      let n := nth s.radio.txc t.slot
      let out := setLevel Src.ctrExhausted true s
      if (winOf s .journal).fenced = true then
        engineEnds j.id { status := .refusedPolicy } (raise Src.ctrReserveFail s)
      else if n = 2 ^ 32 - 1 then
        (if t.profile = 0 then (if j.desc.opcode = 5 then probeNow j.id tpl out else buildNow j.id tpl out)
          else engineEnds j.id { status := .refusedPolicy } out)
      else if txcFree s t.slot = true then now
      else reserve 0x1B 1 t.slot (n + (items s).radio.ctrReserve) Src.ctrReserveFail
        (modRadio (fun r => { r with waitRes := r.waitRes ++ [(j.id, t.slot)] }) s)
    let telegram := fun (tpl : Nat) =>
      let t := at0 (items s).radio.templates tpl
      let u := takeTxc t.slot s
      (tplFrame u t (nth u.radio.txc t.slot) (tplBytes s t), nth u.radio.txc t.slot, u)
    (s.radio.waitRes.any (fun w => w.1 == j.id) = false →
      (runningJob s tag 11 1 = some j → j.desc.opcode = 1 → j.desc.arg 0 % 16 < (items s).radio.templates.length →
        let x := telegram (j.desc.arg 0 % 16)
        exec (.wmbBuild tag) s = .next (settle (builds (j.desc.arg 0 % 16)
          (engineEnds j.id { result := x.2.1 % 2 ^ 20, out := x.1 } (modJob j.id (fun y =>
            { y with tpl := some (j.desc.arg 0 % 16) }) (modRadio (fun r => { r with builtTpl := j.desc.arg 0 % 16 }) x.2.2))))))
      ∧ (runningJob s tag 11 5 = some j → j.desc.opcode = 5 → ctxOf s j.id = none → jobActorOk j.desc j.actor = true →
        let tpl := s.radio.builtTpl
        let x := telegram tpl
        exec (.watchProbe tag) s = .next (settle (builds tpl (enterCtx {
          job := j.id, kind := .probe, at_ := some s.time.ticks, len := sendLen s tpl 0, template := tpl
          slot := (at0 (items s).radio.templates tpl).slot, frame := x.1 } x.2.2)))))
    ∧ (s.radio.waitRes.find? (fun w => txcFree s w.2) = some w →
      s.fabric.jobs.find? (fun j => j.id == w.1 && j.phase == .running) = some j →
      let u := modRadio (fun r => { r with waitRes := r.waitRes.erase w }) s
      exec .ctrReserveCommit s = .next (settle (
        if j.desc.opcode = 5 then probeNow j.id s.radio.builtTpl u else buildNow j.id (j.desc.arg 0 % 16) u)))
    ∧ (s.lintel.mainOn = true →
      let ended := s.radio.held.filter fun h => decide (h.until_ ≤ s.time.ticks)
      let others := (s.radio.held.erase h).filter (heldClash h)
      heldFirst (fun a b => decide (a.at_ < b.at_))
        (ended.filter fun h => h.until_ == ended.foldl (fun m h => min m h.until_) s.time.ticks) = some h →
      exec (.commandHoldEnd rivals o) s =
        .next (settle (match heldFirst heldBefore (others.filter fun x => heldBefore x h) with
          | some x => loseCommand h x.master s
          | none => submitCommand o rivals h (others.foldl (fun t x => loseCommand x h.master t) s))))
    ∧ (s.radio.ctxs.find? (fun c => c.answerAt.any fun t => decide (t ≤ s.time.ticks)) = some c → radioUp s = true →
      airTaken s 1 (sendLen s c.template (b2n c.profF)) = none →
      let tpl := at0 (items s).radio.templates c.template
      let u := takeTxc tpl.slot s
      let a : Activity := {
        kind := .answer, job := some c.job, port := (items s).radio.portOf (b2n c.profF), profF := c.profF
        txp := (items s).radio.drivePower s.radio.watch
        until_ := s.time.ticks + sendLen s c.template (b2n c.profF) }
      (txLow s = true → exec .commandAnswer s = .next (settle (failCtx c.job .brownout 0 s)))
      ∧ (txLow s = false → s.lintel.txHeld = false → txcFree s tpl.slot = true →
        exec .commandAnswer s = .next (settle (startAct { a with txp := cappedPower s (actBand s a) a.port a.txp }
          (modCtx c.job (fun x =>
            { x with
              answerAt := none, answerJob := none, answer := []
              frame := tplFrame u tpl (nth u.radio.txc tpl.slot) (answerBytes s c) }) u))))))

/-! ### The link (chapter 12) -/

/-- Joining (R414, R420, R424, R425, R428, R472): the scan listens on its channels in turn; the best beacon is kept;
300 µs after the chosen beacon's end a connection request goes out with a counter, the next SN and a challenge
drawn, or waits up to 2 ms for random bytes; a response in its time and with that challenge makes the connection,
a refusal and an answer that does not come start again, and one with another challenge changes nothing; a router
answers requests, with a connection where it has room, and sends its beacon; a node orphaned for ORPHAN_H raises
ORPHAN. The hop sequence and first instant that a router gives are free (the model's choice, log 16). -/
def Obligations.LinkJoining : Prop :=
  ∀ (s t u : State) (x : GyaleRx) (ch c f w : Nat) (h : LinkHdr) (j b : Candidate) (chal : List Byte),
    linkOff s = false →
    let l := (items s).link
    (s.link.st = 1 →
      (s.link.scanAt ≤ s.time.ticks →
        let n := s.link.scanCh
        exec .scanListen s = .next (settle (slotRx ((linkNow s + (items s).radio.txLeadUs) % 2 ^ 32)
          (l.scanMs * 1000) (at0 (linkPlan s).adv n) 0
          (modLink (fun x =>
            { x with
              scanAt := if n < 2 then s.time.ticks + msTicks l.scanMs
                else s.time.ticks + secTicks l.scanPeriodS - 2 * msTicks l.scanMs
              scanCh := (n + 1) % 3, best := if n = 0 then none else x.best }) s))))
      ∧ (checkFrame x false s = (.pass h, t) → h.type = 0 → h.sec = false → t.link.st = 1 →
        beaconCandidate t h x ch = some b →
        let better := match t.link.best with
          | none => true
          | some o => decide (b.depth < o.depth) || (b.depth == o.depth && decide (o.rssi < b.rssi)) || b.addr == o.addr
        exec (.gyaleBeaconRx x ch) s = .next (settle (
          if better = true then modLink (fun l => { l with best := some b }) t else t)))
      ∧ (s.link.best = some b →
        (s.link.reqWait = none ∧ passed s b.at_ (usTicks 300 + 1) = false)
          ∨ (s.link.reqWait = some w ∧ passed s w (msTicks 2 + 1) = false) →
        (takeRandom 8 s = none → exec .connReqSend s = .next (settle (modLink (fun x =>
          { x with reqWait := some (x.reqWait.getD s.time.ticks) }) s)))
        ∧ (takeRandom 8 s = some (chal, t) → takeFcnt t = (some f, u) →
          let v := (takeSn b.addr u).2
          let frame := sealFrame v 1 false false b.addr (takeSn b.addr u).1 f
            (bytesLE 1 l.nodeKind ++ chal ++ bytesLE 1 l.ownPpm ++ bytesLE 1 (l.fec + 2 * l.rate))
          let air := phyAir 0 frame.length
          let since := ticksUs (s.time.ticks - b.at_)
          let at_ := linkNow s + 2 ^ 32 - since + max 300 since
          exec .connReqSend s = .next (settle (slotRx ((at_ + air) % 2 ^ 32) l.reqWinUs b.ch 0
            (slotTx (at_ % 2 ^ 32) b.ch 0 frame (modLink (fun x =>
              { x with
                st := if x.st = 1 then 2 else x.st, best := none, reqWait := none
                join := some { b with chal := chal, at_ := b.at_ + usTicks (max 300 since + air) } }) v)))))))
    ∧ (s.link.join = some j →
      let again := fun (t : State) => modLink (fun l =>
        { l with st := if l.st = 2 then 1 else l.st, best := none, join := none, reqWait := none }) t
      (passed s j.at_ (usTicks l.reqWinUs) = true → exec .connRspTimeout s = .next (settle (again s)))
      ∧ (s.link.st = 2 ∨ s.link.st = 3 → (LinkHdr.parse x.mpdu).src = j.addr →
        passed s j.at_ (usTicks (l.reqWinUs + phyAir (phrPhy x.phr) x.mpdu.length) + 1) = false →
        checkFrame x true s = (.pass h, t) → h.type = 2 → h.payload.length = 31 →
        let p := h.payload
        let v := dropStale h.src t
        let conn : Conn := {
          kind := if j.reader then 3 else 1, addr := j.addr, sleepy := (items v).link.nodeKind == 0, interval := leAt p 9 4
          hopBase := leAt p 13 1, hopInc := leAt p 14 1, map := leAt p 15 8, superv := leAt p 27 2
          peerPpm := leAt p 29 1, phy := leAt p 30 1, nextAt := v.time.ticks + usTicks (leAt p 23 4)
          seenAt := v.time.ticks, syncAt := v.time.ticks }
        (slice p 1 8 ≠ j.chal → exec (.gyaleConnRspRx x) s = .next (settle s))
        ∧ (slice p 1 8 = j.chal → leAt p 0 1 = 0 → freeConnSlot v = some c →
          (v.link.st = 2 → exec (.gyaleConnRspRx x) s = .next (settle (setLevel Src.orphan false (modLink (fun l =>
            { l with
              st := 3, depth := j.depth + 1, root := j.root, best := none, join := none, beaconAt := v.time.ticks })
            (modConn c (fun _ => conn) v)))))
          ∧ (v.link.st = 3 → exec (.gyaleConnRspRx x) s = .next (settle (modLink (fun l =>
            { l with best := none, join := none }) (modConn c (fun _ => conn) v)))))
        ∧ (slice p 1 8 = j.chal → leAt p 0 1 ≠ 0 → exec (.gyaleConnRspRx x) s = .next (settle (again v)))))
    ∧ (l.nodeKind = 1 → s.link.st = 3 →
      (checkFrame x true s = (.pass h, t) → h.type = 1 → h.payload.length = 11 → takeFcnt t = (some f, u) →
        let v := ((connOf u h.src).map fun c => freeConn c u).getD u
        let slot := if (children v).length < l.childMax then freeConnSlot v else none
        let sleepy := leAt h.payload 0 1 == 0
        let ivl := if sleepy then l.slotPeriodS else l.actIntervalMs
        let base := Config.freeIndex s.draws % 64
        let inc := Config.freeIndex (s.draws + 1) % 128 * 2 + 1
        let rspEnd := s.time.ticks + usTicks (300 + phyAir 0 63)
        let free := rspEnd + Config.freeIndex (s.draws + 2) % (if sleepy then secTicks ivl else msTicks ivl)
        let first := if sleepy then placeSlot v (secTicks ivl) 64 free else free
        let cap := leAt h.payload 10 1
        let phy := b2n (l.rate == 1 && cap.testBit 1) + 2 * b2n (l.fec == 1 && cap.testBit 0)
        let payload := bytesLE 1 (if slot.isSome then 0 else 1) ++ slice h.payload 1 8 ++ bytesLE 4 ivl ++ bytesLE 1 base
          ++ bytesLE 1 inc ++ bytesLE 8 (linkPlan s).map ++ bytesLE 4 ((first - rspEnd) * 15625 / 512)
          ++ bytesLE 2 (l.supervMs / 10) ++ bytesLE 1 l.ownPpm ++ bytesLE 1 phy
        let n := takeSn h.src v
        let sent := slotTx ((linkNow s + 300) % 2 ^ 32) ch 0 (sealFrame n.2 2 false false h.src n.1 f payload) (drew 3 n.2)
        exec (.gyaleConnReqRx x ch) s = .next (settle (match slot with
          | none => sent
          | some c => modConn c (fun _ => {
              kind := 2, addr := h.src, sleepy := sleepy, central := !sleepy, hopInc := inc, hopBase := base
              interval := ivl, peerPpm := leAt h.payload 9 1, map := (linkPlan s).map, superv := l.supervMs / 10
              phy := phy, nextAt := first, seenAt := s.time.ticks, syncAt := s.time.ticks }) sent)))
      ∧ (passed s s.link.beaconAt (msTicks l.beaconMs) = true →
        let ch := at0 (linkPlan s).adv (s.link.beaconSn.toNat % 3)
        let frame := beaconFrame s (bytesLE 2 l.netId ++ bytesLE 1 s.link.depth
          ++ bytesLE 1 (b2n (decide ((children s).length < l.childMax))) ++ s.link.root ++ bytesLE 8 (linkPlan s).map)
        let t := linkNow s + (items s).radio.txLeadUs
        exec .beaconSend s = .next (settle (slotRx ((t + phyAir 0 frame.length + 250) % 2 ^ 32) (100 + headUs) ch 0
          (slotTx (t % 2 ^ 32) ch 0 frame
            (modLink (fun x => { x with beaconAt := s.time.ticks, beaconSn := x.beaconSn + 1 }) s))))))
    ∧ (s.link.st = 1 ∨ s.link.st = 2 → passed s s.link.lostSince (secTicks (3600 * l.orphanH)) = true →
      exec .orphanTimeout s = .next (settle (setLevel Src.orphan true s)))

/-- Connections (R426 to R430, R435, R436): a due event or slot runs with the answers owed sent before it; a frame
whose answer does not come is sent again up to RETRY_N times within EVT_MAX_MS, and else given up with its event;
an empty guard listen ends the event, supervision ends the connection; data and acknowledgements are taken from
the live connection's peer, and acknowledged where they ask for it; an acknowledgement's margin goes to the power
loop, and the next frame or a listen follows within EVT_MAX_MS, or the event ends; a repeated frame is
acknowledged again and keeps no connection alive; a TERM frees the connection, and a node without parent scans.

Routed frames and messages (R431 to R434, R440, R441): FLOOD and UPLINK frames of a live peer are routed, and
acknowledged where they ask for it; what falls due is forwarded; a message not complete in REASM_S is counted
lost; LINK_SEND splits its message and waits for its frames; LINK_LEAVE leaves the parent and LINK_RESCAN frees it
and scans. -/
def Obligations.LinkConnections : Prop :=
  (∀ (s t : State) (x : GyaleRx) (c : Nat) (h : LinkHdr), linkOff s = false →
    let y := nth s.link.conns c
    let l := (items s).link
    (eventDue s y = true →
      (y.sleepy = false → exec (.connectionEvent c) s = .next (settle (runEvent c (sendOwed s))))
      ∧ (y.sleepy = true → exec (.sleepySlot c) s = .next (settle (runEvent c (sendOwed s)))))
    ∧ (y.inEvent = true → exec (.eventAnswerTimeout c) s = .next (settle (match y.sent with
      | none => endEvent c s
      | some f =>
        let r := sendOn c f.type true (!y.queue.isEmpty) f.payload f.sn ((linkNow s + 300) % 2 ^ 32) s
        if f.tries < l.retryN ∧ passed s y.eventAt (msTicks l.evtMaxMs) = false then
          (if r.2.isSome = true then modConn c (fun y => { y with sent := some { f with tries := f.tries + 1 } }) r.1 else r.1)
        else endEvent c (giveUpSent c s))))
    ∧ (y.inEvent = true → y.listening = true → exec (.guardListenTimeout c) s = .next (settle (endEvent c s)))
    ∧ (y.kind ≠ 0 → y.sleepy = false → passed s y.seenAt (msTicks (10 * y.superv)) = true →
      exec (.supervisionTimeout c) s = .next (settle (loseConn c s)))
    ∧ (checkFrame x false s = (.duplicate h, t) → connOf t h.src = some c →
      let heard := modConn c (fun y => { y with syncAt := s.time.ticks, listening := false }) t
      let again := if h.ackReq = true then sendAck c h x heard else heard
      exec (.gyaleDataRx x) s = .next (settle again) ∧ exec (.gyaleAckRx x) s = .next (settle again))
    ∧ (checkFrame x false s = (.pass h, t) → connOf t h.src = some c →
      let y := nth t.link.conns c
      let u := modLink (fun l => { l with rxOk := l.rxOk + 1 }) (hearConn c t)
      let z := nth u.link.conns c
      let acked := fun (w : State) => if h.ackReq = true then sendAck c h x w else w
      (h.type = 3 → exec (.gyaleDataRx x) s = .next (settle (
        if h.ackReq = true ∨ (y.sleepy = true ∧ y.kind = 2 ∧ y.heard = false) then sendAck c h x u else u)))
      ∧ (h.type = 4 → exec (.gyaleAckRx x) s = .next (settle (acked (match z.sent with
        | none => u
        | some f =>
          let margin := ((leAt h.payload 1 1 : Int) - 150) - sensitivity z.phy
          let v := powerLoop (linkPlan u).port margin (modConn c (fun k =>
            { k with
              sent := none
              nextAt := if z.sleepy then ((k.nextAt : Int) + signed 16 (leAt h.payload 2 2) * 512 / 15625).toNat
                        else k.nextAt }) u)
          let w := if z.kind = 1 then modLink (fun l => { l with margin := margin, parentRssi := leAt h.payload 1 1 }) v
            else v
          let w := dropForwards c ((f.job.map fun j => sendDone j (some f.frag) w).getD w)
          if h.payload.length ≠ 4 ∨ f.sn ≠ some (leAt h.payload 0 1) then u
          else if (nextFrame (nth w.link.conns c)).isSome = true ∧ eventOpen u c = true
            then sendNext c ((linkNow u + 300) % 2 ^ 32) w
          else if h.more = true ∧ eventOpen u c = true then answerListen c (linkNow u) w
          else endEvent c w))))
      ∧ (h.type = 6 →
        let v := modLink (fun l => { l with rxOk := l.rxOk + 1 }) (freeConn c t)
        exec (.gyaleTermRx x) s = .next (settle (
          if y.kind = 1 ∨ (y.kind = 3 ∧ parentConn v = none) then enterScan v else v)))))
  ∧ (∀ (s t : State) (x : GyaleRx) (j : Job) (tag c : Nat) (h : LinkHdr), linkOff s = false →
    (checkFrame x false s = (.pass h, t) → connOf t h.src = some c →
      let y := nth t.link.conns c
      let u := modLink (fun l => { l with rxOk := l.rxOk + 1 }) (hearConn c t)
      let acked := fun (w : State) =>
        if h.ackReq = true ∨ (y.sleepy = true ∧ y.kind = 2 ∧ y.heard = false) then sendAck c h x w else w
      (h.type = 5 → exec (.gyaleFloodRx x) s = .next (settle (acked (routed false c h (rxAirUs x) u))))
      ∧ (h.type = 7 → exec (.gyaleUplinkRx x) s = .next (settle (acked (routed true c h (rxAirUs x) u)))))
    ∧ exec .relayForward s = .next (settle ((s.link.fwds.filter fun f => decide (f.at_ ≤ s.time.ticks)).foldl
        (fun t f => forwardNow f t)
        (modLink (fun l => { l with fwds := l.fwds.filter fun f => !decide (f.at_ ≤ s.time.ticks) }) s)))
    ∧ (let old := fun (r : Reasm) => passed s r.since (secTicks (items s).link.reasmS)
      exec .reassemblyTimeout s = .next (settle ((s.link.reasm.filter old).foldl (fun t r =>
        failReasm r.orig r.slot r.base t) s)))
    ∧ (runningJob s tag 12 1 = some j → s.link.sends.any (fun x => x.job == j.id) = false → s.link.st = 3 →
      within 1 1024 (inputBytes s j 0).length = true →
      let up := j.desc.arg 0 % 2 == 0
      exec (.linkSend tag) s = .next (settle (sendMessage up (if up then (items s).link.ttlUp else j.desc.arg 0 / 2 % 16)
        (if up then s.link.root else bytesLE 4 (j.desc.arg 1) ++ bytesLE 4 (j.desc.arg 2)) (inputBytes s j 0)
        (some j.id) s).1))
    ∧ (runningJob s tag 12 2 = some j → jobActorOk j.desc j.actor = true → exec (.linkLeave tag) s =
      .next (settle (engineEnds j.id { status := .done } (leaveParent 1 s))))
    ∧ (runningJob s tag 12 3 = some j → jobActorOk j.desc j.actor = true →
      let u := ((parentConn s).map fun c => freeConn c s).getD s
      exec (.linkRescan tag) s = .next (settle (engineEnds j.id { status := .done }
        (enterScan u)))))

/-- A secured frame passes the checks only with a counter above the last one accepted from its sender, which it then
is (R418, R419). -/
def Obligations.LinkCountersRise : Prop :=
  ∀ (s t : State) (x : GyaleRx) (e : Bool) (h : LinkHdr) (i : Nat), checkFrame x e s = (.pass h, t) → h.sec = true →
    neighOf s h.src = some i → (nth s.link.neigh i).fcnt < h.fcnt ∧ (nth t.link.neigh i).fcnt = h.fcnt

/-! ### Display, ports and debug (chapters 16 and 17) -/

/-- The display (R545, R548, R549, R551 to R560): a REFRESH renders the page of now into the shadow and says how many
lines differ; a frame start counts the frame, an even one takes the render; the segment check begins for its job
or the day's roll, the contrast's target is computed each minute, a drive voltage outside its range for a second
raises VLCD_RANGE and one inside clears it, the page scroll and the hold time go on. -/
def Obligations.Display : Prop :=
  ∀ (s : State) (j : Job) (tag : Nat) (short : Option (Nat × Nat)) (tDie mv : Int),
    (runningJob s tag 15 1 = some j → exec (.displayRefresh tag) s = .next (settle (engineEnds j.id
        { result := (renderNow s).2.1 + b2n (renderNow s).2.2 * 2 ^ 5
            + linesDiffering (linesOf (renderNow s).1) s.lcd.drive * 2 ^ 8 }
        (modLcd (fun l => { l with shadow := linesOf (renderNow s).1 }) s))))
    ∧ (displayRuns s = true →
      ((∀ t, s.lcd.frameAt = some t → passed s t (8 * slotTicks s.lcd.cfg) = true) →
        let u := modLcd (fun l => { l with frame := l.frame + 1, frameAt := some s.time.ticks }) s
        exec .lcdFrameStart s = .next (settle (if u.lcd.frame.toNat % 2 = 0 then evenFrame u else u)))
      ∧ (s.lcd.seg = none → (winOf s .lcd).fenced = false →
        (runningJob s tag 15 2 = some j → exec (.segCheck (some tag) short) s = .next (settle (modLcd (fun l =>
          { l with seg := some { job := some j.id, found := segPair short } }) s)))
        ∧ (s.lcd.segDue = true → exec (.segCheck none short) s = .next (settle (modLcd (fun l =>
          { l with segDue := false, seg := some { job := none, found := segPair short } }) s))))
      ∧ ((∀ t, s.lcd.contrastAt = some t → passed s t (secTicks 60) = true) →
        exec (.contrastUpdate tDie mv) s = .next (settle (modLcd (fun l =>
          { l with
            tDie := tDie, contrastAt := some s.time.ticks
            nextTarget := some (vlcdTarget l.cfg tDie) }) (noteVlcd mv s))))
      ∧ (let since := s.lcd.outSince.getD s.time.ticks
        let u := modLcd (fun l =>
          { l with
            measured := mv.toNat
            outSince := if vlcdOutside l.target mv.toNat = true then some since else none }) s
        exec (.vlcdRangeTimer mv) s = .next (settle (
          if vlcdOutside s.lcd.target mv.toNat = false then setLevel Src.vlcdRange false u
          else if passed s since (secTicks 1) = true then setLevel Src.vlcdRange true u
          else u)))
      ∧ (s.lcd.hold = false → passed s s.lcd.dwellAt (secTicks (items s).display.pageS) = true →
        exec .pageDwellEnd s = .next (settle (modLcd (fun l =>
          { l with cur := (l.cur + 1) % max 1 (items s).display.pages.length, dwellAt := s.time.ticks }) s))))
    ∧ (s.lcd.hold = true → passed s s.lcd.holdAt (secTicks (items s).roles.sessIdleS) = true →
      exec .holdTimeout s = .next (settle (modLcd (fun l => { l with hold := false }) s)))

/-- The service port (R567 to R572): a request that is cut off or malformed, and one whose check fails, does nothing
but count itself and raise its source; a request before its staging is complete is answered WAIT; a read that
nothing stops is answered with its words and takes their read effects, and a write is served as its frame.

The optical port's times (R579, R580): a gap in a frame throws it away; the reply, or the answer to an AUTH begin
whose challenge has come, goes out 20 to 200 ms after its request, a new rate stands 50 ms after its reply, light
of OPT_WAKE_MS wakes the port, and without a valid frame it sleeps again, at 300 Bd and without a session. -/
def Obligations.PortFrames : Prop :=
  (∀ (s : State) (b : List Byte) (ready : Bool) (popped : List Nat) (rivals : List (Nat × Nat)) (o : WriteObs),
    s.lintel.mainOn = true →
    let addr := leAt b 1 3
    let n := spWords b
    let data := slice b 5 (4 * n)
    let u := portRequest 1 (spOpen s)
    let zeros := List.replicate (4 * n) (0 : Byte)
    let r := readWordsBut popped (roleOf (spOpen s) 1) (frameAddrs addr n) u
    exec (.spRead b ready popped) s = .next (settle (spClose (
      if b.length < 5 then spFrameError 1 addr (spOpen s)
      else if crc8 (b.take 4) ≠ b.getD 4 0 then spCheckFailed 1 addr zeros (spOpen s)
      else if spCmdOk b false = false then spFrameError 1 addr (spOpen s)
      else if ready = false then spAnswer .wait zeros (spOpen s)
      else match frameStop u 1 (roleOf (spOpen s) 1) (frameAddrs addr n) false with
        | some st => spAnswer st zeros u
        | none => spAnswer .ok (r.2.flatMap fun v => bytesLE 4 v) r.1)))
    ∧ exec (.spWrite b rivals o ready) s = .next (settle (spClose (
      if b.length < 6 + 4 * n then spFrameError 2 addr (spOpen s)
      else if crc8 (b.take 4) ≠ b.getD 4 0 ∨ crc8 data ≠ b.getD (5 + 4 * n) 0 then
        spCheckFailed 2 addr (List.replicate (n + 1) 0) (spOpen s)
      else if spCmdOk b true = false then spFrameError 2 addr (spOpen s)
      else spServeWrite o rivals addr (wordsOf n data) ready (spOpen s))))
    ∧ exec (.spFrameError b) s = .next (settle (spClose (spFrameError (if bit 7 (leAt b 0 1) = true then 2 else 1) addr
        (spOpen s)))))
  ∧ (∀ (s : State) (f : List Byte) (t r : Nat),
    (s.boot.running = true →
      (optHears s = true → exec .optCharGapTimeout s = .next (settle (optBadFrame s)))
      ∧ ((s.ports.reply <|> authReply s) = some (f, t) → passed s t (msTicks 20) = true →
        passed s t (msTicks 200 + 1) = false →
        exec .optReply s = .next (settle (modPorts (fun p =>
          { p with
            optTx := satInc p.optTx, optSent := f, reply := none, replyAuth := none
            rateAt := if p.newRate.isSome && p.rateAt.isNone then some s.time.ticks else p.rateAt }) s)))
      ∧ (s.ports.opt = .sleep → (items s).ports.optOn = 1 →
        passed s s.ports.optAt (msTicks (items s).ports.optWakeMs) = true →
        exec .optWakeDetect s = .next (settle (modPorts (fun p =>
          { p with opt := .wake, optAt := s.time.ticks, optWakes := satInc p.optWakes }) s))))
    ∧ (s.ports.newRate = some r → s.ports.rateAt = some t → passed s t (msTicks 50) = true →
      exec .optRateSwitch s = .next (settle (modPorts (fun p => { p with rate := r, newRate := none, rateAt := none }) s)))
    ∧ (let slept := endSession 1 (modPorts (fun p =>
        { p with opt := .sleep, optAt := s.time.ticks, rate := 0, newRate := none, rateAt := none, reply := none, replyAuth := none }) s)
      (s.ports.opt = .wake → passed s s.ports.optAt (msTicks 2005) = true →
        exec .optWakeListenTimeout s = .next (settle slept))
      ∧ (s.ports.opt = .opened → passed s s.ports.optAt (secTicks (items s).ports.optIdleS) = true →
        exec .optIdleTimeout s = .next (settle slept))))

/-- Optical messages (R574, R575, R577): a message of each row that its frame brings whole to a port that listens is
served and its reply kept to be sent: untagged as public, tagged under the open session's role where CNT rises and
TAG matches; a tagged one that does not match is thrown away, without a reply; one with another flag than TAGGED
is refused. -/
def Obligations.OpticalMessages : Prop :=
  ∀ (s : State) (f msg : List Byte) (m : Msg) (rivals : List (Nat × Nat)) (o : WriteObs),
    s.boot.running = true → optHears s = true → optMessage f = some msg → Msg.ofBytes msg = some m →
    let heard := modPorts (fun p => { p with opt := .opened, optAt := s.time.ticks, optRx := satInc p.optRx }) s
    let serve := fun (rivals : List (Nat × Nat)) (o : WriteObs) (role : Nat) (sec : Option (Nat × List Byte)) (t : State) =>
      let r := if 2 ≤ m.fl then (t, MsgAnswer.refused) else serveMessage o ⟨3, rivals⟩ role false m.op m.body
        (modPorts (fun p => { p with access := put p.access 3 t.time.ticks }) t)
      optReply m sec r.2 r.1
    let took := fun (rivals : List (Nat × Nat)) (o : WriteObs) =>
      if m.tagged = false then serve rivals o 4 none heard
      else match optKey heard with
        | none => optBadTag heard
        | some key =>
          if optTagOk heard m key = true then serve rivals o (roleOf heard 3) (some (m.cnt, key))
            (touchSession 3 (modPorts (fun p => { p with optCnt := m.cnt }) heard))
          else optBadTag heard
    (rowOf 1 m = true → exec (.msgIdent f) s = .next (settle (took [] {})))
    ∧ (rowOf 2 m = true → exec (.msgRead f) s = .next (settle (took [] {})))
    ∧ (rowOf 3 m = true → exec (.msgWrite f rivals o) s = .next (settle (took rivals o)))
    ∧ (rowOf 4 m = true → exec (.msgSubmit f) s = .next (settle (took [] {})))
    ∧ (rowOf 5 m = true → exec (.msgPoll f) s = .next (settle (took [] {})))
    ∧ (rowSub 6 1 m = true → exec (.msgGranuleAllocC f) s = .next (settle (took [] {})))
    ∧ (rowSub 6 2 m = true → exec (.msgGranuleAllocH f) s = .next (settle (took [] {})))
    ∧ (rowSub 6 3 m = true → exec (.msgGranuleFree f) s = .next (settle (took [] {})))
    ∧ (rowSub 6 4 m = true → exec (.msgGranuleWrite f) s = .next (settle (took [] {})))
    ∧ (rowOf 7 m = true → exec (.msgPage f) s = .next (settle (took [] {})))
    ∧ (rowSub 8 0 m = true → exec (.msgAuthBegin f) s = .next (settle (took [] {})))
    ∧ (rowSub 8 1 m = true → exec (.msgAuthFinish f) s = .next (settle (took [] {})))
    ∧ (rowSub 8 2 m = true → exec (.msgAuthEnd f) s = .next (settle (took [] {})))
    ∧ (rowOf 9 m = true → exec (.msgRate f) s = .next (settle (took [] {})))

/-- The debug port (R57, R581 to R590): a whole packet that level and session allow acts as its row of Table 17.7
says: PEEK answers the word without its read effect, POP with it, POKE writes once its data passes, STATUS answers
DBG_STATUS; HALT, RESUME, STEP, FREEZE and THAW act on the core and on dispatch; a forced halt rolls back the
locked sequence that runs; a pending halt takes effect at unlock, a freeze ends at its bound, and the idle of DCK
throws away a packet in part. -/
def Obligations.DebugPort : Prop :=
  ∀ (s : State) (p data : List Byte) (rivals : List (Nat × Nat)) (o : WriteObs) (f : FlashObs) (cut : LockCut) (since : Nat)
    (contended : Bool),
    (s.lintel.mainOn = true → s.probe.packet = none → 5 ≤ p.length → dbgStop s p true = none →
      let u := portRequest 2 s
      let a := dbgArg p
      let v := regWord u 2 (roleOf u 2) a
      let ok := dbgReplyByte p .accept
      let r := writeWord o ⟨2, rivals⟩ (roleOf u 2) a (BitVec.ofNat 32 (leAt data 0 4)) u
      let step := stepContext (a % 8) rivals o u
      (dbgOp p = 1 → exec (.dbgPeek p true) s = .next (settle (dbgData p v u)))
      ∧ (dbgOp p = 2 → exec (.dbgPoke p data rivals o) s = .next (settle (
        if data.length < 5 then modProbe (fun d => { d with packet := some p, reply := [ok] }) u
        else if crc8 (p.take 4 ++ data.take 4) ≠ data.getD 4 0 then
          modProbe (fun d => { d with reply := [ok, dbgReplyByte p .reject] })
            (dbgLast p .checkFailed 0 (dbgProtocolError u))
        else modProbe (fun d => { d with reply := [ok, ok] }) (dbgLast p r.2.1 r.2.2 r.1))))
      ∧ (dbgOp p = 3 → exec (.dbgPop p true contended) s = .next (settle (dbgData p v (
        if isRs (place a) = true then dbgLast p .done (if contended = true then 2 else 0) (rsEffect 2 (place a) u)
        else dbgLast p .refusedPolicy 0 u))))
      ∧ (dbgOp p = 4 → exec (.dbgStatus p) s = .next (settle (dbgData p (readDebug u 0x000) u)))
      ∧ (dbgOp p = 8 →
        (bit 0 a = false → exec (.dbgHalt p) s = .next (settle (dbgControl p .done (
          if u.mason.halted = true then u
          else if u.mason.lock.isSome = true then modProbe (fun d => { d with haltPending := true }) u
          else haltCore u))))
        ∧ (bit 0 a = true → exec (.dbgHaltForced p cut f) s = .next (settle (dbgControl p .done (
          match (if u.mason.halted = true then none else cutLocked cut f .aborted .done u) with
          | some t => haltCore (raise Src.forcedHalt (modProbe (fun d => { d with forced := satInc d.forced }) t))
          | none => haltPlain u)))))
      ∧ (dbgOp p = 9 → exec (.dbgResume p) s = .next (settle (dbgControl p .done (
        if u.mason.halted = true ∨ u.probe.haltPending = true then resumeCore u else u))))
      ∧ (dbgOp p = 0xA → exec (.dbgStep p rivals o) s = .next (settle (dbgControl p step.2 step.1)))
      ∧ (dbgOp p = 0xB →
        (bit 0 a = true → exec (.dbgFreeze p) s = .next (settle
          (dbgControl p .done (modFabric (fun f => { f with frozen := f.frozen <|> some u.time.ticks }) u))))
        ∧ (bit 0 a = false → exec (.dbgThaw p) s = .next (settle
          (dbgControl p .done (modFabric (fun f => { f with frozen := none }) u))))))
    ∧ (s.probe.haltPending = true → s.mason.lock = none → exec .haltPendingEffect s = .next (settle (haltCore s)))
    ∧ (s.fabric.frozen = some since → passed s since (secTicks (items s).ports.freezeMaxS) = true →
      exec .freezeMaxExpiry s = .next (settle (modFabric (fun f => { f with frozen := none }) s)))
    ∧ exec .dbgIdleReset s = .next (settle (modProbe (fun d => { d with packet := none }) s))

/-- A core that is halted, or has a halt pending, takes no new recipe, and a frozen fabric dispatches no job of class
C or H (R585, R588). -/
def Obligations.HaltAndFreezeHold : Prop :=
  ∀ (s : State) (n : Nat) (j : Job), (s.mason.halted = true ∨ s.probe.haltPending = true → exec .recipeStart s = .next (settle s))
    ∧ (s.fabric.frozen.isSome = true → nextJob s n = some j → classOfQueue j.queue < 2)
end

