-- ==== Sys2Proof/Machine/Balls.lean ====
section
/-! DEFINITION. The balls (chapter 18): the ball map, and what the chip's state gives each ball of Table 18.3 but the
digital inputs, which are commands. In the run state an analog, RF or crystal ball carries what its engine drives. -/

namespace Sys2Proof.Machine

/-- The signals of the balls, row by row, columns 1 to 12 (R598, Table 18.2). -/
def ballMap : List (String × List String) :=
  [
    ("A", ["COM0", "COM1", "COM2", "COM3", "COM4", "COM5", "COM6", "COM7", "SEG0", "SEG1", "SEG2", "SEG3"]),
    ("B", ["SEG4", "SEG5", "SEG6", "SEG7", "SEG8", "SEG9", "SEG10", "SEG11", "SEG12", "SEG13", "SEG14", "SEG15"]),
    ("C", ["T1U", "TCOM1", "T1D", "CPBF_P", "CPBF_N", "CPBR", "VBAT", "VBAT", "VBAT", "SEG36", "SEG26", "SEG16"]),
    ("D", ["T2U", "TCOM2", "T2D", "GND", "VAON", "VBAK", "GND", "VLCD", "CPLB", "SEG37", "SEG27", "SEG17"]),
    ("E", ["PT0_FP", "PT0_SP", "PT0_SN", "PT0_FN", "GND", "VCORE", "TEST_EN", "FLT_N", "ALIVE", "SEG38", "SEG28",
      "SEG18"]),
    ("F", ["PT1_FP", "PT1_SP", "PT1_SN", "PT1_FN", "VREF", "GND", "RESET_N", "IRQ_N", "SP_CS", "SEG39", "SEG29",
      "SEG19"]),
    ("G", ["PT2_FP", "PT2_SP", "PT2_SN", "PT2_FN", "GND", "VIO", "SP_CK", "SP_DI", "SP_DO", "DCK", "SEG30", "SEG20"]),
    ("H", ["PT3_FP", "PT3_SP", "PT3_SN", "PT3_FN", "VCORE", "GND", "TAR_IN", "DIO", "OPT_EN", "OPT_TX", "SEG31",
      "SEG21"]),
    ("J", ["REF_FP", "REF_SP", "REF_SN", "REF_FN", "GND", "VIO", "PLS1", "PLS2", "OPT_RX", "CASE_IN", "SEG32",
      "SEG22"]),
    ("K", ["PB_EP", "PB_SP", "PB_SN", "PB_EN", "GND", "NV_PWR", "NV_CS", "NV_CK", "MAG_IN", "XL_I", "SEG33", "SEG23"]),
    ("L", ["GND", "RFL", "GND", "VRF", "XO39_I", "NV_D0", "NV_D1", "NV_D2", "NV_D3", "XL_O", "SEG34", "SEG24"]),
    ("M", ["GND", "RFH", "GND", "VRF", "XO39_O", "ANT_SW1", "ANT_SW2", "GND", "GND", "GND", "SEG35", "SEG25"])]

/-- A ball or a group of balls of one row of Table 18.3: the lines of a path, its TCOM, the pump's balls, the temperature
and pressure balls, RFL and RFH, the 39 MHz and 32.768 kHz crystals, NV_D0 to NV_D3 and the LCD's lines among them. -/
inductive Ball where
  | irqN
  | fltN
  | alive
  | antSw1
  | antSw2
  | nvPwr
  | nvCk
  | nvCs
  | nvData
  | spDo
  | dio
  | optTx
  | optEn
  | lines (path : Nat)
  | tcom (path : Nat)
  | pump
  | sensors
  | rf
  | xo39
  | xl
  | lcdLines
  deriving DecidableEq, Repr

/-- What a ball shows: a level, an open drain or switch released, high impedance, the pull of a resistor that the table
names, off, or what its engine drives. -/
inductive BallLevel where
  | low
  | high
  | released
  | highZ
  | pulled
  | off
  | driven
  deriving DecidableEq, Repr

/-- A push-pull level. -/
def BallLevel.ofBool (b : Bool) : BallLevel := if b then .high else .low

/-- The code on ANT_SW1 and ANT_SW2: low until stage 0x7 and in the bare state, the radio's while it works, else the idle code
of ANT_MAP, also when fenced or in the grave state (R413, Table 18.3). -/
def antSwCode (s : State) : Nat :=
  if !s.lintel.mainOn || s.boot.bare || !(s.boot.running || s.faults.grave || decide (8 ≤ s.boot.stage)) then 0
  else if s.radio.act.kind == .none then at0 (items s).radio.antMap 2 else s.radio.antSw

/-- NV_PWR is on; while it is off the flash lines are driven low (R337). -/
def nvPowered (s : State) : Bool := s.lintel.mainOn && s.journal.pwr

/-- The main domain is in the run state and not in the grave state: the balls' engines work. -/
def ballsWork (s : State) : Bool := s.lintel.mainOn && s.boot.running && !s.faults.grave

/-- What a condition lets an engine drive, or else its ball's rest. -/
def BallLevel.when (b : Bool) (rest : BallLevel) : BallLevel := if b then .driven else rest

/-- The level of a ball in the present state (R599, Tables 15.6 and 18.3). -/
def ballLevel (s : State) : Ball → BallLevel
  | .irqN => .ofBool (!irqLow s)
  | .fltN => if fltLow s then .low else .released
  | .alive => .ofBool (aliveHigh s)
  | .antSw1 => .ofBool ((antSwCode s).testBit 0)
  | .antSw2 => .ofBool ((antSwCode s).testBit 1)
  | .nvPwr => if nvPowered s then .high else .released
  | .nvCk => if nvPowered s then .driven else .low
  | .nvCs => if nvPowered s then .driven else .low
  | .nvData => if nvPowered s then .driven else .low
  | .spDo => .when (s.lintel.mainOn && (spDo s).isSome) .highZ
  | .dio => .when (s.lintel.mainOn && !s.probe.reply.isEmpty) .pulled
  | .optTx => .when (ballsWork s) .low
  | .optEn => .ofBool (ballsWork s && s.ports.opt != .sleep)
  | .lines p => .when (ballsWork s && !(winOf s .front).part.getLsbD p) .pulled
  | .tcom p => .when (ballsWork s && !(winOf s .front).part.getLsbD p) .pulled
  | .pump => .when (s.lintel.mainOn && decide (1 ≤ s.boot.stage) && !s.faults.grave && !(winOf s .front).fenced) .off
  | .sensors => .when (ballsWork s && !(winOf s .temp).fenced) .pulled
  | .rf => .when (s.lintel.mainOn && s.radio.act.kind != .none) .off
  | .xo39 => .when (s.lintel.mainOn && s.lintel.xoOn) .off
  | .xl => .driven
  | .lcdLines => if glassGrounded s then .low else .driven

end Sys2Proof.Machine
end

