-- ==== Sys2Proof/WellFormed.lean ====
section
/-! DEFINITION. Well-formed commands: operands that name a tag, queue, granule, context, port or address that the block
has, and byte strings that fit their frames. An operand that is a measured voltage, count or byte is well formed at every
value; what an impossible one does is the meaning's. -/

namespace Sys2Proof

open Sys2Proof.Machine

/-- The block has 256 tags, 64 queues, 192 granules, 16 engines, 8 Mason contexts, 256 event-table entries, 4 sessions, 4
consent entries, 16 connections, two debounced inputs of each kind and 6 further hardware triggers (chapters 3, 9, 12 and
14). -/
def tagOk (n : Nat) : Bool := decide (n < 256)
def queueOk (n : Nat) : Bool := decide (n < 64)
def granuleOk (n : Nat) : Bool := decide (n < 192)
def engineOk (n : Nat) : Bool := decide (n < 16)
def contextOk (n : Nat) : Bool := decide (n < 8)
def entryOk (n : Nat) : Bool := decide (n < 256)
def sessionOk (n : Nat) : Bool := decide (n < 4)
def consentOk (n : Nat) : Bool := decide (n < 4)
def connOk (n : Nat) : Bool := decide (n < 16)
def inputOk (n : Nat) : Bool := decide (n < 2)
def triggerOk (n : Nat) : Bool := decide (2 ≤ n) && decide (n < 8)
def boundaryOk (n : Nat) : Bool := decide (1 ≤ n) && decide (n ≤ 4)

/-- A sequence number (R107), a display page (Table 16.1), a radio channel number (Table 12.7), an alarm source
(Table 13.6). -/
def seqOk (n : Nat) : Bool := decide (n < 65536)
def pageOk (n : Nat) : Bool := decide (n < 32)
def channelOk (n : Nat) : Bool := decide (n < 64)
def alarmOk (n : Nat) : Bool := decide (n ≤ 6)

/-- A byte address of the register space (R563). -/
def addrOk (n : Nat) : Bool := decide (n < 2 ^ 24)

/-- A master that is a port; one that writes register words (Table 0.5). -/
def portOk (m : Nat) : Bool := decide (1 ≤ m) && decide (m ≤ 5)
def writerOk (m : Nat) : Bool := portOk m || m == 8

/-- The writes of other masters in the same fabric cycle, and a write's own context (R17, R124). -/
def rivalsOk (l : List (Nat × Nat)) : Bool := l.all fun r => writerOk r.1 && decide (r.2 < 2 ^ 22)
def ctxOk (w : WriteCtx) : Bool := writerOk w.master && rivalsOk w.rivals && w.rivals.all fun r => r.1 != w.master

/-- Byte strings: an optical frame (R579), a service-port request (R567), the parts of a debug packet (R581). -/
def frameOk (b : List Byte) : Bool := decide (b.length ≤ 262)
def transactionOk (b : List Byte) : Bool := decide (b.length ≤ 70)
def packetOk (b : List Byte) : Bool := decide (b.length ≤ 5)

/-- An RSSI in steps of 0.5 dBm (R388); a Gyale frame's length, which is its LEN where its PHR passes (R416); a received frame. -/
def rssiOk (halves : Int) : Bool := decide (-260 ≤ halves) && decide (halves ≤ -20)
def gyaleOk (x : GyaleRx) : Bool := decide (x.mpdu.length ≤ 255) && (!phrOk x.phr || phrLen x.phr == x.mpdu.length) && rssiOk x.rssi
def rxOk (x : RxObs) : Bool :=
  match x with
  | .gyale y _ => gyaleOk y
  | .wmb y => decide (y.slot < 24) && decide (y.profile ≤ 2) && decide (y.peer.length ≤ 8) && rssiOk y.rssi

/-- The sixteen launches of a calibration (R185); the hits of a density measurement over the line's taps (R188); what a
bring-up's self-tests measure (R42). -/
def calOk (taps : List Nat) : Bool := taps.length == 16
def hitsOk (counts : List Nat) : Bool := decide (counts.length ≤ 512) && counts.sum == 8192
def bootOk (o : BootObs) : Bool := calOk o.calTaps && hitsOk o.dnlCounts

/-- Two neighbouring segments (R556). -/
def segPairOk (p : Option (Nat × Nat)) : Bool := p.all fun x => decide (x.2 < 40) && x.2 == x.1 + 1

/-- How an authentication step, a wait or a cut of a locked sequence is named. -/
def viaOk (v : AuthVia) : Bool :=
  match v with
  | .job t => tagOk t
  | .write w _ => ctxOk w
def waiterOk (w : EntropyWaiter) : Bool :=
  match w with
  | .job t => tagOk t
  | .port i => sessionOk i
  | .link => true
def cutOk (c : LockCut) : Bool :=
  match c with
  | .held => true
  | .consent t => tagOk t

/-- A command whose operands the block can meet. -/
def Instr.wellFormed : Instr → Bool
  | .vbatFall _ => true
  | .vbatRise _ o => bootOk o
  | .vioFall _ => true
  | .resetNPulse _ _ _ o => bootOk o
  | .vaonSourceSwitch _ _ _ => true
  | .vaonTouchesVret => true
  | .vbakLowChange _ => true
  | .vbatReversal _ => true
  | .stageTimeout => true
  | .watchdogExpiry _ _ => true
  | .xlFailDetect _ => true
  | .xlRetry _ _ => true
  | .xo39StartTimeout _ => true
  | .d04Tick => true
  | .timeSetRequest w _ => ctxOk w
  | .timeAdjustRequest w _ => ctxOk w
  | .timeSetApply => true
  | .vbatMeasure _ _ _ => true
  | .vbatRecovery _ => true
  | .txBrownout _ => true
  | .flashBrownout _ => true
  | .governorDayRoll _ => true
  | .governorCatchup => true
  | .imageLoadErase w _ _ => ctxOk w
  | .imageLoadProgram w _ _ => ctxOk w
  | .imageLoadFinish w _ _ o => ctxOk w && bootOk o
  | .sealCommand w _ _ => ctxOk w
  | .stage tag _ => tagOk tag
  | .stageDeferredResume _ => true
  | .reseatRequestGo w _ => ctxOk w
  | .reseatJob ask => tagOk ask.tag && ask.rivals.all writerOk
  | .activateDtReached => true
  | .reseatLock _ dur => decide (dur ≤ 2000)
  | .jobSubmit w q _ => ctxOk w && queueOk q
  | .waitingAdmission => true
  | .fifoWaitExpiry q seq => queueOk q && seqOk seq
  | .autoRetryResubmit q => queueOk q
  | .jobDispatch n _ _ => engineOk n
  | .jobCompletion tag _ => tagOk tag
  | .jobWatchdogExpiry tag => tagOk tag
  | .heldJobTimeout tag => tagOk tag
  | .granuleZeroed g _ => granuleOk g
  | .completionPop q => queueOk q
  | .queueOverrunClear w q _ => ctxOk w && queueOk q
  | .hwTrigger n => triggerOk n
  | .dtBoundaryEvent kind => boundaryOk kind
  | .masonTimerEvent i => entryOk i
  | .recipeStart => true
  | .recipeSubmit i => contextOk i
  | .recipeWait i => contextOk i
  | .recipeIfst i => contextOk i
  | .recipeLock i => contextOk i
  | .recipeUnlock i => contextOk i
  | .recipeSetitem i rivals _ => contextOk i && rivalsOk rivals
  | .recipeEnd i => contextOk i
  | .lockOverrun _ cut => cutOk cut
  | .shotTrigger => true
  | .shotPair tag => tagOk tag
  | .shotDirection o => calOk o.calA
  | .pumpSlow _ _ => true
  | .pllLockTimeout _ _ => true
  | .pllUnlockInWindow _ => true
  | .echoWindowClose c => calOk c.calB
  | .noiseRetry => true
  | .flow tag => tagOk tag
  | .plumbRequest tag => tagOk tag
  | .orientCheck tag => tagOk tag
  | .lineCheck tag _ => tagOk tag
  | .peakProbe tag _ => tagOk tag
  | .rawCapture tag => tagOk tag
  | .calibrate tag taps _ => tagOk tag && calOk taps
  | .density tag counts => tagOk tag && hitsOk counts
  | .scaleMeasure _ => true
  | .scaleStale => true
  | .tempTrigger => true
  | .tempSet tag => tagOk tag
  | .excSettleEnd => true
  | .conversionEnd _ _ _ _ => true
  | .chProbe tag => tagOk tag
  | .step tag => tagOk tag
  | .accReset tag => tagOk tag
  | .errorRun => true
  | .calendarEvaluate => true
  | .snapRequest tag => tagOk tag
  | .billCommit tag => tagOk tag
  | .tarInChange _ => true
  | .tamperInputChange n _ => inputOk n
  | .tamperDebounceEnd n => inputOk n
  | .pulseEdge n _ _ => inputOk n
  | .bypassWindow => true
  | .tamperAck tag => tagOk tag
  | .write tag _ => tagOk tag
  | .flashOpReady _ => true
  | .commitSettleEnd _ => true
  | .brownoutRewrite _ => true
  | .flashBusyTimeout => true
  | .flashIdlePowerDown => true
  | .read tag => tagOk tag
  | .rawRead tag => tagOk tag
  | .reclaim tag _ => tagOk tag
  | .relocate tag _ => tagOk tag
  | .journalRefresh tag _ => tagOk tag
  | .mount tag _ _ => tagOk tag
  | .telegramDue => true
  | .wmbBuild tag => tagOk tag
  | .ctrReserveCommit => true
  | .wmbSend tag => tagOk tag
  | .jitterPoint tag => tagOk tag
  | .synthLock _ _ => true
  | .synthTimeout _ => true
  | .lockLostInFrame => true
  | .lbtListenEnd rssi _ => rssiOk rssi
  | .lbtBackoffEnd => true
  | .sendRetry tag => tagOk tag
  | .txEnd _ _ _ _ => true
  | .watchProbeDue => true
  | .watchProbe tag => tagOk tag
  | .rfTest tag => tagOk tag
  | .slotTx tag => tagOk tag
  | .slotRx tag => tagOk tag
  | .rxInterferenceAbort => true
  | .rxFrameEnd obs => rxOk obs
  | .rxWindowOpen => true
  | .rxWindowClose => true
  | .commandHoldEnd rivals _ => rivalsOk rivals
  | .commandAnswer => true
  | .sniff rssi _ => rssiOk rssi
  | .gyaleBeaconRx x ch => gyaleOk x && channelOk ch
  | .gyaleConnReqRx x ch => gyaleOk x && channelOk ch
  | .gyaleConnRspRx x => gyaleOk x
  | .gyaleDataRx x => gyaleOk x
  | .gyaleAckRx x => gyaleOk x
  | .gyaleFloodRx x => gyaleOk x
  | .gyaleUplinkRx x => gyaleOk x
  | .gyaleTermRx x => gyaleOk x
  | .scanListen => true
  | .connReqSend => true
  | .connRspTimeout => true
  | .beaconSend => true
  | .connectionEvent c => connOk c
  | .eventAnswerTimeout c => connOk c
  | .sleepySlot c => connOk c
  | .guardListenTimeout c => connOk c
  | .supervisionTimeout c => connOk c
  | .relayForward => true
  | .reassemblyTimeout => true
  | .orphanTimeout => true
  | .linkSend tag => tagOk tag
  | .linkLeave tag => tagOk tag
  | .linkRescan tag => tagOk tag
  | .ccmSeal tag _ => tagOk tag
  | .ccmOpen tag _ => tagOk tag
  | .ctr tag _ => tagOk tag
  | .cbcEnc tag _ => tagOk tag
  | .cbcDec tag _ => tagOk tag
  | .cmacGen tag _ => tagOk tag
  | .cmacVer tag _ => tagOk tag
  | .zeroize tag _ _ => tagOk tag
  | .eraseCmd w _ _ _ => ctxOk w
  | .alarm source _ _ => alarmOk source
  | .eraseRepeat _ _ => true
  | .random tag => tagOk tag
  | .rawSamples tag _ => tagOk tag
  | .entropyWaitTimeout w => waiterOk w
  | .conditionedBlock _ => true
  | .startupTestPass _ => true
  | .healthTestFail _ => true
  | .maskStale => true
  | .authBegin via => viaOk via
  | .authFinish via => viaOk via
  | .sessionEnd via => viaOk via
  | .sessionIdleTimeout i => sessionOk i
  | .sessionMaxTimeout i => sessionOk i
  | .challengeExpiry i => sessionOk i
  | .lockoutEnd => true
  | .consentPropose tag => tagOk tag
  | .consentSign tag => tagOk tag
  | .consentWithdraw tag => tagOk tag
  | .consentSignExpiry e => consentOk e
  | .consentUseExpiry e => consentOk e
  | .debugHoursExpiry => true
  | .faultStatusClear w _ _ => ctxOk w
  | .faultForce w _ _ => ctxOk w
  | .aliveToggle => true
  | .lcdFrameStart => true
  | .displayRefresh tag => tagOk tag
  | .segCheck tag short => tag.all tagOk && segPairOk short
  | .contrastUpdate _ _ => true
  | .vlcdRangeTimer _ => true
  | .pageSelect w page _ => ctxOk w && pageOk page
  | .pageHold w page _ => ctxOk w && pageOk page
  | .pageDwellEnd => true
  | .holdTimeout => true
  | .spRead b _ _ => transactionOk b
  | .spWrite b rivals _ _ => transactionOk b && rivalsOk rivals
  | .spFrameError b => transactionOk b
  | .registerWrite w addr _ _ => ctxOk w && addrOk addr
  | .resetCauseRead => true
  | .latchedWordRead master addr => portOk master && addrOk addr
  | .granAllocC w => ctxOk w
  | .granAllocH w => ctxOk w
  | .granFree w g => ctxOk w && granuleOk g
  | .portGranuleIdleFree master => portOk master
  | .msgIdent f => frameOk f
  | .msgRead f => frameOk f
  | .msgWrite f rivals _ => frameOk f && rivalsOk rivals
  | .msgSubmit f => frameOk f
  | .msgPoll f => frameOk f
  | .msgGranuleAllocC f => frameOk f
  | .msgGranuleAllocH f => frameOk f
  | .msgGranuleFree f => frameOk f
  | .msgGranuleWrite f => frameOk f
  | .msgPage f => frameOk f
  | .msgAuthBegin f => frameOk f
  | .msgAuthFinish f => frameOk f
  | .msgAuthEnd f => frameOk f
  | .msgRate f => frameOk f
  | .optCharGapTimeout => true
  | .optReply => true
  | .optRateSwitch => true
  | .optWakeDetect => true
  | .optWakeListenTimeout => true
  | .optIdleTimeout => true
  | .dbgPeek p _ => packetOk p
  | .dbgPoke p data rivals _ => packetOk p && packetOk data && rivalsOk rivals
  | .dbgPop p _ _ => packetOk p
  | .dbgStatus p => packetOk p
  | .dbgHalt p => packetOk p
  | .dbgHaltForced p cut _ => packetOk p && cutOk cut
  | .haltPendingEffect => true
  | .dbgResume p => packetOk p
  | .dbgStep p rivals _ => packetOk p && rivalsOk rivals
  | .dbgFreeze p => packetOk p
  | .dbgThaw p => packetOk p
  | .freezeMaxExpiry => true
  | .dbgIdleReset => true
  | .vioRise _ o => bootOk o
  | .vaonPowerOn => true
  | .syncWordDetect => true
  | .xo39RunOnExpiry => true
  | .testEnChange _ _ => true
  | .clockMonitorFail _ => true

end Sys2Proof
end

