-- ==== Sys2Proof/Tests/Slice0.lean ====
section
/-! SUPPORT. The model's own tests: an ill-formed command for each check of WellFormed, a state and operands that meet the
hypotheses of every clause of every statement, and a few single steps with results taken from the spec. -/

namespace Sys2Proof.Tests

set_option Elab.async false


open Sys2Proof Sys2Proof.Machine

/-! ### Small states -/

/-- A chip that runs an image with the items given, `n` ticks after reset, with an open maker session on port 1 and an
open operator session on port 3. -/
def up (it : Items := {}) (n : Nat := 0) : State := {
  lintel := { vbatOk := true, vioOk := true, mainOn := true, vbatMv := 3600, retlost := false }
  boot := { running := true, stage := 9, img := { items := it } }
  time := { ticks := n, d04 := n, dt := BitVec.ofNat 64 n }
  roles := { sess := #v[{ isOpen := true, role := 3 }, { isOpen := true, role := 1 }, {}, {}] } }

/-- A job that runs on an engine, submitted by the maker on the service port. -/
def jobOn (engine op : Nat) (args : List Word := [0, 0, 0, 0]) : Job := {
  id := 1, tag := some 5, queue := 32, desc := { engine := engine, opcode := op, args := args }, actor := ⟨1, 3⟩
  phase := .running }

/-- A state with one job. -/
def withJob (j : Job) (s : State) : State := { s with fabric := { s.fabric with jobs := [j] } }

/-- A write of the service port with no rival. -/
def byPort : WriteCtx := ⟨1, []⟩

/-- Items with every queue enabled for every engine, port and role, eight triggers of a second each on queue 0, two
templates, one recipe and an event of each kind that a test needs. -/
def open_ : Items := {
  fabric := {
    qEnable := List.replicate 64 1, qEngines := List.replicate 64 65535, qPriority := List.replicate 64 0
    qRingLen := List.replicate 64 16, qWaitMs := List.replicate 64 1000, qPorts := List.replicate 64 31
    trig := List.replicate 8 { period := 32768, queue := 0, template := [0x00000401, 0, 0, 0, 0, 0, 0, 0] } }
  mason := {
    events := [⟨1, 0, 0, 0⟩, ⟨10, 0, 0, 5⟩], recipes := [⟨0, 7⟩]
    steps := [.submit 0 0, .wait, .ifst 0 1, .lock .billingCommit, .unlock, .setItem 0x4020 7, .stop]
    templates := [[0x00000501, 0, 0, 0, 0, 0, 0, 0], [0x00000401, 0, 0, 0, 1, 0, 0, 0]] }
  roles := { qRoles := List.replicate 32 30, stageMask := List.replicate 18 14 } }

/-! ### Witnesses: rules stated whole, the queue, whole-machine rules -/

theorem test_quality_codes :
    quality { State.reset with time := { invalid := false, sinceSet := 401 * 86400 * 32768 } } 0 = 1
    ∧ quality { State.reset with time := { invalid := false, stepSums := #v[61 * 32768, 0, 0, 0, 0, 0, 0, 0] } } 0 = 2
    ∧ quality State.reset 0 = 3 ∧ (List.replicate 32 (0 : Byte)).length = 32 ∧ (List.replicate 16 (0 : Byte)).length = 16 := by
  decide +kernel

theorem test_higherRankedWriteWins_hyps :
    let s := up
    let w : WriteCtx := ⟨1, [(2, 0x4020 / 4)]⟩
    place 0x4020 ≠ .unmapped ∧ s.faults.grave = false ∧ mayWrite s 1 3 (place 0x4020) = true
    ∧ rivalOf w 0x4020 = some 2 ∧ rivalOf byPort 0x4020 = none ∧ rivalOf ⟨1, [(3, 0x4020 / 4)]⟩ 0x4020 = none
    ∧ place 0x6038 = .queue 0x38 ∧ (strictWord (place 0x4020) && strictRefused s) = false
    ∧ writeFenced s (place 0x4020) = false := by decide +kernel

/-- One bit of the seal byte does not seal the chip, two do (R30). -/
theorem test_seal_bits :
    isSealed { State.reset with otp := [⟨0x140, 0x01⟩] } = false ∧ isSealed { State.reset with otp := [⟨0x140, 0x81⟩] } = true := by
  decide +kernel

theorem test_sealByte_hyps : (sealEffect 0 [] up).2 = .done ∧ ([] : List (Nat × Byte)).find? (fun x => x.1 == 0x140) = none := by
  decide +kernel

theorem test_disabledPins_hyps :
    let s := up { fault := { cls := [], enableInit := [], aliveEn := 0, fltnEn := 0 } }
    (items s).fault.aliveEn = 0 ∧ (items s).fault.fltnEn = 0 := by decide +kernel

theorem test_step_hyps : ({ State.reset with pending := [.d04Tick] } : State).pending = .d04Tick :: [] ∧ State.reset.pending = [] := by
  decide +kernel

theorem test_everyCommand_hyps :
    withinRatings (.vbatFall 4200) = true ∧ withinRatings (.vbatFall 4201) = false ∧ withinRatings .d04Tick = true := by decide +kernel

theorem test_wholeMachine_hyps :
    Memory.wf State.reset = true ∧ answers (step State.reset) = true ∧ answers (exec .vaonTouchesVret State.reset) = true
    ∧ (({ State.reset with otp := [⟨0x140, 0x81⟩] } : State).otp.get 0 0x140).getLsbD 7 = true
    ∧ isSealed { State.reset with otp := [⟨0x140, 0x81⟩] } = true ∧ State.reset.boot.bare = false
    ∧ ({ State.reset with faults := { grave := true } } : State).faults.grave = true
    ∧ State.reset.lintel.retlost = true := by decide +kernel
/-! ### Witnesses: supplies, starts and clocks -/

theorem test_supplyThresholds_hyps :
    vbatRated 1999 = true ∧ up.lintel.vbatOk = true ∧ up.lintel.vioOk = true ∧ up.lintel.mainOn = true ∧ vbatRated 2100 = true
    ∧ (let s : State := { State.reset with lintel := { vbatOk := false, vioOk := true } }
       s.lintel.vbatOk = false ∧ s.lintel.vioOk = true)
    ∧ (let s : State := { State.reset with lintel := { vbatOk := true, vioOk := false } }
       s.lintel.vioOk = false ∧ s.lintel.vbatOk = true) ∧ up.journal.op = .none := by decide +kernel

theorem test_resets_hyps :
    let s := up {} (4 * 32768)
    s.lintel.mainOn = true ∧ s.faults.grave = false ∧ s.boot.running = true ∧ s.clock.wdogPaused = false
    ∧ passed s s.clock.kickAt (secTicks (items s).power.wdogPeriod) = true
    ∧ (let t : State := { State.reset with time := { ticks := 99 * 32768 }, lintel := { mainOn := true }, boot := { stage := 8 } }
       t.lintel.mainOn = true ∧ t.boot.bare = false ∧ t.boot.running = false ∧ within 1 8 t.boot.stage = true
       ∧ passed t t.boot.stageSince (msTicks (stageMaxMs t.boot.stage)) = true) := by
  decide +kernel

theorem test_aonSupply_hyps :
    vbatRated 3000 = true ∧ vbakRated 3030 = true ∧ up.lintel.srcVbak = false ∧ up.lintel.mainOn = true
    ∧ vbatRated 3060 = true ∧ vbakRated 1849 = true ∧ vbatRated (-301) = true
    ∧ (let s : State := { State.reset with lintel := { srcVbak := true, vbakLow := true, mainOn := true } }
       s.lintel.srcVbak = true ∧ s.lintel.vbakLow = true ∧ (items s).power.bakFitted = 1 ∧ s.lintel.vbatOk = false)
    ∧ State.reset.lintel.mainOn = false := by decide +kernel

theorem test_loadedVbat_hyps :
    vbatRated 3600 = true ∧ vbakRated 3000 = true
    ∧ (let s := up {} (4000 * 32768)
       s.lintel.mainOn = true ∧ measureDue s = true)
    ∧ (let s := { up with radio := { act := { kind := .answer, phase := .onAir } } }
       inPhase s .onAir = true ∧ s.radio.act.kind.transmits = true ∧ 2149 < (items s).power.txMin ∧ s.radio.act.job = none)
    ∧ (let s := { up with radio := { act := { kind := .answer, phase := .onAir, job := some 3 } } }
       s.radio.act.kind = .answer ∧ s.radio.act.job = some 3 ∧ 2149 < (items s).power.flashMin)
    ∧ vbatRated 2149 = true
    ∧ (let s := { up with lintel := { up.lintel with peak := .erase }, journal := { op := .erase 4, work := [.staged 1] } }
       s.lintel.peak = .erase ∧ stageOp (takeVbat 2149 s) = true)
    ∧ (let s := { up with lintel := { up.lintel with peak := .program }, journal := { op := .program 0x10000 [0], work := [.mounted 1 none] } }
       stageOp (takeVbat 2149 s) = false ∧ mountWorks (takeVbat 2149 s) = true)
    ∧ (let s := { up with journal := { op := .program 0x10000 [0], pend := some { image := [0, 0, 1], addr := 0x10000 } }
                          lintel := { up.lintel with peak := .program } }
       stageOp (takeVbat 2149 s) = false ∧ mountWorks (takeVbat 2149 s) = false
       ∧ (s.journal.pend.map (·.own)).getD false = true)
    ∧ (let s := { up with lintel := { up.lintel with peak := .erase }, journal := { op := .erase 40, work := [.stamp 40 1] } }
       stageOp (takeVbat 2149 s) = false ∧ mountWorks (takeVbat 2149 s) = false
       ∧ (s.journal.pend.map (·.own)).getD false = false ∧ workJob (takeVbat 2149 s) = none
       ∧ ((workJob (takeVbat 2149 (withJob (jobOn 9 3) { s with journal := { s.journal with job := some 1 } }))).map
         (·.desc.opcode)) = some 3
       ∧ ((workJob (takeVbat 2149 (withJob (jobOn 9 1) { s with journal := { s.journal with job := some 1 } }))).map
         (·.desc.opcode)) = some 1) := by decide +kernel

theorem test_oscillators_hyps :
    up.clock.xlOk = true ∧ up.lintel.mainOn = true
    ∧ (let s := { up {} (64 * 32768) with clock := { xlOk := false } }
       s.clock.xlOk = false ∧ passed s s.clock.retryAt (secTicks 64) = true)
    ∧ isSealed up = false ∧ isSealed { up with otp := [⟨0x140, 0x81⟩] } = true ∧ up.clock.testEn = false := by decide +kernel

theorem test_deviceTime_hyps :
    up.time.pend = none
    ∧ (let s := { up with time := { dt := 5, pend := some ⟨false, 7, ⟨1, 3⟩⟩ } }
       s.time.pend = some ⟨false, 7, ⟨1, 3⟩⟩ ∧ setTarget s ⟨false, 7, ⟨1, 3⟩⟩ = some 7)
    ∧ (let s := { up with time := { dt := 5, pend := some ⟨true, 0xFFFFFFFFFFFFFFFA, ⟨1, 3⟩⟩ } }
       s.time.pend = some ⟨true, 0xFFFFFFFFFFFFFFFA, ⟨1, 3⟩⟩
       ∧ setTarget s ⟨true, 0xFFFFFFFFFFFFFFFA, ⟨1, 3⟩⟩ = none) := by decide +kernel

theorem test_governorDay_hyps :
    (let s := up {} (86400 * 32768)
     counted s s.lintel.gov.dayStart (secTicks 86400) = true)
    ∧ rollsRun { up with journal := { mounted := true } } = true := by decide +kernel

/-! ### Witnesses: register writes and reads -/

/-- WriteOpen as a Boolean. -/
def writeOpen (s : State) (w : WriteCtx) (addr : Nat) : Bool :=
  s.lintel.mainOn && !busyAt s (place addr) && place addr != .unmapped && !s.faults.grave
  && mayWrite (portRequest w.master s) w.master (roleOf s w.master) (place addr) && rivalOf w addr == none
  && !(strictWord (place addr) && strictRefused (portRequest w.master s))
  && !writeFenced (portRequest w.master s) (place addr)

theorem writeOpen_iff (s : State) (w : WriteCtx) (addr : Nat) : writeOpen s w addr = true ↔ WriteOpen s w addr := by
  simp only [writeOpen, WriteOpen, Bool.and_eq_true, Bool.not_eq_true', bne_iff_ne, beq_iff_eq, and_assoc]

theorem test_registerWrite_hyps :
    writeOpen up byPort 0x4020 = true ∧ place 0x4020 ≠ .block .time 0x028
    ∧ (writeEffect {} (writer up byPort) (place 0x4020) 7 (portRequest 1 up)).2 = .done := by decide +kernel

/-- A chip whose standby copy B is valid, pending and newer. -/
def standbyUp : State := { up with boot := { up.boot with copyB := { valid := true, active := false, seq := 1 } } }

theorem test_keyedWrites_hyps :
    byPort.master ≠ 8 ∧ (1 : Half) ≠ 0x7D1E ∧ writeOpen up byPort 0x4028 = true
    ∧ writeOpen standbyUp byPort 0x1040 = true ∧ ¬ (stagingNow (portRequest 1 standbyUp) = true
      ∨ (portRequest 1 standbyUp).boot.reseatWait.isSome = true)
    ∧ reseatable (portRequest 1 standbyUp) = true
    ∧ writeOpen up byPort 0x1040 = true ∧ ¬ (stagingNow (portRequest 1 up) = true
      ∨ (portRequest 1 up).boot.reseatWait.isSome = true) ∧ reseatable (portRequest 1 up) = false
    ∧ (let s := { up with journal := { work := [.staged 1] } }
       writeOpen s byPort 0x1040 = true ∧ stagingNow (portRequest 1 s) = true)
    ∧ (1 : Half) ≠ 0xA5C3 ∧ writeOpen up byPort 0x2C020 = true ∧ (1 : Half) ≠ 0xC1A5
    ∧ (let s := up { display := { pages := List.replicate 31 {} } }
       writeOpen s byPort 0x2F004 = true ∧ 30 < (items s).display.pages.length
       ∧ (items s).display.pages.length ≤ 31 ∧ 31 < 32) := by
  decide +kernel

/-- A write of the Mason core. -/
def byCore : WriteCtx := ⟨8, []⟩

theorem test_timeSetByCore_hyps : byCore.master = 8 ∧ writeOpen up byCore 0x4028 = true := by decide +kernel

theorem test_imageLoad_hyps :
    (let s : State := { up with boot := { bare := true } }
     byPort.master = 1 ∧ s.boot.bare = true ∧ writeOpen s byPort 0x1050 = true)
    ∧ writeOpen up byPort 0x1050 = true ∧ up.boot.bare = false := by decide +kernel

theorem test_sealCommand_hyps :
    byPort.master = 1 ∧ roleOf up 1 = 3 ∧ up.boot.running = true ∧ writeOpen up byPort 0x1060 = true
    ∧ (sealChip (writer up byPort) 0 [] (portRequest 1 up)).2 = .done ∧ (1 : Word) ≠ up.boot.img.metro
    ∧ (let s : State := { up with roles := { sess := #v[{}, { isOpen := true, role := 3 }, {}, {}] } }
       writeOpen s ⟨3, []⟩ 0x1060 = true) := by decide +kernel

/-- Granule 7 is held by port 1. -/
def portHolds : State := { up open_ with
  fabric := { grans := put up.fabric.grans 7 { owner := 0x23, pool := .reserve 2, port := some 1 } } }

theorem test_queueAndGranule_hyps :
    let s := up open_
    63 < 64 ∧ byPort.master < 6 ∧ writeOpen s byPort (0x6000 + 63 * 0x40 + 0x1C) = true
    ∧ writeOpen s ⟨6, []⟩ (0x6000 + 63 * 0x40 + 0x1C) = true
    ∧ writeOpen s ⟨8, []⟩ (0x6000 + 63 * 0x40 + 0x1C) = true
    ∧ writeOpen s byPort (0x6000 + 63 * 0x40 + 0x38) = true ∧ maySubmit (portRequest 1 s) (writer s byPort) 63 = true
    ∧ writeOpen up byPort (0x6000 + 63 * 0x40 + 0x38) = true ∧ maySubmit (portRequest 1 up) (writer up byPort) 63 = false
    ∧ isPort 1 = true ∧ writeOpen portHolds byPort 0x30030 = true
    ∧ (portGrans (portRequest 1 portHolds) 1).contains 7 = true ∧ writeOpen s byPort 0x30030 = true
    ∧ (portGrans (portRequest 1 s) 1).contains 7 = false
    ∧ (let s := up {} (60 * 32768)
       s.boot.running = true ∧ sessionOpen s 2 = false
       ∧ passed s (nth s.ports.access 2) (secTicks (items s).ports.optIdleS) = true) := by decide +kernel

theorem pickFree_some (d : Nat) (l : List Nat) (h : l ≠ []) : ∃ g, pickFree d l = some g := by
  match l, h with
  | [], h => exact absurd rfl h
  | [x], _ => exact ⟨x, rfl⟩
  | x :: y :: l, _ => exact ⟨_, List.getElem?_eq_getElem (Nat.mod_lt _ (by simp))⟩

theorem test_portAlloc_hyps (cls : Nat) (h : cls = 2 ∨ cls = 3) :
    ∃ t g, portAlloc cls (writer (up open_) byPort) (portRequest 1 (up open_)) = (t, some g) := by
  have hf : freeGrans (portRequest 1 (up open_)) ≠ [] := by decide +kernel
  have hp : (portGrans (portRequest 1 (up open_)) (writer (up open_) byPort).master).length
      < (items (portRequest 1 (up open_))).ports.granMax := by decide +kernel
  obtain ⟨g, hg⟩ := pickFree_some (portRequest 1 (up open_)).draws _ hf
  have hs : ∃ p, (granSources (portRequest 1 (up open_)) { queue := cls * 16, desc := { outCount := 1 } }).bind
      (·.head?) = some p := by
    rcases h with rfl | rfl <;> exact Option.isSome_iff_exists.mp (by decide +kernel)
  obtain ⟨p, hs⟩ := hs
  simp only [portAlloc, hp, hg, hs, if_true]
  exact ⟨_, g, rfl⟩

theorem test_portAllocNone_hyps :
    let s := up { ports := { granMax := 0 } }
    writeOpen s byPort 0x30030 = true
    ∧ portAlloc 2 (writer s byPort) (portRequest 1 s) = (portRequest 1 s, none)
    ∧ portAlloc 3 (writer s byPort) (portRequest 1 s) = (portRequest 1 s, none) := by
  decide +kernel

theorem test_faultWindow_hyps :
    let base := Block.roles.base
    writeOpen up byPort (base + 0xF00) = true ∧ writeOpen up byPort (base + 0xF08) = true ∧ isSealed (portRequest 1 up) = false
    ∧ (let s := { up with otp := [⟨0x140, 0x81⟩] }
       let u := portRequest 1 s
       let b : Block := .cipher
       writeOpen s byPort (b.base + 0xF08) = true ∧ isSealed u = true
       ∧ ∃ i ∈ (List.range b.sources.length).filter (fun i => (0xFFFF : Half).toNat.testBit i),
         isRaised u ⟨b, i⟩ = false ∧ classOf u ⟨b, i⟩ = 3) := by decide +kernel

theorem test_readEffects_hyps :
    up.lintel.mainOn = true ∧ frameStop (portRequest 1 up) 1 (roleOf up 1) (frameAddrs 0x1020 1) false = none
    ∧ frameStop (portRequest 1 (up open_)) 1 3 (frameAddrs (0x6000 + 63 * 0x40 + 0x2C) 1) false = none
    ∧ isPort 3 = true ∧ frameStop (portRequest 3 up) 3 (roleOf up 3) (frameAddrs 0x4000 1) false = none := by decide +kernel
/-! ### Witnesses: the fabric and the Mason core -/

theorem tryAdmit_answers (id : Nat) (s : State) (j : Job) (tp : Pool) (gp : List Pool)
    (hj : s.fabric.jobs.find? (fun j => j.id == id && j.phase == .waiting) = some j) (ht : tagSource s j = some tp)
    (hg : granSources s j = some gp) (hf : freeTags s ≠ []) : ∃ t, tryAdmit id s = some t := by
  obtain ⟨g, hp⟩ := pickFree_some s.draws _ hf
  simp only [tryAdmit, hj, ht, hg, hp]
  exact ⟨_, rfl⟩

/-- A job that waits in a queue's FIFO. -/
def waitingIn (q : Nat) (outs : Nat := 0) : Job := {
  id := 1, queue := q, desc := { engine := 4, opcode := 1, outCount := outs }, actor := ⟨8, 0⟩ }

/-- A class M job that finds no granule, beside a queued class H job that holds one. -/
def crowded : State := { up { open_ with fabric := { open_.fabric with granM := 0, granB := 0, granC := 0, granH := 192 } } with
  fabric := { jobs := [waitingIn 0 1, { id := 2, queue := 48, tag := some 9, phase := .ready, outs := [0] }] } }

theorem test_waitingJobs_hyps :
    (let s := up open_
     s.boot.running = true ∧ s.faults.grave = false ∧ firstBy (waitsBefore (takeStalled s)) (fifoHeads (takeStalled s)) = none)
    ∧ (let u := takeStalled crowded
       crowded.boot.running = true ∧ crowded.faults.grave = false
       ∧ firstBy (waitsBefore u) (fifoHeads u) = some (waitingIn 0 1)
       ∧ ∃ t, tryAdmit (waitingIn 0 1).id (if classOfQueue (waitingIn 0 1).queue = 0 then evictFor 9 (waitingIn 0 1).id u
         else u) = some t)
    ∧ (withJob (waitingIn 32) (up open_)).fabric.jobs.find? (fun j => j.queue == 32 && j.phase == .waiting
        && j.seq.toNat == 0) = some (waitingIn 32)
    ∧ (let r : Retry := ⟨0, 3, {}, ⟨8, 0⟩⟩
       let s := { up open_ with fabric := { retries := [r] } }
       s.fabric.retries.find? (fun r => r.queue == 3 && decide (r.due ≤ s.time.ticks)) = some r
       ∧ s.boot.running = true ∧ s.faults.grave = false) := by
  let m : Job := { waitingIn 0 1 with creditGran := 1, creditTags := 1 }
  have h2 : (evictFor 9 1 (takeStalled crowded)).fabric.jobs.find? (fun j => j.id == 1 && j.phase == .waiting) = some m
      ∧ tagSource (evictFor 9 1 (takeStalled crowded)) m ≠ none ∧ granSources (evictFor 9 1 (takeStalled crowded)) m ≠ none
      ∧ freeTags (evictFor 9 1 (takeStalled crowded)) ≠ [] := by decide +kernel
  obtain ⟨c, hc⟩ := Option.ne_none_iff_exists'.mp h2.2.1
  obtain ⟨d, hd⟩ := Option.ne_none_iff_exists'.mp h2.2.2.1
  exact ⟨by decide +kernel, ⟨by decide +kernel, by decide +kernel, by decide +kernel,
    tryAdmit_answers _ _ m c d h2.1 hc hd h2.2.2.2⟩, by decide +kernel, by decide +kernel⟩

/-- A ready job of the temperature engine. -/
def readyJob (role : Nat) : Job := { jobOn 6 2 with phase := .ready, queue := 48, actor := ⟨1, role⟩ }

theorem test_dispatch_hyps :
    let s := withJob (readyJob 3) (up open_)
    let f := { s with faults := { win := Vector.replicate 24 { fenced := true } } }
    let r := withJob (readyJob 4) (up open_)
    s.boot.running = true ∧ s.faults.grave = false ∧ nextJob s 6 = some (readyJob 3) ∧ engineFree s 6 = true
    ∧ engineFenced s 6 = false ∧ jobActorOk (readyJob 3).desc (readyJob 3).actor = true
    ∧ nextJob r 6 = some (readyJob 4) ∧ engineFree r 6 = true ∧ engineFenced r 6 = false
    ∧ jobActorOk (readyJob 4).desc (readyJob 4).actor = false
    ∧ nextJob f 6 = some (readyJob 3) ∧ engineFenced f 6 = true := by decide +kernel

theorem test_jobEnds_hyps :
    let e : Job := { jobOn 6 1 with phase := .ended {} }
    let h : Job := { jobOn 6 1 with phase := .held 1, queue := 16 }
    jobByTag (withJob e up) 5 = some e ∧ e.phase = .ended {}
    ∧ ¬ passed (withJob e up) e.startedAt (watchdogTicks (classOfQueue e.queue)) = true
    ∧ jobByTag (withJob e (up {} 163840)) 5 = some e ∧ e.onIt = true
    ∧ passed (withJob e (up {} 163840)) e.startedAt (watchdogTicks (classOfQueue e.queue)) = true
    ∧ jobByTag (withJob h (up {} 262144)) 5 = some h ∧ h.phase = .held 1
    ∧ passed (withJob h (up {} 262144)) h.admittedAt (4 * watchdogTicks (classOfQueue h.queue)) = true := by decide +kernel

theorem test_triggers_hyps :
    let s := { up open_ 32768 with
      time := { ticks := 32768, d04 := 32768, due := Vector.replicate 4 true }, mason := { running := true } }
    within 2 7 2 = true ∧ within 2 7 7 = true ∧ s.boot.running = true ∧ s.faults.grave = false
    ∧ (at0 (items s).fabric.trig 7).period ≠ 0
    ∧ counted s (nth s.fabric.trigLast 7) (at0 (items s).fabric.trig 7).period = true
    ∧ trigStalled s 7 = false ∧ trigHeld s = false
    ∧ within 1 4 1 = true ∧ within 1 4 4 = true ∧ nth s.time.due (4 - 1) = true
    ∧ (items s).mason.events[1]? = some ⟨10, 0, 0, 5⟩ ∧ s.mason.running = true
    ∧ counted s s.mason.timerBase ((firedOf s 1 + 1) * 5) = true
    ∧ (let t := { up with fabric := { grans := Vector.replicate 192 { scrubbing := true } } }
       191 < 192 ∧ (nth t.fabric.grans 191).scrubbing = true
       ∧ (∀ x ∈ ([] : List (Nat × Byte)), x.1 < 512 → x.2 = 0)
       ∧ ∃ x ∈ ([(511, 1)] : List (Nat × Byte)), x.1 < 512 ∧ x.2 ≠ 0) := by decide +kernel

/-- The core with context 0 at a step of recipe 0. -/
def atStep (pc : Nat) (lock : Option LockKind := none) : State := { up open_ 164 with
  mason := { running := true, ctxs := #v[{ busy := true, pc := pc, lock := lock }, {}, {}, {}, {}, {}, {}, {}]
             lock := lock.map fun k => (k, 0) } }

theorem test_recipes_hyps :
    let e : TrigEntry := ⟨2, 0, 0, 0⟩
    let s := { up open_ with mason := { running := true, fifo := [e] } }
    coreFree s = true ∧ freeContext s = some 0 ∧ nextEntry s = some e
    ∧ ((List.range 8).all fun pc => ctxMaySteps (atStep pc) 0 && notHalted (atStep pc) 0) = true
    ∧ stepAt (atStep 0) (nth (atStep 0).mason.ctxs 0) = some (.submit 0 0)
    ∧ stepAt (atStep 1) (nth (atStep 1).mason.ctxs 0) = some .wait
    ∧ stepAt (atStep 2) (nth (atStep 2).mason.ctxs 0) = some (.ifst 0 1)
    ∧ stepAt (atStep 3) (nth (atStep 3).mason.ctxs 0) = some (.lock .billingCommit)
    ∧ stepAt (atStep 4 (some .billingCommit)) (nth (atStep 4 (some .billingCommit)).mason.ctxs 0) = some .unlock
    ∧ stepAt (atStep 5) (nth (atStep 5).mason.ctxs 0) = some (.setItem 0x4020 7)
    ∧ stepAt (atStep 6) (nth (atStep 6).mason.ctxs 0) = some .stop
    ∧ stepAt (atStep 7) (nth (atStep 7).mason.ctxs 0) = none := by decide +kernel

/-- A reseat that holds its lock from tick 0, with the lock that the core shows. -/
def reseatHeld (k : LockKind) (n : Nat) : State := { up {} n with
  boot := { up.boot with reseatActive := true, reseatPhase := 1 }, mason := { lock := some (k, 0) } }

theorem test_lockBounds_hyps :
    let s := atStep 4 (some .billingCommit)
    s.mason.lock = some (.billingCommit, 0) ∧ ownLock s .journalCommit = false ∧ LockKind.billingCommit ≠ .reseat
    ∧ passed s 0 (msTicks 5) = true ∧ reseatLocked s = false
    ∧ (let c := { up {} 164 with mason := { lock := some (.journalCommit, 0) } }
       c.mason.lock = some (.journalCommit, 0) ∧ ownLock c .journalCommit = true ∧ passed c 0 (msTicks 5) = true
       ∧ reseatLocked c = false)
    ∧ ownLock (atStep 4 (some .journalCommit)) .journalCommit = false
    ∧ (let r := reseatHeld .reseat 6555
       r.mason.lock = some (.reseat, 0) ∧ reseatLocked r = true ∧ reseatInTime r = false)
    ∧ (let r := reseatHeld .keySlotLoad 164
       r.mason.lock = some (.keySlotLoad, 0) ∧ LockKind.keySlotLoad ≠ .reseat ∧ passed r 0 (msTicks 5) = true
       ∧ reseatLocked r = true ∧ reseatInTime r = true)
    ∧ (let c := withJob (jobOn 13 0x14) { up {} 164 with mason := { lock := some (.consentCommit, 0) } }
       c.mason.lock = some (.consentCommit, 0) ∧ ownLock c .consentCommit = true
       ∧ jobByTag c 5 = some (jobOn 13 0x14) ∧ runningJob c 5 13 0x14 = some (jobOn 13 0x14)
       ∧ passed c 0 (msTicks 5) = true) := by decide +kernel
/-! ### Witnesses: staging, reseat and the journal -/

/-- A STAGE job of the maker whose input is granule 0. -/
def stagingJob : Job := { jobOn 0 1 with
  desc := { engine := 0, opcode := 1, args := [48, 0, 0, 0], inHeads := [0, 0xFF, 0xFF, 0xFF] } }

/-- An amendment without change records, to sequence number 1, by the maker, with its CMAC under a key of zeros. -/
def amendMac : List Byte := [214, 16, 107, 103, 114, 178, 22, 115, 208, 242, 173, 132, 62, 67, 73, 134]
def amendBytes : List Byte := [0x59, 0x4C, 0x41, 0x4D, 1, 0, 0, 0, 0, 0, 0, 0, 1, 0, 0, 0, 3, 0, 0, 0,
  0, 0, 0, 0, 0, 0, 0, 0, 0, 0, 0, 0, 214, 16, 107, 103, 114, 178, 22, 115, 208, 242, 173, 132, 62, 67, 73, 134]
def eighteen : List (Nat × List Byte) := (List.range 18).map fun i => (i + 1, [0, 0, 0, 0])
def amendment : Amend := {
  bytes := amendBytes, headOk := true, newSeq := 1, role := 3, mac := amendMac, bodies := eighteen, recordsOk := true }

/-- A key of zeros in a slot, with a use mask and a role. -/
def withKey (slot use role : Nat) (s : State) : State := { s with
  keys := { s.keys with slots := put s.keys.slots slot {
    full := true, attr := { use := use, role := role }, key := List.replicate 16 0 } } }

/-- A chip whose STAGE job brings the amendment to an image of eighteen sections. -/
def staging : State := withKey 3 0x48 3 { withJob stagingJob (up open_) with
  boot := { (up open_).boot with img := { items := open_, bodies := eighteen } }
  sram := amendBytes.zipIdx.map fun x => ⟨x.2, x.1⟩ }

theorem staging_amend : readAmend staging stagingJob = amendment := by decide +kernel

/-- Check 1 of R47 on an amendment. -/
def macOk (s : State) (a : Amend) : Bool :=
  match roleKey s a.role with
  | some k => cmac k (a.bytes.take (a.bytes.length - 16)) == a.mac
  | none => false

theorem staging_mac : macOk staging amendment = true := by decide +kernel

theorem test_stage_hyps :
    runningJob staging 5 0 1 = some stagingJob ∧ Deferred.stage 1 ∉ staging.boot.deferred ∧ stagedJob staging ≠ some 1
    ∧ stagingNow staging = false ∧ staging.boot.reseatWait.isSome = false
    ∧ (let s := { staging with boot := { staging.boot with reseatWait := some none } }
       runningJob s 5 0 1 = some stagingJob ∧ Deferred.stage 1 ∉ s.boot.deferred ∧ s.boot.reseatWait.isSome = true)
    ∧ (let s := { staging with journal := { work := [.staged 2] } }
       runningJob s 5 0 1 = some stagingJob ∧ stagedJob s = some 2 ∧ stagingNow s = true) := by decide +kernel

/-- A chip that waits for a reseat to its standby copy B. -/
def reseating : State := { standbyUp with boot := { standbyUp.boot with reseatWait := some none } }

theorem test_staging_hyps :
    (let s := withJob (jobOn 0 2) standbyUp
     runningJob s 5 0 2 = some (jobOn 0 2) ∧ Deferred.reseatJob 1 ∉ s.boot.deferred ∧ s.boot.reseatWait ≠ some (some 1)
     ∧ stagingNow s = false ∧ s.boot.reseatWait.isSome = false ∧ reseatable s = true)
    ∧ stagingNow { standbyUp with journal := { work := [.staged 1] } } = true
    ∧ (let s := { standbyUp with boot := { standbyUp.boot with activateDt := 1 }, time := { dt := 1, invalid := false } }
       standbyPending s = true ∧ s.boot.activateDt ≠ 0 ∧ s.boot.activateDt.toNat ≤ s.time.dt.toNat
       ∧ s.time.invalid = false ∧ Deferred.reseatDt ∉ s.boot.deferred)
    ∧ ([Deferred.stage 1, .reseatJob 1, .reseatWrite ⟨1, 3⟩, .reseatDt].all fun d =>
        let s := withJob (jobOn 0 1) { standbyUp with boot := { standbyUp.boot with deferred := [d] } }
        s.boot.reseatWait == none && !stagingNow s && s.boot.deferred == [d]
        && s.fabric.jobs.find? (fun j => j.id == 1 && j.phase == .running) == some (jobOn 0 1)) = true
    ∧ reseatMayLock reseating = true := by decide +kernel

theorem test_reseatSwitches_hyps :
    reseating.boot.bare = false ∧ reseatMayLock reseating = true ∧ flashBetween reseating = true
    ∧ ([1, 2, 3].all fun n =>
        let s := { reseatHeld .reseat 6554 with boot := { up.boot with reseatActive := true, reseatPhase := n } }
        s.boot.reseatPhase == n && reseatInTime s && !s.boot.reseatFenced && flashBetween s
        && s.keys.slots.toList.all fun x => !x.loading) = true
    ∧ (let s := { up with boot := { up.boot with reseatActive := true, reseatPhase := 1, reseatFenced := true } }
       s.boot.reseatPhase = 1 ∧ reseatInTime s = true ∧ s.boot.reseatFenced = true)
    ∧ (judgeCopy (reseatTake reseating) (standbyB reseating)).reject ≠ 0 := by decide +kernel

/-- The chip that waits for its reseat, with the image that the amendment makes in copy B, not active. -/
def imageInB : State := { reseating with
  flash := (buildImage staging amendment).zipIdx.map fun x => ⟨0x10000 + x.2, x.1⟩ }

/-- That an image is accepted rests on `Config.decodeSection`, which is free (log 25); the rest of what a switch asks for
does not. -/
theorem test_switchable_hyps (h : (judgeCopy (reseatTake imageInB) (standbyB imageInB)).reject = 0) :
    let x := judgeCopy (reseatTake imageInB) (standbyB imageInB)
    reseatMayLock imageInB = true ∧ x.reject = 0 ∧ x.active = false ∧ imageInB.boot.img.seq < x.seq :=
  ⟨by decide +kernel, h, by decide +kernel, by decide +kernel⟩

/-- A journal that is mounted, with seven erased sectors and a sector in use whose next page is its fifteenth. -/
def mountedUp : State := { up open_ with
  journal := { mounted := true, size := 0x400000, pwr := true, wsector := some 40, wpage := 14
               keep := List.replicate 8 100
               sectors := [⟨40, .inUse 1, some 3⟩, ⟨41, .erased, some 2⟩, ⟨42, .erased, some 2⟩, ⟨43, .erased, some 2⟩,
                 ⟨44, .erased, some 2⟩, ⟨45, .erased, some 2⟩, ⟨46, .erased, some 2⟩, ⟨47, .erased, some 2⟩,
                 ⟨48, .inUse 2, some 3⟩] } }

/-- A pending page at 0x28000. -/
def page0 : PendingPage := { image := List.replicate 256 0xFF, addr := 0x28000 }
def pending (op : FlashOpSt) (wait : Bool := false) : State := { mountedUp with
  journal := { mountedUp.journal with op := op, pend := some { page0 with waitVbat := wait } }
  lintel := { mountedUp.lintel with peak := .program } }

/-- A WRITE of one record by the chip. -/
def writeJob : Job := { jobOn 10 1 [8, 0, 0, 0] with actor := ⟨0, 0⟩ }
def writing (f : Journal → Journal := id) : State :=
  withJob writeJob { mountedUp with journal := f mountedUp.journal }

/-- With few sectors erased. -/
def fewErased (j : Journal) : Journal := { j with sectors := [⟨40, .inUse 1, some 3⟩] }

theorem test_write_hyps :
    let victim := fun (s : State) => if (erasedSectors s).length < (items s).journal.erasedMin then oldestSector s else none
    let s := writing
    (let r := { writeJob with actor := ⟨1, 9⟩ }
     runningJob (withJob r s) 5 10 1 = some r ∧ jobActorOk r.desc r.actor = false)
    ∧ (let r := { writeJob with desc := { writeJob.desc with args := [0, 0, 0, 0] } }
       runningJob (withJob r s) 5 10 1 = some r ∧ jobActorOk r.desc r.actor = true ∧ writeOk r = false)
    ∧ runningJob s 5 10 1 = some writeJob ∧ jobActorOk writeJob.desc writeJob.actor = true ∧ writeOk writeJob = true
    ∧ journalFree s = true ∧ victim s = none
    ∧ (let s := writing fun j => { j with pend := some page0 }
       runningJob s 5 10 1 = some writeJob ∧ journalFree s = false)
    ∧ (let s := writing fewErased
       journalFree s = true ∧ victim s = some ⟨40, .inUse 1, some 3⟩) := by decide +kernel

theorem test_journalWriting_hyps :
    (let s := pending .none
     s.journal.pend = some page0 ∧ s.journal.wsector = some 40 ∧ s.journal.wpage < 15)
    ∧ flashRead (pending .none) page0.addr 0xFA = page0.image.take 0xFA
    ∧ flashRead { pending .none with flash := [(0x28005, 0)] } page0.addr 0xFA ≠ page0.image.take 0xFA
    ∧ (let s := { mountedUp with journal := { mountedUp.journal with work := [.verify] } }
       flashMay s = true ∧ s.journal.work = .verify :: [])
    ∧ (let s := pending (.program 0x28000 [1])
       s.lintel.peak ≠ .none ∧ s.journal.waitVbat = false ∧ s.lintel.peak = s.journal.op.peak ∧ flashAwake s = true
       ∧ s.journal.op = .program 0x28000 [1])
    ∧ (let s := { pending (.erase 40) with lintel := { mountedUp.lintel with peak := .erase } }
       s.lintel.peak ≠ .none ∧ s.journal.waitVbat = false ∧ s.lintel.peak = s.journal.op.peak ∧ flashAwake s = true
       ∧ s.journal.op = .erase 40)
    ∧ (let s := { pending .settle with time := { d04 := 999999 } }
       s.journal.op = .settle ∧ s.journal.pend = some page0
       ∧ counted s s.journal.opAt (upTicks (items s).journal.commitSettleUs) = true)
    ∧ (let s := { pending .none true with time := { d04 := 999999 } }
       s.journal.pend = some { page0 with waitVbat := true } ∧ flashIdle s = true ∧ s.journal.mounted = true
       ∧ (winOf s .journal).fenced = false ∧ s.faults.grave = false ∧ (items s).power.flashMin + 100 < 3600
       ∧ counted s s.journal.vbatLowAt (msTicks 10) = true) := by decide +kernel

/-- A committed page of stream 4 with sequence number 1 and no record, at 0x28000; its other bytes are 0xFF. -/
def withPage : State := { mountedUp with
  flash := [(0x28001, 0x14), (0x28003, 0), (0x28004, 1), (0x28005, 0), (0x28006, 0), (0x28007, 0), (0x28008, 0),
    (0x28009, 0), (0x2800A, 0), (0x2800B, 0), (0x2800C, 0), (0x2800D, 0), (0x2800E, 14), (0x280F0, 44), (0x280F1, 34),
    (0x280F2, 49), (0x280F3, 47), (0x280F4, 215), (0x280F5, 164), (0x280F6, 136), (0x280F7, 217), (0x280F8, 101), (0x280F9, 31),
    (0x280FA, 0xC3), (0x280FB, 0x5A), (0x280FC, 0xA5), (0x280FD, 0x3C)]
  journal := { mountedUp.journal with index := [⟨4, 1, 0x28000⟩], heads := #v[0, 0, 0, 0, 1, 0, 0, 0] } }

/-- The same page where the index has sequence number 2. -/
def badPage : State := { withPage with journal := { withPage.journal with index := [⟨4, 2, 0x28000⟩] } }

theorem test_journalJobs_hyps :
    let r := jobOn 10 2 [4, 1, 0, 0]
    let s := withJob r withPage
    flashAwake (touchFlash s) = true
    ∧ runningJob s 5 10 2 = some r ∧ jobActorOk r.desc r.actor = true ∧ hasRight s (.readJournal 4) r.actor.role = true
    ∧ s.journal.mounted = true
    ∧ (let s := withJob r mountedUp
       flashAwake (touchFlash s) = true ∧ runningJob s 5 10 2 = some r ∧ s.journal.mounted = true
       ∧ readTarget s 4 0 1 = none)
    ∧ (let r := jobOn 10 2 [4, 2, 0, 0]
       let s := withJob r badPage
       runningJob s 5 10 2 = some r ∧ flashAwake (touchFlash s) = true)
    ∧ (let j := jobOn 10 3 [0x20000, 0, 0, 0]
       let s := withJob j mountedUp
       flashAwake (touchFlash s) = true ∧ runningJob s 5 10 3 = some j ∧ jobActorOk j.desc j.actor = true
       ∧ 0x020000 ≤ bits 23 8 (j.desc.arg 0) * 256 ∧ bits 23 8 (j.desc.arg 0) * 256 < s.journal.size)
    ∧ ([4, 5, 6].all fun op =>
        let j := { jobOn 10 op with actor := ⟨8, 0⟩ }
        let s := withJob j mountedUp
        jobActorOk j.desc j.actor && journalFree s && runningJob s 5 10 op == some j) = true
    ∧ (let j := { jobOn 10 7 with actor := ⟨0, 0⟩ }
       let s := withJob j { up open_ with journal := { pwr := true } }
       flashAwake (touchFlash s) = true ∧ runningJob s 5 10 7 = some j ∧ s.journal.mounted = false
       ∧ jobActorOk j.desc j.actor = true ∧ flashIdle s = true) := by decide +kernel

theorem test_flashLimits_hyps :
    (let j := { jobOn 10 4 with queue := 32 }
     let s := fun (mv : Nat) (own : Option Nat) => withJob j { mountedUp with
       lintel := { mountedUp.lintel with vbatMv := mv }
       journal := { mountedUp.journal with op := .erase 40, job := own } }
     (s 3600 none).lintel.peak = .none ∧ (s 3600 none).journal.waitVbat = false ∧ (s 3600 none).journal.op.peak ≠ .none
     ∧ flashVbatOk (s 3600 none) = true ∧ flashVbatOk (s 1000 none) = false
     ∧ (workJob (s 1000 (some 1))).any (fun j => decide (2 ≤ classOfQueue j.queue)) = true
     ∧ (workJob (s 1000 none)).any (fun j => decide (2 ≤ classOfQueue j.queue)) = false)
    ∧ (let s := { pending (.program 0x28000 [1]) with time := { d04 := 999999 } }
       s.lintel.peak = .program ∧ counted s (max s.journal.opAt s.journal.readyAt) (busyLimit s) = true)
    ∧ (let s := { mountedUp with time := { d04 := 32768 } }
       s.journal.op = .none ∧ onEngine s 10 = [] ∧ s.journal.pwr = true ∧ s.journal.dpd = false
       ∧ counted s s.journal.accessAt (upTicks (items s).journal.dpdIdleUs) = true) := by decide +kernel

set_option maxRecDepth 4000 in
theorem test_readTarget_good : readTarget (withJob (jobOn 10 2 [4, 1, 0, 0]) withPage) 4 0 1 = some 1 := by decide +kernel

set_option maxRecDepth 4000 in
theorem test_readTarget_bad : readTarget (withJob (jobOn 10 2 [4, 2, 0, 0]) badPage) 4 0 2 = some 2 := by decide +kernel

set_option maxRecDepth 4000 in
theorem test_fetchPage_good :
    (fetchPage 4 1 (touchFlash (withJob (jobOn 10 2 [4, 1, 0, 0]) withPage))).1.map (fun x => (slice x.1 0 2, x.2))
      = some ([0xFF, 0x14], 0, 0) := by decide +kernel

set_option maxRecDepth 4000 in
theorem test_fetchPage_bad :
    (fetchPage 4 2 (touchFlash (withJob (jobOn 10 2 [4, 2, 0, 0]) badPage))).1 = none := by decide +kernel
/-! ### Witnesses: shots, flow and fine time -/

/-- A chip with two paths whose lines are good from 50 to 50000 pF and whose echo windows are in range. -/
def pathsUp (n : Nat := 0) : State :=
  let p : PathItems := { winOpen := 2500, winLen := 100000, cMinU := 50, cMaxU := 50000, cMinD := 50, cMaxD := 50000 }
  let it : Items := { open_ with shot := { paths := [p, p] } }
  { up it n with boot := { (up it n).boot with img := { items := it, meterType := 0x20 } } }

/-- A pair on path 1 in progress. -/
def inPair (r : PairRun) : State :=
  { withJob (jobOn 4 1) pathsUp with shot := { run := some { r with job := 1 } } }

/-- Paths fenced in the front end's window. -/
def fencing (part : BitVec 4) (s : State) : State :=
  { s with faults := { win := put s.faults.win 6 { part := part } } }

theorem test_shotPairs_hyps :
    let s := { pathsUp 16384 with shot := { per := 500 } }
    s.boot.running = true ∧ trigHeld s = false ∧ trigStalled s 0 = false
    ∧ nth s.fabric.trigLast 0 + msTicks s.shot.per + s.shot.jitter ≤ s.time.d04
    ∧ livePaths s = 0 :: [1] ∧ livePaths (fencing 1 s) = 1 :: [] ∧ livePaths (fencing 3 s) = []
    ∧ trigStalled (fencing 1 s) 0 = false ∧ trigStalled (fencing 3 s) 0 = false
    ∧ (let j := jobOn 4 1 [1, 0, 0, 0]
       let t := withJob j pathsUp
       runningJob t 5 4 1 = some j ∧ shotRun t = none ∧ j.desc.arg 0 % 2 < pathCount t)
    ∧ shotRun (inPair { waitRetry := some 0 }) = some { job := 1, waitRetry := some 0 } := by decide +kernel

/-- What a direction finds where its lines, its lock and the reservoir are good. -/
def goodDir : DirObs := {
  tx := { counts := some 100 }, rx := { counts := some 100 }, pumpMv := (items pathsUp).shot.vpumpMv }

theorem test_shotDirections_hyps :
    let r : PairRun := { job := 1 }
    dueRun (inPair {}) = some r
    ∧ (dirStarts 0 true goodDir (dirBegins 0 r (inPair {}))).2 = .record
    ∧ (dirStarts 0 true { goodDir with lock := 201 } (dirBegins 0 r (inPair {}))).2 ≠ .record
    ∧ pumpReady (inPair {}) ((items pathsUp).shot.vpumpMv + 26) = false
    ∧ (let s := inPair { openDir := some {} }
       let s := { s with time := { ticks := 65536 } }
       let r : PairRun := { job := 1, openDir := some {} }
       let c : CloseObs := { winRun := 1000 }
       let p := pathItems s 0
       let x := fun (len : Nat) (cal : Option Nat) =>
         endDirection p (nth s.front.paths 0).thr len cal s.ftu.alignOfs r.scale r.obs c {}
       openRun s = some (r, {})
       ∧ r.startedAt + wholeTicks ((p.winOpen + (x p.winLen none).dir.winRun) / 250) ≤ s.time.ticks
       ∧ r.startedAt + wholeTicks ((p.winOpen
         + (x (min c.winRun p.winLen) (some (Config.freeIndex s.draws % 2 ^ 16))).dir.winRun) / 250) ≤ s.time.ticks) := by
  decide +kernel

theorem test_flowJobs_hyps :
    ([(5, 1), (4, 2), (5, 2), (1, 1), (1, 2), (2, 1), (3, 1), (3, 2)].all fun x =>
        runningJob (withJob (jobOn x.1 x.2) pathsUp) 5 x.1 x.2 == some (jobOn x.1 x.2)) = true
    ∧ (let j := jobOn 1 1 [1, 0, 0, 0]
       runningJob (withJob j (fencing 1 pathsUp)) 5 1 1 = some j ∧ (j.desc.arg 0).testBit 0 = true
       ∧ pathFenced (withJob j (fencing 1 pathsUp)) 0 = true ∧ pathFenced (withJob j pathsUp) 0 = false
       ∧ (j.desc.arg 0).testBit 1 = false)
    ∧ (List.replicate 512 16).sum = 8192
    ∧ pathsUp.boot.running = true
    ∧ passed (pathsUp (4 * 32768)) 0 (secTicks (4 * (items (pathsUp (4 * 32768))).shot.scaleS)) = true := by decide +kernel

/-! ### Witnesses: temperature, integration, billing, tamper -/

/-- A set in progress at one stage of its first input. -/
def inSet (stage : ConvStage) : State :=
  { withJob (jobOn 6 1) up with temp := { run := some { job := 1, plan := [0, 1], stage := stage } } }

theorem test_temperature_hyps :
    let it : Items := { open_ with temp := { role := [1, 2, 0, 0], periodS := 1 } }
    let s := up it 32768
    s.boot.running = true ∧ s.boot.bare = false ∧ s.faults.grave = false ∧ trigHeld s = false ∧ trigStalled s 1 = false
    ∧ counted s (nth s.fabric.trigLast 1) (secTicks (items s).temp.periodS) = true
    ∧ (let t := withJob (jobOn 6 1) s
       runningJob t 5 6 1 = some (jobOn 6 1) ∧ tempRun t = none ∧ (setRun (jobOn 6 1) t).plan = []
       ∧ (setRun (jobOn 6 1) t).job = (jobOn 6 1).id)
    ∧ ([ConvStage.settle, .convA, .convB].all fun x =>
        let r : TempRun := { job := 1, plan := [0, 1], stage := x }
        tempRun (inSet x) == some r && r.plan != [] && decide (r.dueAt ≤ (inSet x).time.d04)) = true
    ∧ (let j := jobOn 6 2 [7, 0, 0, 0]
       runningJob (withJob j s) 5 6 2 = some j ∧ tempRun (withJob j s) = none ∧ jobActorOk j.desc j.actor = true) := by
  decide +kernel

/-- A STEP job whose input granule 0 begins with the byte given. -/
def stepOf (b : Byte) : State := { withJob { jobOn 7 1 with
    desc := { engine := 7, opcode := 1, inHeads := [0, 0xFF, 0xFF, 0xFF] } } up with sram := [(0, b)] }

theorem test_integration_hyps :
    let j : Job := { jobOn 7 1 with desc := { engine := 7, opcode := 1, inHeads := [0, 0xFF, 0xFF, 0xFF] } }
    runningJob (stepOf 1) 5 7 1 = some j ∧ leAt (stepInput (stepOf 1) j).flow 0 1 = 1
    ∧ leAt (stepInput (stepOf 2) j).flow 0 1 ≠ 1
    ∧ runningJob (withJob (jobOn 7 2) up) 5 7 2 = some (jobOn 7 2) ∧ jobActorOk (jobOn 7 2).desc (jobOn 7 2).actor = true
    ∧ isSealed up = false
    ∧ (let s := { up with integ := { errRun := 3600 * 32768 } }
       (items s).integ.errAlarmS * 32768 ≤ s.integ.errRun ∧ s.boot.running = true) := by decide +kernel

theorem test_billing_hyps :
    let s := { up {} 32768 with time := { calDue := true, d04 := 32768, ticks := 32768 } }
    s.time.calDue = true ∧ calendarRuns s = true ∧ (winOf s .bill).fenced = false
    ∧ s.bill.extIn ≠ true ∧ (items s).bill.tarDebMs * 1024 ≤ 1024 * 1000 ∧ sampledFor s s.bill.extAt 1024 = true
    ∧ (let j := jobOn 8 2
       runningJob (withJob j up) 5 8 2 = some j ∧ j.mark = false ∧ jobActorOk j.desc j.actor = true)
    ∧ ([1, 2].all fun k =>
        let j := { jobOn 8 1 [k, 0, 0, 0] with actor := ⟨8, 0⟩, mark := true }
        runningJob (withJob j up) 5 8 1 == some j && jobActorOk j.desc j.actor && j.mark && j.desc.arg 0 % 4 == k)
      = true
    ∧ (let w : Job := { jobOn 8 2 with mark := true }
       (snapWaiters (journalSlot up.bill.newest (modBill (fun b => { b with before := none }) (withJob w up)))).head?
         = some w) := by decide +kernel

theorem test_tamper_hyps :
    (debOf up 1).raw ≠ true
    ∧ (let s := { up {} 327680 with tamper := { case_ := { raw := true } } }
       counted s (debOf s 1).sinceTick (msTicks (items s).tamper.caseDebMs) = true)
    ∧ (let s := up {} 32768
       nth s.tamper.pls 1 ≠ true ∧ (items s).tamper.plsDeb ≤ 1024 ∧ sampledFor s (nth s.tamper.plsAt 1) 1024 = true)
    ∧ (let s := up { tamper := { plsMode := [1, 2], bypWinMin := 0 } }
       (items s).tamper.plsMode.contains 1 = true
       ∧ counted s s.tamper.bypAt (secTicks (60 * (items s).tamper.bypWinMin)) = true)
    ∧ runningJob (withJob (jobOn 9 1) up) 5 9 1 = some (jobOn 9 1)
    ∧ jobActorOk (jobOn 9 1).desc (jobOn 9 1).actor = true := by decide +kernel
/-! ### Witnesses: Quoin and roles -/

/-- A cipher job on slot 1, which may do everything, over sixteen bytes of granule 2 with the parameters of granule 0. -/
def cipherOn (op : Nat) : Job := { jobOn 13 op with
  desc := { engine := 13, opcode := op, args := [1, 16, 0, 0], inHeads := [0, 1, 2, 0xFF] }, outs := [3, 4] }
def cipherUp (op : Nat) : State := withKey 1 0x3FF 3 (withJob (cipherOn op) up)

theorem test_cipher_hyps :
    ([1, 2, 3, 4, 5, 6, 7].all fun op => runningJob (cipherUp op) 5 13 op == some (cipherOn op)
        && !useRefused (cipherUp op) (cipherOn op) && cipherArgsOk (cipherUp op) (cipherOn op)) = true := by decide +kernel

/-- Raw bits that alternate. -/
def alternating (n : Nat) : List Bool := (List.range n).map fun i => i % 2 == 0

/-- A chip whose random source runs. -/
def sourceUp (mask : Mask := {}) : State := { up open_ with entropy := { running := true }, cipher := { mask := mask } }

theorem test_keys_hyps :
    runningJob (withJob (jobOn 13 9) up) 5 13 9 = some (jobOn 13 9) ∧ strictRefused up = false
    ∧ alarmCan up 1 = true ∧ (1 : Nat) ≠ 3 ∧ up.lintel.mainOn = true ∧ ({ up with keys := { repeatMask := 1 } } : State).keys.repeatMask ≠ 0
    ∧ (let j := { jobOn 14 1 [512, 0, 0, 0] with outs := [0] }
       runningJob (withJob j up) 5 14 1 = some j ∧ j.desc.arg 0 % 1024 ≠ 0 ∧ j.desc.arg 0 % 1024 ≤ 512 ∧ j.outs ≠ []
       ∧ j.mark = false)
    ∧ (let j := { jobOn 14 1 [512, 0, 0, 0] with outs := [0], mark := true }
       runningJob (withJob j (up {} 66)) 5 14 1 = some j ∧ passed (withJob j (up {} 66)) (max j.startedAt (up {} 66).entropy.blockAt) (msTicks 2) = true)
    ∧ (let s := { up {} 66 with link := { reqWait := some 0 } }
       s.link.reqWait = some 0 ∧ passed s (max 0 s.entropy.blockAt) (msTicks 2) = true)
    ∧ (let w : AuthWait := { role := 3, nh := List.replicate 8 0 }
       let s := { up {} 66 with roles := { sess := #v[{}, {}, {}, { want := some w }] } }
       3 < 4 ∧ (nth s.roles.sess 3).want = some w ∧ passed s w.since (msTicks 2) = true)
    ∧ (let j := { jobOn 14 2 [4096, 0, 0, 0] with outs := [0] }
       runningJob (withJob j up) 5 14 2 = some j ∧ isSealed (withJob j up) = false ∧ j.desc.arg 0 % 8192 ≠ 0
       ∧ j.desc.arg 0 % 8192 ≤ 4096 ∧ j.outs ≠ [] ∧ (List.replicate 4096 true).length = j.desc.arg 0 % 8192)
    ∧ sourceUp.entropy.running = true ∧ sourceUp.entropy.dead = false ∧ (winOf sourceUp .entropy).fenced = false
    ∧ sourceUp.lintel.mainOn = true ∧ (alternating 1024).length = 1024 ∧ sourceRuns sourceUp = true
    ∧ (alternating 512).length = (items sourceUp).keys.condRaw
    ∧ 16 * (items sourceUp).keys.reseedBits ≤ (sourceUp { bits := 1048576 }).cipher.mask.bits := by decide +kernel

/-- A challenge for the maker on port 1, and the response to it under a key of zeros. -/
def challenge : Challenge := { role := 3, nh := List.replicate 8 0, nc := List.replicate 8 0 }
def response : List Byte := [254, 203, 165, 5, 68, 234, 221, 101, 63, 22, 1, 11, 184, 92, 145, 185]
def challenged : State := withKey 3 0x48 3 { up with
  roles := { sess := #v[{ chal := some challenge }, {}, {}, {}], authResp := response } }

theorem test_sessions_hyps :
    let b := jobOn 13 0x10 [3, 0, 0, 0]
    let s := withJob b up
    runningJob s 5 13 0x10 = some b ∧ authWaits s b = false
    ∧ runningJob (withJob (jobOn 13 0x11) up) 5 13 0x11 = some (jobOn 13 0x11)
    ∧ runningJob (withJob (jobOn 13 0x12) up) 5 13 0x12 = some (jobOn 13 0x12) ∧ sessionOf 1 = some 0
    ∧ writeOpen up byPort (authCtrlAddr up) = true
    ∧ 0 < 4 ∧ (nth up.roles.sess 0).isOpen = true
    ∧ counted (up {} (300 * 32768)) (nth up.roles.sess 0).lastAt (secTicks (items up).roles.sessIdleS) = true
    ∧ counted (up {} (14400 * 32768)) (nth up.roles.sess 0).openedAt (secTicks (items up).roles.sessMaxS) = true
    ∧ (nth challenged.roles.sess 0).chal = some challenge
    ∧ counted { challenged with time := { d04 := 60 * 32768 } } challenge.at_ (secTicks (items challenged).roles.authChalS)
      = true
    ∧ anyLockout up = false
    ∧ (let s := up { ports := { debugHours := 1 } } (3600 * 32768)
       (items s).ports.debugHours ≠ 0
       ∧ counted s s.roles.debugSince (secTicks (3600 * (items s).ports.debugHours)) = true) := by decide +kernel

/-- The same with a cipher floor of mode M, in which no choice of the engine's is free. -/
def challengedM : State := { challenged with boot := { challenged.boot with img := { items := { keys := { cipherFloor := 1 } } } } }

/-- The response to its challenge opens the maker's session, by the register form too (R488). -/
theorem test_authFinish_opens :
    (nth challengedM.roles.sess 0).isOpen = false
    ∧ (nth (authFinish 1 response false challengedM).1.roles.sess 0).isOpen = true := by decide +kernel

/-- A consent's input: one item, digest and base of zeros, and the token of a role whose key is zeros. -/
def consentBytes : List Byte := [1, 0] ++ List.replicate 20 0 ++ [203, 108, 110, 229, 185, 120, 152, 145]
def consentOn (op : Nat) (args : List Word := [0, 0, 0, 0]) : Job := { jobOn 13 op with
  desc := { engine := 13, opcode := op, args := args, inHeads := [0, 0xFF, 0xFF, 0xFF] } }
def proposedBy (role : Nat) : Consent := { state := .proposed, proposer := role, items := 1, ref := 1, until_ := 1 }
def consentUp (j : Job) (c : Consent) : State := withKey 3 0x48 3 { withJob j up with
  roles := { up.roles with consents := #v[c, {}, {}, {}] }, sram := consentBytes.zipIdx.map fun x => (x.2, x.1) }

theorem test_consents_hyps :
    (let j := consentOn 0x13
     let s := consentUp j {}
     let x := ConsentIn.ofBytes (inputBytes s j 0)
     runningJob s 5 13 0x13 = some j ∧ within 1 3 j.actor.role = true ∧ strictRefused s = false
     ∧ tokenCheck s j.actor.role x = none ∧ x.items < 256 ∧ x.baseSeq = s.boot.img.seq ∧ consentRoom s = some 0)
    ∧ (let j := consentOn 0x14 [1, 0, 0, 0]
       let s := consentUp j (proposedBy 1)
       let x := ConsentIn.ofBytes (inputBytes s j 0)
       runningJob s 5 13 0x14 = some j ∧ lockBusy s = false ∧ ownLock s .consentCommit = false ∧ within 1 3 j.actor.role = true ∧ strictRefused s = false
     ∧ tokenCheck s 3 x = none
       ∧ consentByRef s (j.desc.arg 0) = some 0 ∧ signOutcome s (nth s.roles.consents 0) 3 x = (.done, .committed))
    ∧ (let j := consentOn 0x15 [1, 0, 0, 0]
       let s := consentUp j (proposedBy 3)
       runningJob s 5 13 0x15 = some j ∧ stageHolds s (j.desc.arg 0) = false ∧ strictRefused s = false
     ∧ consentByRef s (j.desc.arg 0) = some 0
       ∧ (nth s.roles.consents 0).state = .proposed ∧ j.actor.role = (nth s.roles.consents 0).proposer)
    ∧ (let s := consentUp (jobOn 13 1) { proposedBy 1 with until_ := 0 }
       0 < 4 ∧ (nth s.roles.consents 0).until_ ≤ s.time.d04 ∧ (nth s.roles.consents 0).state = .proposed)
    ∧ (let s := consentUp (jobOn 13 1) { proposedBy 1 with until_ := 0, state := .committed }
       (nth s.roles.consents 0).until_ ≤ s.time.d04 ∧ (nth s.roles.consents 0).state = .committed)
    ∧ (let j := consentOn 0x15 [1, 0, 0, 0]
       let s := consentUp j { proposedBy 1 with state := .committed, signer := 3 }
       consentByRef s (j.desc.arg 0) = some 0 ∧ (nth s.roles.consents 0).state = .committed
       ∧ j.actor.role = (nth s.roles.consents 0).signer) := by decide +kernel

theorem test_alive_hyps :
    up.lintel.mainOn = true ∧ up.boot.running = true ∧ up.faults.grave = false ∧ degraded up = false
    ∧ (items up).fault.aliveEn = 1 ∧ ({ State.reset with faults := { grave := true } } : State).faults.grave = true := by
  decide +kernel
/-! ### Witnesses: the radio -/

/-- A chip whose radio works on 868.95 MHz with listen before talk, or without a band, with one template. -/
def radioItems (lbt : Nat) : Items := { open_ with radio := {
  mode := [1, 1], freqHz := [868950000, 868950000], estAirP := [4000], estAirF := [4000], sniffEn := [1, 1]
  bands := [{ port := 1, fmin := 868000, fmax := 870000, lbtEn := lbt, lbtTries := 3, lbtBackoffMs := 10 }]
  templates := [{}] } }
def radioUpAt (n : Nat := 0) (lbt : Nat := 1) : State := up (radioItems lbt) n

/-- A job of the radio's in its context. -/
def inCtx (op : Nat) (args : List Word) (c : RadioCtx) (n : Nat := 0) : State :=
  { withJob (jobOn 11 op args) (radioUpAt n) with radio := { ctxs := [{ c with job := 1 }] } }

theorem test_radioJobs_hyps :
    let s := withJob (jobOn 11 2) (radioUpAt 0)
    ctxOf s 1 = none ∧ runningJob s 5 11 2 = some (jobOn 11 2)
    ∧ (let j := { jobOn 11 5 with actor := ⟨8, 0⟩ }
       runningJob (withJob j (radioUpAt 0)) 5 11 5 = some j ∧ jobActorOk j.desc j.actor = true)
    ∧ (let j := jobOn 11 6 [868950, 32, 1000, 0]
       let b : Band := { port := 1, fmin := 868000, fmax := 870000, lbtEn := 1, lbtTries := 3, lbtBackoffMs := 10 }
       runningJob (withJob j (radioUpAt 0)) 5 11 6 = some j ∧ jobActorOk j.desc j.actor = true
       ∧ (items (radioUpAt 0)).radio.bandOf (j.desc.arg 0 * 1000) = some b ∧ b.port = j.desc.arg 1 / 32 % 2
       ∧ within 1 1000 (j.desc.arg 2) = true)
    ∧ runningJob (withJob (jobOn 11 3) (radioUpAt 0)) 5 11 3 = some (jobOn 11 3)
    ∧ runningJob (withJob (jobOn 11 4) (radioUpAt 0)) 5 11 4 = some (jobOn 11 4)
    ∧ (let s := radioUpAt (16 * 32768)
       radioUp s = true ∧ counted s s.radio.dueAt (secTicks (at0 (items s).radio.periodS (profileNow s))) = true)
    ∧ (let s := { radioUpAt (3600 * 32768) with radio := { watch := 2 } }
       radioUp s = true ∧ s.radio.watch = 2 ∧ passed s s.radio.probeAt (secTicks (60 * (items s).radio.probeMin)) = true)
    ∧ ([false, true].all fun retry =>
        let c : RadioCtx := { job := 1, kind := .send, at_ := some 0, len := 100, retried := retry }
        let s := inCtx 2 [0, 0, 0, 0] c
        jobByTag s 5 == some (jobOn 11 2) && ctxOf s 1 == some c && radioUp s && decide (0 ≤ s.time.ticks) && !c.started
        && c.retried == retry && (jobOn 11 2).phase == .running) = true := by
  decide +kernel

/-- An activity on the radio. -/
def acting (a : Activity) (lbt : Nat := 1) (n : Nat := 0) : State := { withJob (jobOn 11 2) (radioUpAt n lbt) with
  radio := { act := a, ctxs := [{ job := 1, kind := .send, at_ := some 0 }] } }

theorem test_radioActivities_hyps :
    (let s := acting { kind := .send, job := some 1 }
     inPhase s .startUp = true ∧ lockOverdue s 0 = false)
    ∧ (let s := acting { kind := .send, job := some 1 } 1 400
       inPhase s .startUp = true ∧ s.radio.locked = false ∧ passed s s.radio.act.since (400 * 512 / 15625) = true
       ∧ s.lintel.xoOn = false ∧ passed s s.radio.act.since (1000 * 512 / 15625) = true)
    ∧ inPhase (acting { kind := .send, phase := .onAir }) .onAir = true
    ∧ (acting { kind := .send, phase := .onAir }).radio.act.kind.transmits = true
    ∧ (let s := { radioUpAt 66 with lintel := { (radioUpAt 66).lintel with xoOn := true } }
       s.radio.act.kind = .none ∧ s.lintel.xoOn = true ∧ passed s s.lintel.xoIdleSince (msTicks 2) = true)
    ∧ (let s := acting { kind := .send, phase := .lbt } 1 32768
       let b : Band := { port := 1, fmin := 868000, fmax := 870000, lbtEn := 1, lbtTries := 3, lbtBackoffMs := 10 }
       inPhase s .lbt = true ∧ actBand s s.radio.act = some b ∧ passed s s.radio.act.since (b.lbtUs * 512 / 15625) = true)
    ∧ (let s := acting { kind := .send, phase := .backoff }
       inPhase s .backoff = true ∧ s.radio.act.since ≤ s.time.ticks) := by decide +kernel

theorem test_radioReception_hyps :
    (let c : RadioCtx := { job := 1, winAt := some 0 }
     let s := { radioUpAt 0 with radio := { ctxs := [c] } }
     radioUp s = true ∧ windowDue s = some (c, 0))
    ∧ (let s := acting { kind := .window, phase := .onAir }
       s.radio.act.kind = .window ∧ s.radio.act.until_ ≤ s.time.ticks ∧ s.radio.act.sync = false
       ∧ inPhase s .onAir = true ∧ s.radio.act.opens ≤ s.time.ticks)
    ∧ (let s := acting { kind := .slotRx, phase := .onAir, job := some 1, sync := true }
       inPhase s .onAir = true ∧ s.radio.act.kind.transmits = false ∧ s.radio.act.sync = true)
    ∧ (let s := acting { kind := .slotRx, phase := .onAir, job := some 1 }
       inPhase s .onAir = true ∧ s.radio.act.kind.transmits = false ∧ s.radio.act.sync = false
       ∧ s.radio.act.kind ≠ .window)
    ∧ (let s := radioUpAt (2 * 32768)
       s.radio.act.kind ≠ .sniff ∧ radioUp s = true ∧ at0 (items s).radio.sniffEn (profileNow s) = 1
       ∧ passed s s.radio.sniffAt (msTicks (at0 (items s).radio.sniffPeriodMs (profileNow s))) = true)
    ∧ ([false, true].all fun x =>
        let s := acting { kind := .sniff, phase := .onAir, extended := x } 1 32768
        s.radio.act.kind == .sniff && s.radio.act.phase == .onAir && !s.radio.act.sync && s.radio.act.extended == x
        && passed s s.radio.act.since (usTicks (at0 (items s).radio.sniffUs (profileNow s)))
        && decide (s.radio.act.until_ ≤ s.time.ticks)) = true := by decide +kernel

theorem test_telegrams_hyps :
    (let s := withJob (jobOn 11 1) (radioUpAt 0)
     runningJob s 5 11 1 = some (jobOn 11 1) ∧ s.radio.waitRes.any (fun w => w.1 == 1) = false
     ∧ (jobOn 11 1).desc.arg 0 % 16 < (items s).radio.templates.length)
    ∧ (let j := { jobOn 11 5 with actor := ⟨8, 0⟩ }
       let s := withJob j (radioUpAt 0)
       runningJob s 5 11 5 = some j ∧ s.radio.waitRes.any (fun w => w.1 == 1) = false ∧ ctxOf s 1 = none
       ∧ jobActorOk j.desc j.actor = true)
    ∧ ([1, 5].all fun op =>
        let j := jobOn 11 op
        let s := { withJob j (radioUpAt 0) with
          radio := { txcRes := put (radioUpAt 0).radio.txcRes 0 1, waitRes := [(1, 0)] } }
        s.radio.waitRes.find? (fun w => txcFree s w.2) == some (1, 0)
        && s.fabric.jobs.find? (fun j => j.id == 1 && j.phase == .running) == some j) = true
    ∧ (let h : HeldCmd := {}
       let s := { radioUpAt 0 with radio := { held := [h] } }
       let ended := s.radio.held.filter fun h => decide (h.until_ ≤ s.time.ticks)
       s.lintel.mainOn = true
       ∧ heldFirst (fun a b => decide (a.at_ < b.at_))
         (ended.filter fun h => h.until_ == ended.foldl (fun m h => min m h.until_) s.time.ticks) = some h)
    ∧ (let c : RadioCtx := { job := 1, answerAt := some 0 }
       let s := { radioUpAt 0 with radio := { ctxs := [c], txcRes := put (radioUpAt 0).radio.txcRes 0 1 } }
       s.radio.ctxs.find? (fun c => c.answerAt.any fun t => decide (t ≤ s.time.ticks)) = some c ∧ radioUp s = true
       ∧ airTaken s 1 (sendLen s 0 (b2n false)) = none ∧ txLow s = false ∧ s.lintel.txHeld = false
       ∧ txcFree s (at0 (items s).radio.templates 0).slot = true
       ∧ txLow { s with lintel := { s.lintel with vbatMv := 1999 } } = true) := by decide +kernel

/-! ### Witnesses: the link -/

/-- A node of the mesh with both its keys, as a sleepy node or a router, and its peer. -/
def linkItems (router : Bool) : Items := {
  link := { en := 1, linkSlot := 1, e2eSlot := 2, nodeKind := b2n router, childMax := 1 } }
def other : List Byte := [1, 0, 0, 0, 0, 0, 0, 0]
def linkUp (l : Link) (router : Bool := false) (n : Nat := 0) : State :=
  withKey 2 16 3 (withKey 1 16 3 { up (linkItems router) n with link := l, entropy := { startupOk := true, fifo := List.replicate 8 0 } })

/-- A frame of the peer's with a frame control word, and its payload and MIC under a key of zeros. -/
def heardFrame (fc : Nat) (tail : List Byte) : GyaleRx := {
  mpdu := bytesLE 2 fc ++ [7] ++ List.replicate 8 0 ++ other ++ [1, 1, 0, 0, 0] ++ tail }
def heardBeacon : GyaleRx := {
  mpdu := [0, 1, 7] ++ List.replicate 8 0 ++ other ++ [0, 0, 0, 1] ++ other ++ List.replicate 8 0
    ++ [210, 199, 51, 17] }
def heardRsp : List Byte := [118, 207, 135, 10, 84, 204, 112, 204, 80, 17, 96, 166, 155, 70, 110, 47, 30, 23, 98, 221, 71,
  115, 248, 180, 226, 246, 231, 127, 188, 159, 76, 230, 13, 144, 16, 211, 146, 28, 17]
def heardRefusal : List Byte := [119] ++ (heardRsp.drop 1).take 30 ++ [240, 225, 116, 58, 64, 115, 77, 158]

/-- A frame passes the checks, and its header and the state after satisfy a property. -/
def passes (x : GyaleRx) (exchange : Bool) (s : State) (p : LinkHdr → State → Bool) : Bool :=
  match checkFrame x exchange s with
  | (.pass h, t) => p h t
  | _ => false

/-- A counter for the frame and a random challenge are at hand. -/
def drawsFcnt (s : State) (p : State → Bool) : Bool :=
  match takeFcnt s with
  | (some _, u) => p u
  | _ => false

theorem test_linkScan_hyps :
    (let s := linkUp { st := 1, fcntRes := 9 } false (600 * 32768)
     linkOff s = false ∧ s.link.st = 1 ∧ s.link.scanAt ≤ s.time.ticks
     ∧ passes heardBeacon false s (fun h t => h.type == 0 && !h.sec && t.link.st == 1
        && (beaconCandidate t h heardBeacon 37).isSome) = true)
    ∧ (let b : Candidate := { addr := other }
       let s := linkUp { st := 1, fcntRes := 9, best := some b }
       let w := linkUp { st := 1, fcntRes := 9, best := some b, reqWait := some 60 } false 66
       linkOff s = false ∧ s.link.st = 1 ∧ s.link.best = some b ∧ s.link.reqWait = none
       ∧ passed s b.at_ (usTicks 300 + 1) = false
       ∧ takeRandom 8 { s with entropy := { startupOk := true } } = none
       ∧ linkOff w = false ∧ w.link.best = some b ∧ w.link.reqWait = some 60 ∧ passed w 60 (msTicks 2 + 1) = false
       ∧ (match takeRandom 8 s with | some (_, t) => drawsFcnt t (fun _ => true) | none => false) = true)
    ∧ (let s := linkUp { st := 1 } false (24 * 3600 * 32768)
       linkOff s = false ∧ s.link.st = 1 ∧ passed s s.link.lostSince (secTicks (3600 * (items s).link.orphanH)) = true) := by
  decide +kernel

theorem test_linkJoin_hyps :
    let j : Candidate := { addr := other, chal := List.replicate 8 0 }
    (let s := linkUp { st := 2, join := some j } false 100
     linkOff s = false ∧ s.link.st = 2 ∧ s.link.join = some j ∧ passed s j.at_ (usTicks (items s).link.reqWinUs) = true)
    ∧ ([(heardRsp, true), (heardRefusal, false)].all fun y =>
        let s := linkUp { st := 2, join := some j } false 1
        let x := heardFrame 0x10A y.1
        (LinkHdr.parse x.mpdu).src == j.addr
        && !passed s j.at_ (usTicks ((items s).link.reqWinUs + phyAir (phrPhy x.phr) x.mpdu.length) + 1)
        && passes x true s (fun h t => h.type == 2 && h.payload.length == 31
          && slice h.payload 1 8 == j.chal && ((leAt h.payload 0 1 == 0) == y.2) && (freeConnSlot (dropStale h.src t)).isSome))
        = true
    ∧ (let s := linkUp { st := 3, join := some j } false 1
       passes (heardFrame 0x10A heardRsp) true s (fun h t => t.link.st == 3 && slice h.payload 1 8 != List.replicate 8 1)
         = true) := by
  decide +kernel

theorem test_linkRouter_hyps :
    let s := linkUp { st := 3, fcntRes := 9 } true 32768
    linkOff s = false ∧ (items s).link.nodeKind = 1 ∧ s.link.st = 3
    ∧ passed s s.link.beaconAt (msTicks (items s).link.beaconMs) = true
    ∧ passes (heardFrame 0x109 [118, 207, 135, 10, 84, 204, 112, 204, 80, 17, 96, 31, 23, 74, 90, 138, 49, 68, 119]) true s
        (fun h t => h.type == 1 && h.payload.length == 11 && drawsFcnt t (fun _ => true)) = true := by decide +kernel

/-- A connection with the peer. -/
def peer : Conn := { kind := 1, addr := other }
def joined (y : Conn) (n : Nat := 0) : State := linkUp {
  st := 3, conns := put (Vector.replicate 16 {}) 0 y, neigh := put (Vector.replicate 32 {}) 0 ⟨true, other, 0, some 6, 0⟩ } false n

theorem test_linkEvents_hyps :
    linkOff (joined peer) = false
    ∧ ([false, true].all fun sleepy =>
        let s := joined { peer with sleepy := sleepy }
        eventDue s (nth s.link.conns 0) && (nth s.link.conns 0).sleepy == sleepy) = true
    ∧ (let s := joined { peer with inEvent := true, listening := true }
       (nth s.link.conns 0).inEvent = true ∧ (nth s.link.conns 0).listening = true)
    ∧ (let s := joined { peer with superv := 1 } 400
       (nth s.link.conns 0).kind ≠ 0 ∧ (nth s.link.conns 0).sleepy = false
       ∧ passed s (nth s.link.conns 0).seenAt (msTicks (10 * (nth s.link.conns 0).superv)) = true) := by decide +kernel

/-- A frame of the peer's that repeats its last one: another counter with the same SN. -/
theorem test_linkDuplicate_hyps :
    let s := joined peer
    let s := { s with link := { s.link with neigh := put s.link.neigh 0 ⟨true, other, 0, some 7, 0⟩ } }
    linkOff s = false ∧ (match checkFrame (heardFrame 0x11B [96, 223, 60, 70, 124, 70, 219, 5]) false s with
      | (.duplicate h, t) => connOf t h.src == some 0
      | _ => false) = true := by decide +kernel

theorem test_linkData_hyps :
    passes (heardFrame 0x11B [96, 223, 60, 70, 124, 70, 219, 5]) false (joined peer) (fun h t =>
      h.type == 3 && h.ackReq && connOf t h.src == some 0 && h.sec && neighOf (joined peer) h.src == some 0) = true
    ∧ passes (heardFrame 0x10E [84, 37, 27, 7, 138, 202, 27, 120]) false (joined { peer with kind := 2 }) (fun h t =>
      h.type == 6 && connOf t h.src == some 0) = true := by decide +kernel

theorem test_linkAck_hyps :
    passes (heardFrame 0x10C [113, 207, 135, 10, 62, 113, 181, 172, 152, 18, 51, 179]) false (joined peer) (fun h t =>
      h.type == 4 && connOf t h.src == some 0) = true := by decide +kernel

theorem test_linkRouted_hyps :
    ([(0x10D, 5, [139, 173, 105, 24, 40, 143, 220, 30]), (0x10F, 7, [240, 4, 133, 171, 170, 72, 175, 39])].all
      fun (y : Nat × Nat × List Byte) => passes (heardFrame y.1 y.2.2) false (joined peer) (fun h t =>
        h.type == y.2.1 && connOf t h.src == some 0)) = true := by decide +kernel

theorem test_linkJobs_hyps :
    (let j := { jobOn 12 1 with desc := { engine := 12, opcode := 1, args := [0, 0, 0, 0], inHeads := [0, 0xFF, 0xFF, 0xFF] } }
     let s := withJob j (joined peer)
     runningJob s 5 12 1 = some j ∧ s.link.sends.any (fun x => x.job == j.id) = false ∧ s.link.st = 3
     ∧ within 1 1024 (inputBytes s j 0).length = true)
    ∧ ([2, 3].all fun op =>
        let j := jobOn 12 op
        let s := withJob j (joined peer)
        runningJob s 5 12 op == some j && jobActorOk j.desc j.actor && !linkOff s) = true := by decide +kernel

/-! ### Witnesses: the display, the ports and the debug port -/

/-- The items with a display. -/
def shown : Items := { open_ with display := { dispEn := 1 } }

theorem test_display_hyps :
    runningJob (withJob (jobOn 15 1) up) 5 15 1 = some (jobOn 15 1)
    ∧ (let j := jobOn 15 2
       let s := { withJob j (up shown (60 * 32768)) with lcd := { segDue := true } }
       displayRuns s = true ∧ s.lcd.frameAt = none ∧ s.lcd.seg = none ∧ (winOf s .lcd).fenced = false
       ∧ runningJob s 5 15 2 = some j ∧ s.lcd.segDue = true ∧ s.lcd.contrastAt = none
       ∧ s.lcd.hold = false ∧ passed s s.lcd.dwellAt (secTicks (items s).display.pageS) = true)
    ∧ (let s := { up shown (60 * 32768) with lcd := { frameAt := some 0, contrastAt := some 0 } }
       displayRuns s = true ∧ s.lcd.frameAt = some 0 ∧ passed s 0 (8 * slotTicks s.lcd.cfg) = true
       ∧ s.lcd.contrastAt = some 0 ∧ passed s 0 (secTicks 60) = true)
    ∧ (let s := { up {} (600 * 32768) with lcd := { hold := true } }
       s.lcd.hold = true ∧ passed s s.lcd.holdAt (secTicks (items s).roles.sessIdleS) = true) := by decide +kernel

/-- A read of one word at 0, and a write of 7 to 0x4020, as the service port brings them. -/
def spReadBytes : List Byte := [0x00, 0, 0, 0, crc8 [0x00, 0, 0, 0]]
def spWriteBytes : List Byte := [0x80, 0x20, 0x40, 0, crc8 [0x80, 0x20, 0x40, 0], 7, 0, 0, 0, crc8 [7, 0, 0, 0]]

/-- What the service port's two requests come to: the word at 0 is read with status OK, and the write reaches SET_LO. -/
theorem test_portFrames :
    up.lintel.mainOn = true
    ∧ (match exec (.spRead spReadBytes true []) up with | .next t => t.ports.mirror.head? | _ => none) = some 0
    ∧ (match exec (.spWrite spWriteBytes [] {} true) up with | .next t => some t.time.setValue.toNat | _ => none) = some 7
    ∧ spCmdOk spReadBytes false = true ∧ spCmdOk spWriteBytes true = true
    ∧ frameStop (portRequest 1 (spOpen up)) 1 (roleOf (spOpen up) 1)
        (frameAddrs (leAt spReadBytes 1 3) (spWords spReadBytes)) false = none := by
  decide +kernel

theorem test_opticalTimes_hyps :
    (let s := { up {} 1000 with ports := { opt := .opened, reply := some ([], 0) } }
     s.boot.running = true ∧ optHears s = true ∧ (s.ports.reply <|> authReply s) = some ([], 0)
     ∧ passed s 0 (msTicks 20) = true ∧ passed s 0 (msTicks 200 + 1) = false)
    ∧ (let s := { up {} 65700 with ports := { newRate := some 1, rateAt := some 0, opt := .wake } }
       s.ports.newRate = some 1 ∧ s.ports.rateAt = some 0 ∧ passed s 0 (msTicks 50) = true
       ∧ s.ports.opt = .wake ∧ passed s s.ports.optAt (msTicks 2005) = true)
    ∧ (let s := up {} 65700
       s.boot.running = true ∧ s.ports.opt = .sleep ∧ (items s).ports.optOn = 1
       ∧ passed s s.ports.optAt (msTicks (items s).ports.optWakeMs) = true)
    ∧ (let s := { up {} (3600 * 32768) with ports := { opt := .opened } }
       s.ports.opt = .opened ∧ passed s s.ports.optAt (secTicks (items s).ports.optIdleS) = true) := by decide +kernel

/-- The optical port open with a session whose key is of zeros, a granule in hand, and a challenge if asked for. -/
def optUp (role : Nat := 4) (chal : Bool := false) : State := withKey 3 0x48 3 (withKey (sessionSlot 1) 0 0 { up open_ with
  ports := { opt := .opened }
  fabric := { grans := put (Vector.replicate 192 {}) 0 { owner := 128 + 8 * role, port := some 3 } }
  roles := { sess := #v[{}, { isOpen := true, role := role, chal := if chal then some challenge else none }, {}, {}] } })

/-- A message whole in its frame, to a port that listens, with a check of the message. -/
def hearsRow (s : State) (msg : List Byte) (p : State → Msg → Bool) : Bool :=
  optMessage (optFrame msg) == some msg && s.boot.running && optHears s
  && match Msg.ofBytes msg with
    | some m => p (modPorts (fun p => { p with opt := .opened, optAt := s.time.ticks, optRx := satInc p.optRx }) s) m
    | none => false

/-- The answer's status under a role. -/
def optStatus (role : Nat) (m : Msg) (t : State) : Nat := (serveMessage {} ⟨3, []⟩ role false m.op m.body
  (modPorts (fun p => { p with access := put p.access 3 t.time.ticks }) t)).2.status

/-- A valid response to the optical session's challenge. -/
def optResponse : List Byte := [160, 190, 61, 119, 171, 198, 65, 26, 199, 78, 147, 217, 83, 24, 74, 195]

theorem test_optUntagged_hyps :
    ([([1, 7, 0], rowOf 1), ([2, 7, 0, 0, 0, 0, 1], rowOf 2), ([3, 7, 0, 4, 0xD0, 2, 1, 7, 0, 0, 0], rowOf 3),
      ([4, 7, 0, 0] ++ bytesLE 4 0x0501 ++ List.replicate 28 0, rowOf 4), ([6, 7, 0, 3, 0, 0, 0, 0], rowSub 6 3), ([6, 7, 0, 4, 0, 0, 0, 0], rowSub 6 4),
      ([7, 7, 0], rowOf 7), ([8, 7, 0, 0, 3] ++ List.replicate 8 0, rowSub 8 0), ([8, 7, 0, 2], rowSub 8 2),
      ([9, 7, 0, 1], rowOf 9)].all fun (y : List Byte × (Msg → Bool)) =>
        hearsRow (optUp 4) y.1 (fun t m => y.2 m && m.fl == 0 && optStatus 4 m t == 0)) = true := by decide +kernel

/-- The optical port open where one granule is free, so that no free value says which is given. -/
def optOne : State := { optUp 4 with fabric := { grans := put (Vector.replicate 192 { retired := true }) 0 {} } }

theorem test_optAlloc_hyps :
    ([([6, 7, 0, 1, 0, 0, 0, 0], rowSub 6 1), ([6, 7, 0, 2, 0, 0, 0, 0], rowSub 6 2)].all
      fun (y : List Byte × (Msg → Bool)) =>
        hearsRow optOne y.1 (fun t m => y.2 m && m.fl == 0 && optStatus 4 m t == 0)) = true := by decide +kernel

theorem test_optFinish_hyps :
    hearsRow (optUp 4 true) ([8, 7, 0, 1] ++ optResponse)
      (fun t m => rowSub 8 1 m && m.fl == 0 && optStatus 4 m t == 0) = true := by decide +kernel

theorem test_optTagged_hyps :
    ([([3, 7, 1, 0x20, 0x40, 0, 1, 7, 0, 0, 0, 1, 0, 0, 0, 1, 21, 198, 47, 92, 137, 230, 173], rowOf 3),
      ([5, 7, 1, 0, 1, 0, 0, 0, 14, 132, 237, 172, 227, 176, 238, 71], rowOf 5)].all fun (y : List Byte × (Msg → Bool)) =>
        hearsRow (optUp 3) y.1 (fun t m => y.2 m && m.fl == 1 && match optKey t with
          | some key => optTagOk t m key
            && optStatus (roleOf t 3) m (touchSession 3 (modPorts (fun p => { p with optCnt := m.cnt }) t)) == 0
          | none => false)) = true
    ∧ hearsRow (optUp 3) [5, 7, 1, 0, 0, 0, 0, 0, 14, 132, 237, 172, 227, 176, 238, 71] (fun t m =>
        rowOf 5 m && m.fl == 1 && match optKey t with | some key => !optTagOk t m key | none => false) = true
    ∧ hearsRow { optUp 3 with roles := {} } [5, 7, 1, 0, 0, 0, 0, 0, 14, 132, 237, 172, 227, 176, 238, 71] (fun t m =>
        rowOf 5 m && m.fl == 1 && (optKey t).isNone) = true := by decide +kernel

/-- A packet of the debug port with its check, and a chip at level 2 with an open session that holds DEBUG. -/
def packet (op addr : Nat) : List Byte :=
  let b := bytesLE 1 (16 * op) ++ bytesLE 3 addr
  b ++ [crc8 b]
def dbgUp : State := { up { open_ with ports := { debugEn := 2 } } with
  roles := { sess := #v[{}, {}, { isOpen := true, role := 3 }, {}] } }

theorem test_debugPort_hyps :
    dbgUp.lintel.mainOn = true ∧ dbgUp.probe.packet = none
    ∧ ([(1, 0), (2, 0x4020), (3, 0x602C), (4, 0), (8, 0), (8, 1), (9, 0), (10, 0), (11, 0), (11, 1)].all
        fun (y : Nat × Nat) => let p := packet y.1 y.2
          decide (5 ≤ p.length) && dbgStop dbgUp p true == none && dbgOp p == y.1 && dbgArg p == y.2) = true
    ∧ (let s := { up with probe := { haltPending := true } }
       s.probe.haltPending = true ∧ s.mason.lock = none)
    ∧ (let s := { up {} (8000 * 32768) with fabric := { frozen := some 0 } }
       s.fabric.frozen = some 0 ∧ passed s 0 (secTicks (items s).ports.freezeMaxS) = true) := by decide +kernel

theorem test_haltAndFreeze_hyps :
    let s := { up open_ with mason := { halted := true }
                             fabric := { frozen := some 0, jobs := [{ jobOn 13 1 with phase := .ready, queue := 0 }] } }
    s.mason.halted = true ∧ ({ up with probe := { haltPending := true } } : State).probe.haltPending = true
    ∧ s.fabric.frozen.isSome = true ∧ (nextJob s 13).isSome = true := by decide +kernel

/-! ### Ill-formed commands, one for each check of WellFormed -/

theorem test_wf_ranges :
    (tagOk 255 && !tagOk 256 && queueOk 63 && !queueOk 64 && granuleOk 191 && !granuleOk 192 && engineOk 15 && !engineOk 16
    && contextOk 7 && !contextOk 8 && entryOk 255 && !entryOk 256 && sessionOk 3 && !sessionOk 4 && consentOk 3
    && !consentOk 4 && connOk 15 && !connOk 16 && inputOk 1 && !inputOk 2 && !triggerOk 1 && triggerOk 7 && !triggerOk 8
    && !boundaryOk 0 && boundaryOk 4 && !boundaryOk 5 && seqOk 65535 && !seqOk 65536 && pageOk 31 && !pageOk 32
    && channelOk 63 && !channelOk 64 && alarmOk 0 && alarmOk 6 && !alarmOk 7 && addrOk 0xFFFFFF && !addrOk 0x1000000
    && !portOk 0 && portOk 5 && !portOk 6 && writerOk 8 && !writerOk 7) = true := by decide +kernel

theorem test_wf_refused :
    ([.stage 256 0, .jobSubmit byPort 64 0, .granuleZeroed 192 [], .jobDispatch 16 0 {}, .recipeWait 8,
      .masonTimerEvent 256, .sessionMaxTimeout 4, .consentSignExpiry 4, .sleepySlot 16, .pulseEdge 2 true ⟨true, 4⟩, .hwTrigger 1,
      .dtBoundaryEvent 5, .fifoWaitExpiry 0 65536, .pageHold byPort 32 true, .gyaleBeaconRx {} 64, .alarm 7 0 0,
      .registerWrite byPort 0x1000000 0 {}, .portGranuleIdleFree 6, .timeSetRequest ⟨6, []⟩ 0,
      .timeSetRequest ⟨1, [(1, 0)]⟩ 0, .commandHoldEnd [(7, 0)] {}, .commandHoldEnd [(1, 2 ^ 22)] {},
      .msgPoll (List.replicate 263 0), .spFrameError (List.replicate 71 0), .dbgStatus (List.replicate 6 0),
      .gyaleDataRx { mpdu := List.replicate 256 0 }, .gyaleDataRx { mpdu := [0], phr := phrOf 2 0 },
      .gyaleDataRx { rssi := -262 }, .sniff (-18) true, .calibrate 0 [] false, .vioRise 1800 { calTaps := [] },
      .resetNPulse 10 true false { dnlCounts := [] }, .shotDirection { calA := [] }, .echoWindowClose { calB := [] }, .rxFrameEnd (.wmb { slot := 24 }),
      .rxFrameEnd (.wmb { profile := 3 }), .segCheck none (some (3, 5)), .segCheck (some 256) none,
      .authBegin (.job 256), .authBegin (.write ⟨6, []⟩ 0), .entropyWaitTimeout (.port 4), .entropyWaitTimeout (.job 256),
      .lockOverrun {} (.consent 256)] : List Instr).all
      (fun i => !i.wellFormed) = true := by decide +kernel

theorem test_wf_defaults :
    ([.vioRise 1800 {}, .resetNPulse 10 true false {}, .shotDirection {}, .echoWindowClose {}, .gyaleDataRx {}, .alarm 6 0 0] :
      List Instr).all (·.wellFormed) = true := by decide +kernel

/-! ### Numbers of the spec's worked cases -/

/-- FIPS 197, appendix C.1: AES-128 with the key 00 to 0F. -/
theorem test_aes : aesEnc ((List.range 16).map fun i => BitVec.ofNat 8 i) ((List.range 16).map fun i => BitVec.ofNat 8 (17 * i))
    = [0x69, 0xC4, 0xE0, 0xD8, 0x6A, 0x7B, 0x04, 0x30, 0xD8, 0xCD, 0xB7, 0x80, 0x70, 0xB4, 0xC5, 0x5A] := by decide +kernel

/-- The request of chapter 17's worked case: CMD 0x0F, ADDR 00 61 02, HCRC 0x3C. -/
theorem test_hcrc : crc8 [0x0F, 0x00, 0x61, 0x02] = 0x3C := by decide +kernel

/-- Chapter 0's worked case: 2030-01-01 is day 10 958, and Table 0.4's highest code wins. -/
theorem test_days : daysOf 2030 1 1 = 10958 := by decide

/-- Chapter 7's worked case: 70 000 and 40 000 m°C. -/
theorem test_temperatures :
    convDiff 5329929 (-5329905) = 5329917
    ∧ nearestT {} 1000000 1270751 = 70000 ∧ nearestT {} 1000000 1155408 = 40000 := by decide +kernel

/-- Chapter 8's worked case: the volume of one step is 1 388 750 nL. -/
theorem test_volume : volFrac 9999 16384 = 1388750 * 2 ^ 32 := by decide

/-- Chapter 12's worked case: events 1 044 and 1 045 fall on channels 29 and 20. -/
theorem test_hops : (let x : Conn := { hopBase := 17, hopInc := 23, map := 2 ^ 32 - 1 }
    (hopChannel x 1044, hopChannel x 1045)) = (29, 20) := by decide +kernel

/-- Chapter 12's worked case: the guard of a slot 300 s after its synchronisation, and the air times of its frames. -/
theorem test_guard :
    guardUs (up { link := { ownPpm := 40 } }) { peerPpm := 60, syncAt := 0, nextAt := 300 * 32768 } = 30250
    ∧ [phyAir 0 79, phyAir 0 36] = [18750, 9792] := by decide +kernel

/-- Chapter 16's worked case: 3 720 mV at 5 °C, and the polarity of pixel (2, 7) in frames 0 and 1 of dot mode. -/
theorem test_display : vlcdTarget {} 5000 = 3720 ∧ pixelPolarity { invert := 2 } 0 2 7 = 1
    ∧ pixelPolarity { invert := 2 } 1 2 7 = 0 := by decide

/-- Chapter 15's worked case: FIRST_ADDR and FIRST_INFO of LINE_FAULT_P2. -/
theorem test_firstFault : (let s := raiseBy ⟨.front, 1⟩ ⟨0x11, 0xF, 0x20000⟩ up
    (readWindow s .front 0xF10, readWindow s .front 0xF14)) = (0x20000, 0x80001F11) := by decide +kernel

/-- A tick counts the AON counter and, where the clock runs, device time (R87). -/
theorem test_tick : (match exec .d04Tick up with | .next t => (t.time.ticks, t.time.dt.toNat) | _ => (0, 0)) = (1, 1) := by
  decide +kernel

end Sys2Proof.Tests
end

/-! SUPPORT. The clock-quality code of a record and its place in every record kind (R16, Table 0.4, R100). -/

namespace Sys2Proof.Machine

/-! ### The code -/

/-- The condition under which a code of Table 0.4 holds for a record of a stream built now (R100). -/
def codeHolds (s : State) (stream code : Nat) : Prop :=
  let unset := 400 * 86400 < s.time.sinceSet / 32768 ∧ s.time.invalid = false
  let stepped := 60 * 32768 < nth s.time.stepSums stream
  let lost := s.time.invalid = true
  (code = 0 ∧ ¬ unset ∧ ¬ stepped ∧ ¬ lost) ∨ (code = 1 ∧ unset) ∨ (code = 2 ∧ stepped) ∨ (code = 3 ∧ lost)

section
variable {s : State} {stream : Nat}

theorem unsynced_eq_true_iff :
    unsynced s = true ↔ 400 * 86400 < s.time.sinceSet / 32768 ∧ s.time.invalid = false := by
  simp [unsynced, and_comm]

theorem quality_of_lost (hlost : s.time.invalid = true) : quality s stream = 3 := by
  simp [quality, hlost]

theorem quality_of_stepped (hlost : s.time.invalid = false) (hstep : 60 * 32768 < nth s.time.stepSums stream) :
    quality s stream = 2 := by
  simp [quality, hlost, hstep]

theorem quality_of_unsynced (hlost : s.time.invalid = false) (hstep : ¬ 60 * 32768 < nth s.time.stepSums stream)
    (hunset : unsynced s = true) : quality s stream = 1 := by
  simp [quality, hlost, hstep, hunset]

theorem quality_of_synced (hlost : s.time.invalid = false) (hstep : ¬ 60 * 32768 < nth s.time.stepSums stream)
    (hunset : unsynced s ≠ true) : quality s stream = 0 := by
  simp [quality, hlost, hstep, hunset]

theorem codeHolds_quality : codeHolds s stream (quality s stream) := by
  cases hlost : s.time.invalid with
  | true => exact .inr (.inr (.inr ⟨quality_of_lost hlost, hlost⟩))
  | false =>
    by_cases hstep : 60 * 32768 < nth s.time.stepSums stream
    · exact .inr (.inr (.inl ⟨quality_of_stepped hlost hstep, hstep⟩))
    · by_cases hunset : unsynced s = true
      · exact .inr (.inl ⟨quality_of_unsynced hlost hstep hunset, unsynced_eq_true_iff.mp hunset⟩)
      · exact .inl ⟨quality_of_synced hlost hstep hunset, mt unsynced_eq_true_iff.mpr hunset, hstep, by simp [hlost]⟩

theorem codeHolds_le_quality {code : Nat} (h : codeHolds s stream code) : code ≤ quality s stream := by
  obtain ⟨rfl, -⟩ | ⟨rfl, hsince, hvalid⟩ | ⟨rfl, hstep⟩ | ⟨rfl, hlost⟩ := h
  · exact Nat.zero_le _
  · by_cases hstep : 60 * 32768 < nth s.time.stepSums stream
    · simp [quality_of_stepped hvalid hstep]
    · simp [quality_of_unsynced hvalid hstep (unsynced_eq_true_iff.mpr ⟨hsince, hvalid⟩)]
  · cases hlost : s.time.invalid with
    | true => simp [quality_of_lost hlost]
    | false => simp [quality_of_stepped hlost hstep]
  · simp [quality_of_lost hlost]

end

/-! ### Its place in the records -/

@[simp] theorem length_bytesLE (k n : Nat) : (bytesLE k n).length = k := by
  induction k generalizing n with
  | zero => rfl
  | succ k ih => simp [bytesLE, ih]

@[simp] theorem length_slice (l : List Byte) (o k : Nat) : (slice l o k).length = k := by
  simp only [slice, List.length_append, List.length_take, List.length_replicate]
  omega

@[simp] theorem bytesLE_one (n : Nat) : bytesLE 1 n = [BitVec.ofNat 8 n] := rfl

/-- The byte that follows `front`, in a record that is padded. -/
theorem padTo_getD_length {front rest : List Byte} {b : Byte} {n k : Nat} (hn : front.length = n) :
    (padTo k 0 (front ++ b :: rest)).getD n 0 = b := by
  subst hn
  simp [padTo]

section
variable (s : State)

theorem amendment_carries_quality (header mac : List Byte) (st : Status) (port kind : Nat) :
    (padTo 64 0 (slice header 0 32 ++ slice mac 0 16 ++ bytesLE 8 s.time.dt.toNat ++ bytesLE 1 st.code
      ++ bytesLE 1 port ++ bytesLE 1 (quality s 0) ++ bytesLE 1 kind)).getD 58 0 = BitVec.ofNat 8 (quality s 0) := by
  rw [bytesLE_one (quality s 0), List.append_assoc _ [_]]
  exact padTo_getD_length (by simp)

theorem snapshot_carries_quality (reason key skipped : Nat) :
    (snapshot s reason key skipped).getD 2 0 = BitVec.ofNat 8 (quality s 1) := by
  unfold snapshot
  simp

theorem tamperRecord_carries_quality (e : TamperEvent) :
    (tamperRecord s e).getD 3 0 = BitVec.ofNat 8 (quality s 2) := by
  simp [tamperRecord]

theorem auditBytes_carries_quality (a : AuditReq) (seq : Nat) (queued : Bool) :
    (auditBytes s a seq queued).reverse.getD 2 0 = BitVec.ofNat 8 (quality s 3) := by
  simp [auditBytes]

theorem eventRecord_carries_quality (type : Nat) (body : List Byte) :
    (eventRecord s type body).getD 1 0 = BitVec.ofNat 8 (quality s 4) := by
  simp [eventRecord, padTo]

theorem loadProfile_carries_quality : (loadProfile s).getD 1 0 = BitVec.ofNat 8 (quality s 5) := by
  simp [loadProfile, padTo]

theorem histRecord_carries_quality (src : FaultSrc) (set : Bool) :
    (histRecord s src set).getD 24 0 = BitVec.ofNat 8 (quality s 6) := by
  simp [histRecord]

theorem counter_carries_quality (kind slot counter : Nat) (peer : List Byte) :
    (padTo 32 0 ([0x01] ++ bytesLE 1 kind ++ bytesLE 1 slot ++ bytesLE 1 (quality s 7) ++ bytesLE 4 counter
      ++ padTo 8 0 peer ++ bytesLE 8 s.time.dt.toNat)).getD 3 0 = BitVec.ofNat 8 (quality s 7) := by
  simp [padTo]

end

/-- Settles O1: the code is judged from the highest condition down, and each record kind's byte is found by the lengths of
the fields before it. -/
theorem highestQualityCode : Obligations.HighestQualityCode := by
  intro s stream
  exact ⟨codeHolds_quality, fun _ => codeHolds_le_quality,
    fun header mac st port kind _ _ => ⟨_, rfl, amendment_carries_quality s header mac st port kind⟩,
    snapshot_carries_quality s, tamperRecord_carries_quality s, auditBytes_carries_quality s,
    eventRecord_carries_quality s, loadProfile_carries_quality s, histRecord_carries_quality s,
    fun _ kind slot counter peer => ⟨_, rfl, counter_carries_quality s kind slot counter peer⟩⟩

end Sys2Proof.Machine

/-! SUPPORT. Two writes of one item in one fabric cycle (R17, R124): who wins, and what one write leaves. -/

namespace Sys2Proof.Machine

/-! ### The winner -/

/-- The place is a descriptor's staging word, which each master has of its own (R134). -/
def stagingPlace (p : Place) : Bool :=
  match p with
  | .queue off => decide (off % 0x40 < 0x20)
  | _ => false

/-- The higher-ranked of the best master so far and one more. -/
def higherRanked (best : Option Nat) (x : Nat) : Option Nat :=
  match best with
  | none => some x
  | some y => if masterRank x < masterRank y then some x else some y

/-- The masters that write the word of address `a` in the cycle and rank above the writer. -/
def strongerRivals (w : WriteCtx) (a : Nat) : List Nat :=
  (w.rivals.filter fun r => r.2 == a / 4 && masterRank r.1 < masterRank w.master).map (·.1)

theorem rivalOf_eq (w : WriteCtx) (a : Nat) :
    rivalOf w a = if stagingPlace (place a) then none else (strongerRivals w a).foldl higherRanked none := rfl

theorem stagingPlace_eq_false {p : Place} (h : ∀ off, p = .queue off → 0x20 ≤ off % 0x40) : stagingPlace p = false := by
  cases p with
  | queue off => simpa [stagingPlace] using h off rfl
  | _ => rfl

theorem mem_strongerRivals {w : WriteCtx} {a m : Nat} :
    m ∈ strongerRivals w a ↔ (∃ r ∈ w.rivals, r.1 = m ∧ r.2 = a / 4) ∧ masterRank m < masterRank w.master := by
  simp only [strongerRivals, List.mem_map, List.mem_filter, Bool.and_eq_true, beq_iff_eq, decide_eq_true_eq]
  constructor
  · rintro ⟨r, ⟨hr, haddr, hrank⟩, rfl⟩
    exact ⟨⟨r, hr, rfl, haddr⟩, hrank⟩
  · rintro ⟨⟨r, hr, rfl, haddr⟩, hrank⟩
    exact ⟨r, ⟨hr, haddr, hrank⟩, rfl⟩

theorem higherRanked_eq_or (best : Option Nat) (x : Nat) : higherRanked best x = some x ∨ higherRanked best x = best := by
  cases best with
  | none => exact .inl rfl
  | some y =>
    by_cases hrank : masterRank x < masterRank y
    · exact .inl (if_pos hrank)
    · exact .inr (if_neg hrank)

theorem higherRanked_ne_none (best : Option Nat) (x : Nat) : higherRanked best x ≠ none := by
  cases best with
  | none => simp [higherRanked]
  | some y => simp only [higherRanked]; split <;> simp

theorem foldl_higherRanked_mem {best : Option Nat} {l : List Nat} {m : Nat} (h : l.foldl higherRanked best = some m) :
    best = some m ∨ m ∈ l := by
  induction l generalizing best with
  | nil => exact .inl h
  | cons x l ih =>
    obtain hbest | hmem := ih h
    · obtain hx | hkeep := higherRanked_eq_or best x
      · have hxm : x = m := Option.some.inj (hx.symm.trans hbest)
        exact .inr (hxm ▸ List.mem_cons_self)
      · exact .inl (hkeep ▸ hbest)
    · exact .inr (List.mem_cons_of_mem x hmem)

theorem foldl_higherRanked_eq_none {best : Option Nat} {l : List Nat} (h : l.foldl higherRanked best = none) :
    best = none ∧ l = [] := by
  induction l generalizing best with
  | nil => exact ⟨h, rfl⟩
  | cons x l ih => exact absurd (ih h).1 (higherRanked_ne_none best x)

theorem mem_strongerRivals_of_rivalOf {w : WriteCtx} {a m : Nat} (h : rivalOf w a = some m) : m ∈ strongerRivals w a := by
  rw [rivalOf_eq] at h
  split at h
  · cases h
  · simpa using foldl_higherRanked_mem h

theorem strongerRivals_eq_nil_of_rivalOf {w : WriteCtx} {a : Nat} (h : rivalOf w a = none)
    (hown : stagingPlace (place a) = false) : strongerRivals w a = [] := by
  rw [rivalOf_eq, hown] at h
  exact (foldl_higherRanked_eq_none h).2

/-! ### One write -/

/-- What a write of a mapped word leaves that completes with `st` and whose effect is `t`: SET_STATUS.LAST (R98) and the
audit record of the word before and after (R498). -/
def writeRecorded (s : State) (w : WriteCtx) (role addr : Nat) (st : Status) (t : State) : State :=
  auditWrite ⟨w.master, role⟩ addr (regWord s w.master role addr)
    (regWord (noteSetCtrl (place addr) st t) w.master role addr) st (noteSetCtrl (place addr) st t)

section
variable {s : State} {w : WriteCtx} {addr role : Nat} {v : Word} {o : WriteObs}
  (hmap : place addr ≠ .unmapped) (hgrave : s.faults.grave = false) (hright : mayWrite s w.master role (place addr) = true)
include hmap hgrave hright

theorem writeWord_of_rival {m : Nat} (h : rivalOf w addr = some m) :
    writeWord o w role addr v s =
      (writeRecorded s w role addr .conflictLost (modFabric (fun f => { f with conflicts := satInc f.conflicts }) s),
        .conflictLost, m) := by
  simp [writeWord, writeRecorded, hmap, hgrave, hright, h]

theorem writeWord_of_unrivalled (h : rivalOf w addr = none) (hstrict : (strictWord (place addr) && strictRefused s) = false)
    (hfence : writeFenced s (place addr) = false) :
    writeWord o w role addr v s =
      (writeRecorded s w role addr (writeEffect o ⟨w.master, role⟩ (place addr) v s).2
          (writeEffect o ⟨w.master, role⟩ (place addr) v s).1,
        (writeEffect o ⟨w.master, role⟩ (place addr) v s).2, 0) := by
  simp [writeWord, writeRecorded, hmap, hgrave, hright, h, hstrict, hfence]

end

/-- Settles O2: `rivalOf` picks a writer of the item that ranks above, if there is one, and `writeWord` applies the effect
exactly where it picks none. -/
theorem higherRankedWriteWins : Obligations.HigherRankedWriteWins := by
  intro s w addr role m v o hmap hgrave hright
  refine ⟨fun h => mem_strongerRivals.mp (mem_strongerRivals_of_rivalOf h), ?_,
    writeWord_of_rival hmap hgrave hright, writeWord_of_unrivalled hmap hgrave hright⟩
  intro h hown r hr haddr
  have hnil := strongerRivals_eq_nil_of_rivalOf h (stagingPlace_eq_false hown)
  refine Nat.le_of_not_lt fun hrank => ?_
  have hmem : r.1 ∈ strongerRivals w addr := mem_strongerRivals.mpr ⟨⟨r, hr, rfl, haddr⟩, hrank⟩
  exact List.not_mem_nil (hnil ▸ hmem)

end Sys2Proof.Machine

/-! SUPPORT. The seal byte (R30): its bits that read 1 counted, and what a seal command that is done leaves of it. -/

namespace Sys2Proof.Machine

/-! ### Two bits that read 1 -/

/-- A rising list has two members or more exactly where some two of its members are one below the other. -/
theorem two_le_length_iff_of_rising {l : List Nat} (h : l.Pairwise (· < ·)) :
    2 ≤ l.length ↔ ∃ i j, i < j ∧ i ∈ l ∧ j ∈ l := by
  match l, h with
  | [], _ => exact ⟨fun hlen => absurd hlen (by decide), fun ⟨_, _, _, hi, _⟩ => absurd hi List.not_mem_nil⟩
  | [x], _ =>
    refine ⟨fun hlen => absurd hlen (by simp only [List.length_singleton]; decide), fun ⟨i, j, hij, hi, hj⟩ => ?_⟩
    rw [List.mem_singleton.mp hi, List.mem_singleton.mp hj] at hij
    exact absurd hij (Nat.lt_irrefl x)
  | x :: y :: rest, h =>
    have hxy : x < y := List.rel_of_pairwise_cons h List.mem_cons_self
    exact ⟨fun _ => ⟨x, y, hxy, List.mem_cons_self, List.mem_cons_of_mem x List.mem_cons_self⟩,
      fun _ => Nat.le_add_left 2 rest.length⟩

/-- At least two of the first `n` numbers pass a test exactly where some two, one below the other, do. -/
theorem two_le_length_filter_range {n : Nat} {p : Nat → Bool} :
    2 ≤ ((List.range n).filter p).length ↔ ∃ i j, i < j ∧ j < n ∧ p i = true ∧ p j = true := by
  rw [two_le_length_iff_of_rising (List.pairwise_lt_range.filter p)]
  simp only [List.mem_filter, List.mem_range]
  constructor
  · rintro ⟨i, j, hij, ⟨-, hpi⟩, hj, hpj⟩
    exact ⟨i, j, hij, hj, hpi, hpj⟩
  · rintro ⟨i, j, hij, hj, hpi, hpj⟩
    exact ⟨i, j, hij, ⟨Nat.lt_trans hij hj, hpi⟩, hj, hpj⟩

theorem isSealed_iff {s : State} :
    isSealed s = true ↔ ∃ i j, i < j ∧ j < 8 ∧ (s.otp.get 0 0x140).getLsbD i = true
      ∧ (s.otp.get 0 0x140).getLsbD j = true := by
  rw [isSealed, decide_eq_true_iff, two_le_length_filter_range]

/-! ### A seal command that is done -/

/-- Programming 0xFF sets every bit of a byte that has no stuck bit, whatever it read before. -/
theorem programOtp_full_get {stuck : OtpStuck} {a : Nat} (s : State) (h : stuck.find? (fun x => x.1 == a) = none) :
    (programOtp stuck a [0xFF] s).otp.get 0 a = 0xFF := by
  have hor : s.otp.get 0#8 a ||| 0xFF#8 = 0xFF#8 := BitVec.or_allOnes
  simp [programOtp, h, hor, Mem.get_set_ne_default]

/-- A seal command is done only by step 3 of R33; what follows it keeps what every operation keeps. -/
theorem sealEffect_done {metro : Word} {stuck : OtpStuck} {s t : State} (h : sealEffect metro stuck s = (t, .done)) :
    ∃ u, Kept {} (programOtp stuck 0x140 [0xFF] u) t := by
  unfold sealEffect at h
  split at h
  · cases h
  split at h
  case h_1 | h_2 => cases h
  split at h
  case h_1 => cases h
  next u _ =>
    dsimp only at h
    split at h
    · cases h
    · obtain ⟨rfl, -⟩ := Prod.mk.inj h
      have hrejudged := rejudgeStandby_kept (modClock_kept (f := fun c => { c with d25 := false })
        (Kept.refl {} (programOtp stuck 0x140 [0xFF] u)))
      exact ⟨u, kept_ite (alarmBy_kept hrejudged) hrejudged⟩

/-- A byte that reads 0xFF goes on reading it: no operation takes an OTP bit back. -/
theorem Kept.otp_full {k : Guard} {s t : State} {a : Nat} (h : Kept k s t) (hfull : s.otp.get 0 a = 0xFF) :
    t.otp.get 0 a = 0xFF := by
  refine BitVec.eq_of_getLsbD_eq fun i hi => ?_
  have hone : (0xFF : Byte).getLsbD i = true := (BitVec.getLsbD_allOnes (v := 8)).trans (decide_eq_true hi)
  exact (h.otp a i (hfull ▸ hone)).trans hone.symm

/-- Settles O3: the bits that read 1 are counted, and a seal command that is done has programmed the whole byte, of which
nothing after it takes a bit back. -/
theorem sealByte : Obligations.SealByte := by
  intro s t
  refine ⟨isSealed_iff, fun metro stuck hstuck hdone => ?_⟩
  obtain ⟨u, hkept⟩ := sealEffect_done hdone
  exact hkept.otp_full (programOtp_full_get u hstuck)

end Sys2Proof.Machine

/-! SUPPORT. The disabled pins (R531): FLT_N is driven low and ALIVE high only where the pin's enable reads 1. -/

namespace Sys2Proof.Machine

/-- FLT_N is low only where it is enabled, whatever the chip's mode and its sources (R531). -/
theorem fltnEn_of_fltLow {s : State} (h : fltLow s = true) : (items s).fault.fltnEn = 1 := by
  simp only [fltLow, Bool.and_eq_true, beq_iff_eq] at h
  obtain ⟨⟨-, henabled⟩, -⟩ := h
  exact henabled

/-- ALIVE is high only where it is enabled, however it last toggled (R531). -/
theorem aliveEn_of_aliveHigh {s : State} (h : aliveHigh s = true) : (items s).fault.aliveEn = 1 := by
  simp only [aliveHigh, Bool.and_eq_true, beq_iff_eq] at h
  obtain ⟨⟨-, henabled⟩, -⟩ := h
  exact henabled

/-- Settles O4: a pin that is driven is an enabled one, so neither is driven where its enable reads 0. -/
theorem disabledPins : Obligations.DisabledPins := by
  intro s
  constructor
  · intro hdisabled
    exact Bool.eq_false_iff.mpr fun hhigh => Nat.zero_ne_one (hdisabled.symm.trans (aliveEn_of_aliveHigh hhigh))
  · intro hdisabled
    exact Bool.eq_false_iff.mpr fun hlow => Nat.zero_ne_one (hdisabled.symm.trans (fltnEn_of_fltLow hlow))

end Sys2Proof.Machine

/-! SUPPORT. Every command at once: what it answers, and what it keeps of the state. -/

namespace Sys2Proof.Machine

/-! ### What a command answers -/

/-- Every command answers an effect with its consequences, but for a voltage outside the ratings (R605). -/
theorem exec_eq_rated (c : Instr) (s : State) : ∃ u, exec c s = rated (withinRatings c) u := by
  cases c <;> exact ⟨_, rfl⟩

/-- A next state is what the end of the cycle leaves of some effect. -/
theorem settled_of_exec {c : Instr} {s t : State} (h : exec c s = .next t) : ∃ u, t = settle u := by
  obtain ⟨u, hu⟩ := exec_eq_rated c s
  rw [hu] at h
  cases hr : withinRatings c with
  | true =>
    rw [hr] at h
    cases h
    exact ⟨u, rfl⟩
  | false =>
    rw [hr] at h
    cases h

/-! ### What a command keeps -/

/-- The parts that a command leaves as they were, of the five that some command changes: DT changes with time, at a start
and at the end of a mount; the image and the fences at a bring-up, and the image at a reseat; the grave latch and RETLOST
with the supplies. -/
def keptBy (c : Instr) : Guard :=
  match c with
  | .d04Tick | .timeSetApply | .xlFailDetect _ => { dt := false, grave := true, img := true, lost := true, fence := true }
  | .mount _ _ _ | .flashOpReady _ | .commitSettleEnd _ =>
    { dt := false, grave := true, img := true, lost := false, fence := true }
  | .reseatLock _ _ => { dt := true, grave := true, img := false, lost := true, fence := true }
  | .vbatFall _ | .vioFall _ => { dt := true, grave := false, img := true, lost := true, fence := false }
  | .vbatRise _ _ | .vioRise _ _ => { dt := false, grave := true, img := false, lost := false, fence := false }
  | .resetNPulse _ _ _ _ | .watchdogExpiry _ _ | .vaonPowerOn => {}
  | .stageTimeout => { dt := true, grave := true, img := false, lost := true, fence := false }
  | _ => { dt := true, grave := true, img := true, lost := true, fence := true }

/-- A command that answers a next state keeps what `keptBy` says. -/
theorem exec_kept {s t : State} : ∀ c : Instr, exec c s = .next t → Kept (keptBy c) s t
  | .vbatFall _, h => execVbatFall_kept rfl rfl h
  | .vbatRise _ _, h => execVbatRise_kept rfl rfl rfl rfl h
  | .vioFall _, h => execVioFall_kept rfl rfl h
  | .resetNPulse _ _ _ _, h => execResetNPulse_kept rfl rfl rfl rfl rfl h
  | .vaonSourceSwitch _ _ _, h => execVaonSourceSwitch_kept h
  | .vaonTouchesVret, h => execVaonTouchesVret_kept h
  | .vbakLowChange _, h => execVbakLowChange_kept h
  | .vbatReversal _, h => execVbatReversal_kept h
  | .stageTimeout, h => execStageTimeout_kept rfl rfl h
  | .watchdogExpiry _ _, h => execWatchdogExpiry_kept rfl rfl rfl rfl rfl h
  | .xlFailDetect _, h => execXlFailDetect_kept rfl h
  | .xlRetry _ _, h => execXlRetry_kept h
  | .xo39StartTimeout _, h => execXo39StartTimeout_kept h
  | .d04Tick, h => execD04Tick_kept rfl h
  | .timeSetRequest _ _, h => execTimeSetRequest_kept h
  | .timeAdjustRequest _ _, h => execTimeAdjustRequest_kept h
  | .timeSetApply, h => execTimeSetApply_kept rfl h
  | .vbatMeasure _ _ _, h => execVbatMeasure_kept h
  | .vbatRecovery _, h => execVbatRecovery_kept h
  | .txBrownout _, h => execTxBrownout_kept h
  | .flashBrownout _, h => execFlashBrownout_kept h
  | .governorDayRoll _, h => execGovernorDayRoll_kept h
  | .governorCatchup, h => execGovernorCatchup_kept h
  | .imageLoadErase _ _ _, h => execImageLoadErase_kept h
  | .imageLoadProgram _ _ _, h => execImageLoadProgram_kept h
  | .imageLoadFinish _ _ _ _, h => execImageLoadFinish_kept h
  | .sealCommand _ _ _, h => execSealCommand_kept h
  | .stage _ _, h => execStage_kept h
  | .stageDeferredResume _, h => execStageDeferredResume_kept h
  | .reseatRequestGo _ _, h => execReseatRequestGo_kept h
  | .reseatJob _, h => execReseatJob_kept h
  | .activateDtReached, h => execActivateDtReached_kept h
  | .reseatLock _ _, h => execReseatLock_kept rfl h
  | .jobSubmit _ _ _, h => execJobSubmit_kept h
  | .waitingAdmission, h => execWaitingAdmission_kept h
  | .fifoWaitExpiry _ _, h => execFifoWaitExpiry_kept h
  | .autoRetryResubmit _, h => execAutoRetryResubmit_kept h
  | .jobDispatch _ _ _, h => execJobDispatch_kept h
  | .jobCompletion _ _, h => execJobCompletion_kept h
  | .jobWatchdogExpiry _, h => execJobWatchdogExpiry_kept h
  | .heldJobTimeout _, h => execHeldJobTimeout_kept h
  | .granuleZeroed _ _, h => execGranuleZeroed_kept h
  | .completionPop _, h => execCompletionPop_kept h
  | .queueOverrunClear _ _ _, h => execQueueOverrunClear_kept h
  | .hwTrigger _, h => execHwTrigger_kept h
  | .dtBoundaryEvent _, h => execDtBoundaryEvent_kept h
  | .masonTimerEvent _, h => execMasonTimerEvent_kept h
  | .recipeStart, h => execRecipeStart_kept h
  | .recipeSubmit _, h => execRecipeSubmit_kept h
  | .recipeWait _, h => execRecipeWait_kept h
  | .recipeIfst _, h => execRecipeIfst_kept h
  | .recipeLock _, h => execRecipeLock_kept h
  | .recipeUnlock _, h => execRecipeUnlock_kept h
  | .recipeSetitem _ _ _, h => execRecipeSetitem_kept h
  | .recipeEnd _, h => execRecipeEnd_kept h
  | .lockOverrun _ _, h => execLockOverrun_kept h
  | .shotTrigger, h => execShotTrigger_kept h
  | .shotPair _, h => execShotPair_kept h
  | .shotDirection _, h => execShotDirection_kept h
  | .pumpSlow _ _, h => execPumpSlow_kept h
  | .pllLockTimeout _ _, h => execPllLockTimeout_kept h
  | .pllUnlockInWindow _, h => execPllUnlockInWindow_kept h
  | .echoWindowClose _, h => execEchoWindowClose_kept h
  | .noiseRetry, h => execNoiseRetry_kept h
  | .flow _, h => execFlow_kept h
  | .plumbRequest _, h => execPlumbRequest_kept h
  | .orientCheck _, h => execOrientCheck_kept h
  | .lineCheck _ _, h => execLineCheck_kept h
  | .peakProbe _ _, h => execPeakProbe_kept h
  | .rawCapture _, h => execRawCapture_kept h
  | .calibrate _ _ _, h => execCalibrate_kept h
  | .density _ _, h => execDensity_kept h
  | .scaleMeasure _, h => execScaleMeasure_kept h
  | .scaleStale, h => execScaleStale_kept h
  | .tempTrigger, h => execTempTrigger_kept h
  | .tempSet _, h => execTempSet_kept h
  | .excSettleEnd, h => execExcSettleEnd_kept h
  | .conversionEnd _ _ _ _, h => execConversionEnd_kept h
  | .chProbe _, h => execChProbe_kept h
  | .step _, h => execStep_kept h
  | .accReset _, h => execAccReset_kept h
  | .errorRun, h => execErrorRun_kept h
  | .calendarEvaluate, h => execCalendarEvaluate_kept h
  | .snapRequest _, h => execSnapRequest_kept h
  | .billCommit _, h => execBillCommit_kept h
  | .tarInChange _, h => execTarInChange_kept h
  | .tamperInputChange _ _, h => execTamperInputChange_kept h
  | .tamperDebounceEnd _, h => execTamperDebounceEnd_kept h
  | .pulseEdge _ _ _, h => execPulseEdge_kept h
  | .bypassWindow, h => execBypassWindow_kept h
  | .tamperAck _, h => execTamperAck_kept h
  | .write _ _, h => execWrite_kept h
  | .flashOpReady _, h => execFlashOpReady_kept rfl rfl h
  | .commitSettleEnd _, h => execCommitSettleEnd_kept rfl rfl h
  | .brownoutRewrite _, h => execBrownoutRewrite_kept h
  | .flashBusyTimeout, h => execFlashBusyTimeout_kept h
  | .flashIdlePowerDown, h => execFlashIdlePowerDown_kept h
  | .read _, h => execRead_kept h
  | .rawRead _, h => execRawRead_kept h
  | .reclaim _ _, h => execReclaim_kept h
  | .relocate _ _, h => execRelocate_kept h
  | .journalRefresh _ _, h => execJournalRefresh_kept h
  | .mount _ _ _, h => execMount_kept rfl rfl h
  | .telegramDue, h => execTelegramDue_kept h
  | .wmbBuild _, h => execWmbBuild_kept h
  | .ctrReserveCommit, h => execCtrReserveCommit_kept h
  | .wmbSend _, h => execWmbSend_kept h
  | .jitterPoint _, h => execJitterPoint_kept h
  | .synthLock _ _, h => execSynthLock_kept h
  | .synthTimeout _, h => execSynthTimeout_kept h
  | .lockLostInFrame, h => execLockLostInFrame_kept h
  | .lbtListenEnd _ _, h => execLbtListenEnd_kept h
  | .lbtBackoffEnd, h => execLbtBackoffEnd_kept h
  | .sendRetry _, h => execSendRetry_kept h
  | .txEnd _ _ _ _, h => execTxEnd_kept h
  | .watchProbeDue, h => execWatchProbeDue_kept h
  | .watchProbe _, h => execWatchProbe_kept h
  | .rfTest _, h => execRfTest_kept h
  | .slotTx _, h => execSlotTx_kept h
  | .slotRx _, h => execSlotRx_kept h
  | .rxInterferenceAbort, h => execRxInterferenceAbort_kept h
  | .rxFrameEnd _, h => execRxFrameEnd_kept h
  | .rxWindowOpen, h => execRxWindowOpen_kept h
  | .rxWindowClose, h => execRxWindowClose_kept h
  | .commandHoldEnd _ _, h => execCommandHoldEnd_kept h
  | .commandAnswer, h => execCommandAnswer_kept h
  | .sniff _ _, h => execSniff_kept h
  | .gyaleBeaconRx _ _, h => execGyaleBeaconRx_kept h
  | .gyaleConnReqRx _ _, h => execGyaleConnReqRx_kept h
  | .gyaleConnRspRx _, h => execGyaleConnRspRx_kept h
  | .gyaleDataRx _, h => execGyaleDataRx_kept h
  | .gyaleAckRx _, h => execGyaleAckRx_kept h
  | .gyaleFloodRx _, h => execGyaleFloodRx_kept h
  | .gyaleUplinkRx _, h => execGyaleUplinkRx_kept h
  | .gyaleTermRx _, h => execGyaleTermRx_kept h
  | .scanListen, h => execScanListen_kept h
  | .connReqSend, h => execConnReqSend_kept h
  | .connRspTimeout, h => execConnRspTimeout_kept h
  | .beaconSend, h => execBeaconSend_kept h
  | .connectionEvent _, h => execConnectionEvent_kept h
  | .eventAnswerTimeout _, h => execEventAnswerTimeout_kept h
  | .sleepySlot _, h => execSleepySlot_kept h
  | .guardListenTimeout _, h => execGuardListenTimeout_kept h
  | .supervisionTimeout _, h => execSupervisionTimeout_kept h
  | .relayForward, h => execRelayForward_kept h
  | .reassemblyTimeout, h => execReassemblyTimeout_kept h
  | .orphanTimeout, h => execOrphanTimeout_kept h
  | .linkSend _, h => execLinkSend_kept h
  | .linkLeave _, h => execLinkLeave_kept h
  | .linkRescan _, h => execLinkRescan_kept h
  | .ccmSeal _ _, h => execCcmSeal_kept h
  | .ccmOpen _ _, h => execCcmOpen_kept h
  | .ctr _ _, h => execCtr_kept h
  | .cbcEnc _ _, h => execCbcEnc_kept h
  | .cbcDec _ _, h => execCbcDec_kept h
  | .cmacGen _ _, h => execCmacGen_kept h
  | .cmacVer _ _, h => execCmacVer_kept h
  | .zeroize _ _ _, h => execZeroize_kept h
  | .eraseCmd _ _ _ _, h => execEraseCmd_kept h
  | .alarm _ _ _, h => execAlarm_kept h
  | .eraseRepeat _ _, h => execEraseRepeat_kept h
  | .random _, h => execRandom_kept h
  | .rawSamples _ _, h => execRawSamples_kept h
  | .entropyWaitTimeout _, h => execEntropyWaitTimeout_kept h
  | .conditionedBlock _, h => execConditionedBlock_kept h
  | .startupTestPass _, h => execStartupTestPass_kept h
  | .healthTestFail _, h => execHealthTestFail_kept h
  | .maskStale, h => execMaskStale_kept h
  | .authBegin _, h => execAuthBegin_kept h
  | .authFinish _, h => execAuthFinish_kept h
  | .sessionEnd _, h => execSessionEnd_kept h
  | .sessionIdleTimeout _, h => execSessionIdleTimeout_kept h
  | .sessionMaxTimeout _, h => execSessionMaxTimeout_kept h
  | .challengeExpiry _, h => execChallengeExpiry_kept h
  | .lockoutEnd, h => execLockoutEnd_kept h
  | .consentPropose _, h => execConsentPropose_kept h
  | .consentSign _, h => execConsentSign_kept h
  | .consentWithdraw _, h => execConsentWithdraw_kept h
  | .consentSignExpiry _, h => execConsentSignExpiry_kept h
  | .consentUseExpiry _, h => execConsentUseExpiry_kept h
  | .debugHoursExpiry, h => execDebugHoursExpiry_kept h
  | .faultStatusClear _ _ _, h => execFaultStatusClear_kept h
  | .faultForce _ _ _, h => execFaultForce_kept h
  | .aliveToggle, h => execAliveToggle_kept h
  | .lcdFrameStart, h => execLcdFrameStart_kept h
  | .displayRefresh _, h => execDisplayRefresh_kept h
  | .segCheck _ _, h => execSegCheck_kept h
  | .contrastUpdate _ _, h => execContrastUpdate_kept h
  | .vlcdRangeTimer _, h => execVlcdRangeTimer_kept h
  | .pageSelect _ _ _, h => execPageSelect_kept h
  | .pageHold _ _ _, h => execPageHold_kept h
  | .pageDwellEnd, h => execPageDwellEnd_kept h
  | .holdTimeout, h => execHoldTimeout_kept h
  | .spRead _ _ _, h => execSpRead_kept h
  | .spWrite _ _ _ _, h => execSpWrite_kept h
  | .spFrameError _, h => execSpFrameError_kept h
  | .registerWrite _ _ _ _, h => execRegisterWrite_kept h
  | .resetCauseRead, h => execResetCauseRead_kept h
  | .latchedWordRead _ _, h => execLatchedWordRead_kept h
  | .granAllocC _, h => execGranAllocC_kept h
  | .granAllocH _, h => execGranAllocH_kept h
  | .granFree _ _, h => execGranFree_kept h
  | .portGranuleIdleFree _, h => execPortGranuleIdleFree_kept h
  | .msgIdent _, h => execMsgIdent_kept h
  | .msgRead _, h => execMsgRead_kept h
  | .msgWrite _ _ _, h => execMsgWrite_kept h
  | .msgSubmit _, h => execMsgSubmit_kept h
  | .msgPoll _, h => execMsgPoll_kept h
  | .msgGranuleAllocC _, h => execMsgGranuleAllocC_kept h
  | .msgGranuleAllocH _, h => execMsgGranuleAllocH_kept h
  | .msgGranuleFree _, h => execMsgGranuleFree_kept h
  | .msgGranuleWrite _, h => execMsgGranuleWrite_kept h
  | .msgPage _, h => execMsgPage_kept h
  | .msgAuthBegin _, h => execMsgAuthBegin_kept h
  | .msgAuthFinish _, h => execMsgAuthFinish_kept h
  | .msgAuthEnd _, h => execMsgAuthEnd_kept h
  | .msgRate _, h => execMsgRate_kept h
  | .optCharGapTimeout, h => execOptCharGapTimeout_kept h
  | .optReply, h => execOptReply_kept h
  | .optRateSwitch, h => execOptRateSwitch_kept h
  | .optWakeDetect, h => execOptWakeDetect_kept h
  | .optWakeListenTimeout, h => execOptWakeListenTimeout_kept h
  | .optIdleTimeout, h => execOptIdleTimeout_kept h
  | .dbgPeek _ _, h => execDbgPeek_kept h
  | .dbgPoke _ _ _ _, h => execDbgPoke_kept h
  | .dbgPop _ _ _, h => execDbgPop_kept h
  | .dbgStatus _, h => execDbgStatus_kept h
  | .dbgHalt _, h => execDbgHalt_kept h
  | .dbgHaltForced _ _ _, h => execDbgHaltForced_kept h
  | .haltPendingEffect, h => execHaltPendingEffect_kept h
  | .dbgResume _, h => execDbgResume_kept h
  | .dbgStep _ _ _, h => execDbgStep_kept h
  | .dbgFreeze _, h => execDbgFreeze_kept h
  | .dbgThaw _, h => execDbgThaw_kept h
  | .freezeMaxExpiry, h => execFreezeMaxExpiry_kept h
  | .dbgIdleReset, h => execDbgIdleReset_kept h
  | .vioRise _ _, h => execVioRise_kept rfl rfl rfl rfl h
  | .vaonPowerOn, h => execVaonPowerOn_kept rfl rfl rfl rfl rfl h
  | .syncWordDetect, h => execSyncWordDetect_kept h
  | .xo39RunOnExpiry, h => execXo39RunOnExpiry_kept h
  | .testEnChange _ _, h => execTestEnChange_kept h
  | .clockMonitorFail _, h => execClockMonitorFail_kept h

/-- A pulse on RESET_N changes nothing in the grave state (R527). -/
theorem execResetNPulse_of_grave {s : State} (hgrave : s.faults.grave = true) (us : Nat) (taken fall : Bool) (o : BootObs) :
    execResetNPulse us taken fall o s = done s := by
  simp [execResetNPulse, hgrave]

/-- The watchdog is stopped in the grave state (R527). -/
theorem execWatchdogExpiry_of_grave {s : State} (hgrave : s.faults.grave = true) (fall : Bool) (o : BootObs) :
    execWatchdogExpiry fall o s = done s := by
  simp [execWatchdogExpiry, hgrave]

/-- The end of a cycle takes no grave latch back. -/
theorem settle_grave {s : State} (hgrave : s.faults.grave = true) : (settle s).faults.grave = true :=
  (settle_kept (Kept.refl { grave := true } s)).grave rfl hgrave

/-! ### The whole-machine rules -/

/-- Settles O5: `step` is a match on the queue. -/
theorem stepRunsFrontCommand : Obligations.StepRunsFrontCommand := by
  refine ⟨fun c rest s hqueue => ?_, fun s hqueue => ?_⟩
  · unfold step
    rw [hqueue]
  · unfold step
    rw [hqueue]

/-- Settles O6: the outcome is `rated`, and the queue is one of the parts that every command keeps. -/
theorem everyCommandAnswers : Obligations.EveryCommandAnswers := by
  refine ⟨fun c s => ?_, fun c s t h => (exec_kept c h).pending⟩
  obtain ⟨u, hu⟩ := exec_eq_rated c s
  refine ⟨fun hin => ⟨settle u, ?_⟩, fun hout => ?_⟩
  · rw [hu, hin]
    rfl
  · rw [hu, hout]
    rfl

/-- Settles O7: the reset state is a literal. -/
theorem resetState : Obligations.ResetState :=
  ⟨rfl, rfl, rfl, rfl, rfl, rfl⟩

/-- What keeps the parts that every command keeps keeps the canonical form of the memories. -/
theorem Kept.memory {k : Guard} {s t : State} (h : Kept k s t) (hwf : Memory.wf s = true) : Memory.wf t = true := by
  simp only [Memory.wf, Bool.and_eq_true] at hwf ⊢
  obtain ⟨⟨hotp, hflash⟩, hsram⟩ := hwf
  exact ⟨⟨h.otpWf hotp, h.flashWf hflash⟩, h.sramWf hsram⟩

/-- Settles O8: a step idles or runs a command, and the commands write memory only by operations that keep the form. -/
theorem stepKeepsMemoryForm : Obligations.StepKeepsMemoryForm := by
  intro s t hwf hstep
  unfold step at hstep
  split at hstep
  · cases hstep
    exact hwf
  · exact (exec_kept _ hstep).memory hwf

/-- Settles O9: the OTP bits are one of the parts that every command keeps. -/
theorem otpBitsStay : Obligations.OtpBitsStay :=
  fun c _ _ a i h => (exec_kept c h).otp a i

/-- Two bits of the seal byte that read 1 go on reading it. -/
theorem Kept.isSealed {k : Guard} {s t : State} (h : Kept k s t) (hsealed : isSealed s = true) : isSealed t = true := by
  obtain ⟨i, j, hij, hj, hi, hj'⟩ := isSealed_iff.mp hsealed
  exact isSealed_iff.mpr ⟨i, j, hij, hj, h.otp _ _ hi, h.otp _ _ hj'⟩

/-- Settles O10: the OTP bits, and with them the seal, are one of the parts that every command keeps. -/
theorem noCommandUnseals : Obligations.NoCommandUnseals :=
  fun c _ _ h => (exec_kept c h).isSealed

/-- Settles O11: DT is kept by every command that the statement does not name. -/
theorem dtChangesOnlyByTime : Obligations.DtChangesOnlyByTime := by
  intro c s t h
  cases c with
  | d04Tick | timeSetApply | xlFailDetect | vbatRise | vioRise | resetNPulse | watchdogExpiry | vaonPowerOn | mount
  | flashOpReady | commitSettleEnd => exact trivial
  | _ => exact (exec_kept _ h).dt rfl

/-- Settles O12: the image of a chip that is not bare is kept by every command that the statement does not name. -/
theorem configurationChangesOnlyAtStartAndReseat : Obligations.ConfigurationChangesOnlyAtStartAndReseat := by
  intro c s t hbare h
  cases c with
  | vbatRise | vioRise | resetNPulse | watchdogExpiry | vaonPowerOn | stageTimeout | reseatLock => exact trivial
  | _ => exact (exec_kept _ h).img rfl hbare

/-- Settles O13: the grave latch is kept by every command that the statement does not name; a pin reset and the watchdog,
which would clear it, do nothing in the grave state. -/
theorem graveClearsOnlyByPowerLoss : Obligations.GraveClearsOnlyByPowerLoss := by
  intro c s t hgrave h hclear
  cases c with
  | vbatFall | vioFall | vaonPowerOn => exact trivial
  | resetNPulse us taken fall o =>
    cases (execResetNPulse_of_grave hgrave us taken fall o).symm.trans h
    exact Bool.false_ne_true (hclear.symm.trans (settle_grave hgrave))
  | watchdogExpiry fall o =>
    cases (execWatchdogExpiry_of_grave hgrave fall o).symm.trans h
    exact Bool.false_ne_true (hclear.symm.trans (settle_grave hgrave))
  | _ => exact Bool.false_ne_true (hclear.symm.trans ((exec_kept _ h).grave rfl hgrave))

/-- Settles O14: the fences of a chip that is not bare are kept by every command that the statement does not name. -/
theorem fenceHoldsUntilBringUp : Obligations.FenceHoldsUntilBringUp := by
  intro c s t b hbare h hfenced
  cases c with
  | vbatFall | vioFall | vbatRise | vioRise | resetNPulse | watchdogExpiry | vaonPowerOn | stageTimeout => exact trivial
  | _ => exact (exec_kept _ h).fence rfl hbare b.idx hfenced

/-- A VAON that comes up from nothing leaves a RETLOST that is set as it is. -/
theorem execVaonPowerOn_retlost {s t : State} (hlost : s.lintel.retlost = true) (h : execVaonPowerOn s = .next t) :
    t.lintel.retlost = true := by
  cases h
  refine (settle_kept (Kept.refl { lost := true } _)).lost rfl ?_
  split
  · exact hlost
  · rfl

/-- Settles O15: RETLOST is kept by every command that the statement does not name, and VAON_POWER_ON sets it. -/
theorem retlostClearsOnlyAtBringUp : Obligations.RetlostClearsOnlyAtBringUp := by
  intro c s t hlost h hclear
  cases c with
  | vbatRise | vioRise | resetNPulse | watchdogExpiry | mount | flashOpReady | commitSettleEnd => exact trivial
  | vaonPowerOn => exact Bool.false_ne_true (hclear.symm.trans (execVaonPowerOn_retlost hlost h))
  | _ => exact Bool.false_ne_true (hclear.symm.trans ((exec_kept _ h).lost rfl hlost))

/-! ### The end of the cycle -/

/-- After its last act the cycle leaves ALIVE low wherever a raised source or the grave state asks for it (R530). -/
theorem aliveSync_alive {s : State} (h : degraded (aliveSync s) = true ∨ (aliveSync s).faults.grave = true) :
    (aliveSync s).faults.alive = false ∧ (aliveSync s).faults.aliveRun = false := by
  by_cases hlow : ((s.faults.alive || s.faults.aliveRun) && (degraded s || s.faults.grave)) = true
  · rw [aliveSync, if_pos hlow]
    exact ⟨rfl, rfl⟩
  · rw [aliveSync, if_neg hlow] at h ⊢
    have hasks : (degraded s || s.faults.grave) = true := Bool.or_eq_true_iff.mpr h
    rw [hasks, Bool.and_true, Bool.not_eq_true] at hlow
    exact Bool.or_eq_false_iff.mp hlow

/-- Settles O16: every command ends with the cycle's last act. -/
theorem aliveLowWhileDegraded : Obligations.AliveLowWhileDegraded := by
  intro c s t h hlow
  obtain ⟨u, rfl⟩ := settled_of_exec h
  exact aliveSync_alive hlow

/-- A chip that is on, whose flash has a step of its own left: nothing more of a run of bytes to program. -/
def flashStepLeft : State := { State.reset with
  lintel := { State.reset.lintel with mainOn := true }
  journal := { State.reset.journal with work := [.programs 0 []] } }

theorem quiet_flashStepLeft : Quiet flashStepLeft := by
  unfold Quiet
  decide +kernel

theorem settle_flashStepLeft_work : (settle flashStepLeft).journal.work = [] := by
  decide +kernel

/-- Refutes O17: a quiet state may have a step of the flash's own work left, and the end of the cycle takes it. -/
theorem not_quietStateIsSettled : ¬ Obligations.QuietStateIsSettled := by
  intro h
  have hwork := settle_flashStepLeft_work
  rw [h flashStepLeft quiet_flashStepLeft] at hwork
  cases hwork

end Sys2Proof.Machine

/-! SUPPORT. Supplies, resets and the time base (chapter 2). -/

namespace Sys2Proof.Machine

/-! ### The end of every command -/

/-- A command ends in the settled state of its effect. -/
theorem done_of_eq {u v : State} (h : u = v) : done u = .next (settle v) := by
  rw [h]
  rfl

/-- Two choices agree where their conditions hold together and their branches agree. -/
theorem ite_eq_of_iff {α : Sort _} {p q : Prop} [Decidable p] [Decidable q] {a b c d : α} (hcond : p ↔ q) (hthen : a = c)
    (helse : b = d) : (if p then a else b) = if q then c else d :=
  ite_congr (propext hcond) (fun _ => hthen) fun _ => helse

/-- A supply command with its voltages within the ratings ends in the settled state of its effect. -/
theorem rated_of_eq {ok : Bool} {u v : State} (hok : ok = true) (h : u = v) : rated ok u = .next (settle v) := by
  rw [hok]
  exact done_of_eq h

/-! ### What the main domain loses -/

/-- Emptying slots changes the slots alone. -/
theorem emptySlots_eq (ns : List Nat) (s : State) : ∃ k : Keys, ns.foldl (fun t n => emptySlot n t) s = modKeys (fun _ => k) s := by
  induction ns generalizing s with
  | nil => exact ⟨s.keys, rfl⟩
  | cons n ns ih =>
    obtain ⟨k, hk⟩ := ih (emptySlot n s)
    exact ⟨k, hk⟩

theorem unlockAs_eq (k : LockKind) (s : State) : ∃ m : Mason, unlockAs k s = modMason (fun _ => m) s := by
  unfold unlockAs
  split
  · exact ⟨_, rfl⟩
  · exact ⟨s.mason, rfl⟩

theorem cutOp_of_idle {s : State} (hidle : s.journal.op = .none) : cutOp s = s := by
  simp [cutOp, hidle]

/-- A flash that is idle is cut off with no effect on its bytes. -/
theorem cutFlash_of_idle {s : State} (hidle : s.journal.op = .none) :
    ∃ m : Mason, cutFlash s = modMason (fun _ => m) (freePeak (modJournal (fun j =>
      { j with op := .none, work := [], job := none, waitVbat := false }) s)) := by
  unfold cutFlash
  rw [cutOp_of_idle hidle]
  exact unlockAs_eq _ _

theorem supplyThresholds_mainOff {s : State} (hidle : s.journal.op = .none) :
    (mainOff s).fabric.jobs = [] ∧ (mainOff s).sram = [] ∧ (mainOff s).lintel.mainOn = false
    ∧ (mainOff s).boot.running = false ∧ (mainOff s).time.dt = s.time.dt ∧ (mainOff s).time.ticks = s.time.ticks
    ∧ (mainOff s).otp = s.otp ∧ (mainOff s).flash = s.flash ∧ (mainOff s).lintel.retlost = s.lintel.retlost
    ∧ (mainOff s).tamper = s.tamper ∧ (mainOff s).bill.slots = s.bill.slots ∧ (mainOff s).integ.copies = s.integ.copies := by
  obtain ⟨m, hm⟩ := cutFlash_of_idle hidle
  obtain ⟨k, hk⟩ := emptySlots_eq [sessionSlot 0, sessionSlot 1, sessionSlot 2, sessionSlot 3] (cutFlash s)
  have hleft : (List.range 4).foldl (fun t i => emptySlot (sessionSlot i) t) (cutFlash s)
      = modKeys (fun _ => k) (cutFlash s) := hk
  unfold mainOff
  rw [hleft, hm]
  refine ⟨rfl, rfl, rfl, rfl, rfl, rfl, rfl, rfl, ?_, rfl, rfl, rfl⟩
  unfold freePeak
  simp only [modKeys_lintel, modMason_lintel, modLintel_lintel]
  split <;> rfl

/-- Settles O18: each command tests what the statement names, and what an idle flash leaves of the main domain is a
literal. -/
theorem supplyThresholds : Obligations.SupplyThresholds := by
  refine ⟨fun s mv o hrated => ⟨?_, ?_, ?_, ?_⟩, fun s hidle => supplyThresholds_mainOff hidle⟩
  · exact rated_of_eq hrated (ite_eq_of_iff (by simp) rfl rfl)
  · exact rated_of_eq hrated (ite_eq_of_iff (by simp) rfl rfl)
  · exact rated_of_eq hrated (ite_eq_of_iff (by simp) rfl rfl)
  · exact rated_of_eq hrated (ite_eq_of_iff (by simp) rfl rfl)

/-- Settles O19: each command tests what the statement names. -/
theorem resetsAndStageTimeout : Obligations.ResetsAndStageTimeout := by
  intro s us taken fall o
  refine ⟨?_, ?_, ?_⟩
  · exact done_of_eq (ite_eq_of_iff (by simp [and_assoc]) rfl rfl)
  · exact done_of_eq (ite_eq_of_iff (by simp [and_assoc]) rfl rfl)
  · exact done_of_eq (ite_eq_of_iff (by simp [and_assoc]) rfl rfl)

/-! ### The AON supply -/

/-- VAON changes source where the comparator of R64 trips. -/
theorem vaon_trips_iff {src : Bool} {vbat vbak : Int} :
    (if src then decide (vbak + 30 ≤ vbat) else decide (vbat ≤ vbak - 30)) = true
      ↔ (src = true ∧ vbak + 30 ≤ vbat) ∨ (src = false ∧ vbat ≤ vbak - 30) := by
  cases src <;> simp

/-- Settles O20: each command tests what the statement names, and a VAON that comes up from nothing leaves a literal. -/
theorem aonSupply : Obligations.AonSupply := by
  intro s vbat vbak dip hvbat hvbak
  refine ⟨?_, rfl, ?_, ?_, fun hoff => ?_, fun hon => ?_⟩
  · refine rated_of_eq (Bool.and_eq_true_iff.mpr ⟨hvbat, hvbak⟩) ?_
    dsimp only
    by_cases htrips : (if s.lintel.srcVbak then decide (vbak + 30 ≤ vbat) else decide (vbat ≤ vbak - 30)) = true
    · rw [if_pos (vaon_trips_iff.mp htrips), htrips]
      rfl
    · rw [if_neg (mt vaon_trips_iff.mpr htrips), Bool.eq_false_iff.mpr htrips]
      rfl
  · exact rated_of_eq hvbak rfl
  · exact rated_of_eq hvbat (ite_eq_of_iff (by simp [and_assoc]) rfl rfl)
  · exact ⟨_, done_of_eq (if_neg (by simp [hoff])), rfl, rfl, rfl, rfl, rfl, rfl, rfl⟩
  · exact done_of_eq (if_pos hon)

end Sys2Proof.Machine

/-! SUPPORT. VBAT under load, the governor's day, the oscillators and device time (chapter 2). -/

namespace Sys2Proof.Machine

/-! ### VBAT under load (R80 to R82) -/

section
variable {s : State}

/-- A job that fails in its context leaves it, its interference flagged; one with no context leaves nothing. -/
theorem failCtx_of_none {job q : Nat} {st : Status} (h : ctxOf s job = none) : failCtx job st q s = s := by
  simp [failCtx, h]

theorem failCtx_of_some {job q : Nat} {st : Status} {c : RadioCtx} (h : ctxOf s job = some c) :
    failCtx job st q s
      = leaveCtx job { status := st, qflags := q + 2 * b2n c.interfered, result := c.result } s := by
  simp [failCtx, h]

/-- A held transmitter is released above TX_MIN + 100 mV, and only there. -/
theorem released_eq (held : Bool) (txMin mv : Nat) :
    (held && decide (mv ≤ txMin + 100)) = if txMin + 100 < mv then false else held := by
  by_cases hmv : txMin + 100 < mv
  · simp [hmv]
  · simp [hmv, Nat.le_of_not_lt hmv]

theorem execVbatRecovery_eq {mv : Nat} (hrated : vbatRated mv = true) (hon : s.lintel.mainOn = true) :
    execVbatRecovery mv s = .next (settle (modLintel (fun l => { l with
        txHeld := if (items s).power.txMin + 100 < mv then false else l.txHeld }) (takeVbat mv s))) :=
  rated_of_eq hrated ((if_neg (by simp [hon])).trans (by simp only [released_eq]))

section
variable {mv : Nat} (hair : inPhase s .onAir = true) (htx : s.radio.act.kind.transmits = true)
  (hlow : mv < (items s).power.txMin)
include hair htx hlow

/-- What a transmission that VBAT does not carry leaves, but for its job. -/
theorem execTxBrownout_of_no_job (hjob : s.radio.act.job = none) :
    execTxBrownout mv s = .next (settle
      (modLintel (fun l => { l with txHeld := true, vbatMv := mv, minLoaded := mv }) (synthGood (endAct s)))) :=
  done_of_eq ((if_neg (by simp [hair, htx, hlow])).trans (by rw [hjob]))

theorem execTxBrownout_of_job {id : Nat} (hjob : s.radio.act.job = some id) :
    execTxBrownout mv s = .next (settle (failCtx id .brownout 0
      (modLintel (fun l => { l with txHeld := true, vbatMv := mv, minLoaded := mv }) (synthGood (endAct s))))) :=
  done_of_eq ((if_neg (by simp [hair, htx, hlow])).trans (by rw [hjob]))

end

theorem execFlashBrownout_eq {mv : Nat} (hrated : vbatRated mv = true)
    (hop : s.lintel.peak = .program ∨ s.lintel.peak = .erase) (hlow : mv < (items s).power.flashMin) :
    execFlashBrownout mv s = .next (settle (flashBrownout (takeVbat mv s))) :=
  rated_of_eq hrated (if_neg (by obtain hop | hop := hop <;> simp [hlow, hop]))

theorem flashBrownout_of_stage (h : stageOp s = true) : flashBrownout s = giveUp .brownout (cutOp s) := by
  simp [flashBrownout, h]

theorem flashBrownout_of_mount (h : stageOp s = false) (hm : mountWorks s = true) :
    flashBrownout s = mountBrownout s.journal.op (cutOp s) := by
  simp [flashBrownout, h, hm]

theorem flashBrownout_of_own (h : stageOp s = false) (hm : mountWorks s = false)
    (hown : (s.journal.pend.map (·.own)).getD false = true) : flashBrownout s = pendBrownout (dropWork (cutOp s)) := by
  simp [flashBrownout, h, hm, hown]

theorem flashBrownout_of_no_job (h : stageOp s = false) (hm : mountWorks s = false)
    (hown : (s.journal.pend.map (·.own)).getD false = false) (hjob : workJob s = none) :
    flashBrownout s = dropWork (cutOp s) := by
  simp [flashBrownout, h, hm, hown, hjob]

theorem flashBrownout_of_job {j : Job} (h : stageOp s = false) (hm : mountWorks s = false)
    (hown : (s.journal.pend.map (·.own)).getD false = false) (hjob : workJob s = some j) :
    flashBrownout s = if j.desc.opcode = 1 then pendBrownout (modJournal (fun x => { x with work := x.work.drop 1 })
        (fillPending j (dropWork (cutOp s)))) else giveUp .brownout (cutOp s) := by
  simp [flashBrownout, h, hm, hown, hjob]

end

/-! ### The governor's day (R84, R616) -/

/-- The day's roll marks the relay and the segment check where the chip runs. -/
theorem dayMarked_eq {u v : State} (h : u = v) :
    (if !u.boot.running then u else modLcd (fun l => { l with segDue := displayRuns u }) (linkDayRoll u))
      = if v.boot.running = true then modLcd (fun l => { l with segDue := displayRuns v }) (linkDayRoll v) else v := by
  subst h
  cases u.boot.running <;> rfl

/-- Settles O21: a brownout of the flash goes by what its operation is for, and a day's roll is evaluated or held. -/
theorem loadedVbat : Obligations.LoadedVbat := by
  refine ⟨fun s vbat vbak mv c => ⟨fun hvbat hvbak hon hdue => ?_, execVbatRecovery_eq, fun hair htx hlow => ?_,
    fun hrated hop hlow => ?_⟩, fun s c => ⟨fun hday => ?_, fun day => rfl, fun hruns => ?_⟩⟩
  · exact rated_of_eq (Bool.and_eq_true_iff.mpr ⟨hvbat, hvbak⟩) (if_neg (by simp [hon, hdue]))
  · refine ⟨execTxBrownout_of_no_job hair htx hlow, fun id hjob => ?_⟩
    have heffect := execTxBrownout_of_job hair htx hlow hjob
    refine ⟨fun hctx => heffect.trans (done_of_eq (failCtx_of_none hctx)), fun x hctx => heffect.trans (done_of_eq ?_)⟩
    rw [failCtx_of_some hctx, Nat.zero_add]
  · have heffect := execFlashBrownout_eq hrated hop hlow
    refine ⟨fun hstage => heffect.trans (done_of_eq (flashBrownout_of_stage hstage)),
      fun hstage hmount => heffect.trans (done_of_eq (flashBrownout_of_mount hstage hmount)),
      fun hstage hmount hown => heffect.trans (done_of_eq (flashBrownout_of_own hstage hmount hown)),
      fun hstage hmount hown =>
        ⟨fun hjob => heffect.trans (done_of_eq (flashBrownout_of_no_job hstage hmount hown hjob)), fun j hjob => ?_⟩⟩
    have hcut := flashBrownout_of_job hstage hmount hown hjob
    exact ⟨fun hother => heffect.trans (done_of_eq (hcut.trans (if_neg hother))),
      fun hwrite => heffect.trans (done_of_eq (hcut.trans (if_pos hwrite)))⟩
  · exact done_of_eq ((if_neg (by simp [hday])).trans (dayMarked_eq (ite_eq_of_iff (by simp) rfl rfl)))
  · exact done_of_eq (if_pos hruns)

/-! ### Oscillators and ALIVE (R93, R96, R101, R530) -/

/-- Settles O22: each command tests what the statement names. -/
theorem oscillators : Obligations.Oscillators := by
  refine ⟨fun s n ok level runs d06 ppm => ⟨fun hxl => ?_, fun hxl hdue => ?_, fun hon => ?_, fun hopen => ?_, fun hsealed => ?_⟩,
    fun s => ⟨fun hon hruns hgrave hfine hen => ?_, fun hlow => ?_⟩⟩
  · exact done_of_eq (if_neg (by simp [hxl]))
  · exact done_of_eq (if_neg (by simp [hxl, hdue]))
  · exact done_of_eq (if_neg (by simp [hon]))
  · exact done_of_eq (if_neg (by simp [hopen]))
  · exact done_of_eq ((if_pos hsealed).trans (ite_eq_of_iff (by simp) rfl rfl))
  · exact done_of_eq (if_pos (by simp [hon, hruns, hgrave, hfine, hen]))
  · refine done_of_eq (if_neg ?_)
    obtain hgrave | hfault := hlow
    · simp [hgrave]
    · simp [hfault]

/-! ### Device time (R97, R98) -/

section
variable {s : State}

/-- The end of a cycle leaves DT. -/
theorem settle_dt (s : State) : (settle s).time.dt = s.time.dt :=
  (settle_kept (Kept.refl { dt := true } s)).dt rfl

/-- The ticks counted, DT is as it was moved. -/
theorem countTicks_moveDt_dt (n new : Nat) (s : State) : (countTicks n (moveDt new s)).time.dt = BitVec.ofNat 64 new :=
  (countTicks_kept (Kept.refl { dt := true } (moveDt new s))).dt rfl

theorem advance_dt (s : State) : (advance 1 s).time.dt = s.time.dt + 1 := by
  rw [advance, countTicks_moveDt_dt, BitVec.ofNat_add, BitVec.ofNat_toNat, BitVec.setWidth_eq]
  rfl

theorem tick_of_none (h : s.time.pend = none) : tick s = advance 1 s := by
  simp [tick, h]

theorem tick_of_pend {p : PendingSet} (h : s.time.pend = some p) : tick s = applySet p s := by
  simp [tick, h]

/-- What a set leaves of DT, its value taken: everything after it keeps DT (R98). -/
theorem applySet_dt_of_target {p : PendingSet} {v : Nat} (h : setTarget s p = some v) :
    (applySet p s).time.dt = BitVec.ofNat 64 v := by
  suffices hkept : Kept { dt := true } (countTicks 1 (moveDt v (modTime (fun t => { t with pend := none }) s)))
      (applySet p s) from (hkept.dt rfl).trans (countTicks_moveDt_dt 1 v _)
  unfold applySet
  rw [h]
  refine kept_ite (evaluateCalendar_kept ?_) ?_
  all_goals
    exact writeEvent_kept (raiseIf_kept (setLevel_kept (setLevel_kept (modInteg_kept (modTime_kept (fun _ => rfl)
      (Kept.refl _ _))))))

theorem applySet_of_no_target {p : PendingSet} (h : setTarget s p = none) :
    applySet p s = modTime (fun t => { t with last := Status.refusedPolicy.code })
      (advance 1 (modTime (fun t => { t with pend := none }) s)) := by
  simp [applySet, h]

theorem execTimeSetApply_of_pend {p : PendingSet} (h : s.time.pend = some p) :
    execTimeSetApply s = .next (settle (applySet p s)) :=
  done_of_eq ((if_pos (by rw [h]; rfl)).trans (tick_of_pend h))

end

/-- Settles O23: a tick advances DT, and a set's value stands after all that follows it in its tick. -/
theorem deviceTime : Obligations.DeviceTime := by
  refine ⟨fun s hpend => ?_, fun s p hpend => ⟨fun v hv => ?_, fun hnone => ?_⟩⟩
  · exact ⟨_, done_of_eq (tick_of_none hpend), (settle_dt _).trans (advance_dt s)⟩
  · exact ⟨_, execTimeSetApply_of_pend hpend, (settle_dt _).trans (applySet_dt_of_target hv)⟩
  · exact ⟨_, (execTimeSetApply_of_pend hpend).trans (done_of_eq (applySet_of_no_target hnone)), advance_dt _, rfl⟩

end Sys2Proof.Machine

/-! SUPPORT. One register write that nothing hinders, and the words with a key (chapters 1, 2, 13, 16 and 17). -/

namespace Sys2Proof.Machine

/-! ### A request of a port -/

section
variable (m : Nat) (s : State)

/-- A request changes the sessions and the ports alone. -/
theorem portRequest_eq : ∃ r p, portRequest m s = modPorts (fun _ => p) (modRoles (fun _ => r) s) := by
  unfold portRequest touchSession
  split
  · exact ⟨_, _, rfl⟩
  · exact ⟨s.roles, _, rfl⟩

@[simp] theorem portRequest_faults : (portRequest m s).faults = s.faults := by
  obtain ⟨r, p, h⟩ := portRequest_eq m s
  rw [h]
  rfl

@[simp] theorem portRequest_boot : (portRequest m s).boot = s.boot := by
  obtain ⟨r, p, h⟩ := portRequest_eq m s
  rw [h]
  rfl

@[simp] theorem portRequest_time : (portRequest m s).time = s.time := by
  obtain ⟨r, p, h⟩ := portRequest_eq m s
  rw [h]
  rfl

@[simp] theorem portRequest_otp : (portRequest m s).otp = s.otp := by
  obtain ⟨r, p, h⟩ := portRequest_eq m s
  rw [h]
  rfl

end

/-! ### One write -/

theorem noteSetCtrl_of_ne {p : Place} (h : p ≠ .block .time 0x028) (st : Status) (s : State) :
    noteSetCtrl p st s = s :=
  if_neg h

theorem noteSetCtrl_setCtrl (st : Status) (s : State) :
    noteSetCtrl (.block .time 0x028) st s = modTime (fun t => { t with last := st.code }) s :=
  if_pos rfl

section
variable {s : State} {w : WriteCtx} {addr : Nat} {v : Word} {o : WriteObs}

/-- A write that nothing hinders has its word's effect and is recorded (R17, R498). -/
theorem writeAccess_of_open (hopen : WriteOpen s w addr) :
    writeAccess o w addr v s =
      answered (writeEffect o (writer s w) (place addr) v (portRequest w.master s)).2 s w addr
        (noteSetCtrl (place addr) (writeEffect o (writer s w) (place addr) v (portRequest w.master s)).2
          (writeEffect o (writer s w) (place addr) v (portRequest w.master s)).1) := by
  obtain ⟨hon, hidle, hmap, hgrave, hright, hrival, hstrict, hfence⟩ := hopen
  have hword := writeWord_of_unrivalled (o := o) (v := v) hmap ((congrArg Faults.grave (portRequest_faults _ s)).trans hgrave)
    hright hrival hstrict hfence
  have hserved : writeAccess o w addr v s
      = (writeWord o w (roleOf s w.master) addr v (portRequest w.master s)).1 := by
    simp [writeAccess, hon, hidle]
  rw [hserved, hword]
  rfl

/-- The same for a word other than SET_CTRL whose effect and status are known. -/
theorem writeAccess_eq {p : Place} {st : Status} {t : State} (hopen : WriteOpen s w addr) (hplace : place addr = p)
    (hother : p ≠ .block .time 0x028) (heffect : writeEffect o (writer s w) p v (portRequest w.master s) = (t, st)) :
    writeAccess o w addr v s = answered st s w addr t := by
  rw [writeAccess_of_open hopen, hplace, heffect, noteSetCtrl_of_ne hother]

end

/-- Settles O24: the write is served, and `writeWord` applies the effect. -/
theorem registerWriteApplies : Obligations.RegisterWriteApplies :=
  fun _ _ _ _ _ hopen => done_of_eq (writeAccess_of_open hopen)

/-! ### The fields of a written word -/

section
variable (key : Half)

theorem key_lt : key.toNat < 65536 := key.isLt

theorem bit_eq_decide (i n : Nat) : bit i n = decide (n / 2 ^ i % 2 = 1) :=
  Nat.testBit_eq_decide_div_mod_eq

theorem b2n_true : b2n true = 1 := rfl
theorem b2n_false : b2n false = 0 := rfl

/-- A key with GO alone. -/
theorem keyed_go : bits 15 0 (BitVec.ofNat 32 (key.toNat + 2 ^ 16)).toNat = key.toNat
    ∧ bit 16 (BitVec.ofNat 32 (key.toNat + 2 ^ 16)).toNat = true
    ∧ bit 17 (BitVec.ofNat 32 (key.toNat + 2 ^ 16)).toNat = false := by
  have hkey := key_lt key
  simp only [bits, bit_eq_decide, BitVec.toNat_ofNat, decide_eq_true_eq, decide_eq_false_iff_not]
  omega

/-- A key with GO and ADJUST. -/
theorem keyed_adjust : bits 15 0 (BitVec.ofNat 32 (key.toNat + 3 * 2 ^ 16)).toNat = key.toNat
    ∧ bit 16 (BitVec.ofNat 32 (key.toNat + 3 * 2 ^ 16)).toNat = true
    ∧ bit 17 (BitVec.ofNat 32 (key.toNat + 3 * 2 ^ 16)).toNat = true := by
  have hkey := key_lt key
  simp only [bits, bit_eq_decide, BitVec.toNat_ofNat, decide_eq_true_eq]
  omega

/-- The fields of LCD_CTRL as a word with SEL_GO spells them. -/
theorem lcdCtrl_select_fields {page : Nat} (hpage : page < 32) (hold : Bool) :
    bits 4 0 (BitVec.ofNat 32 (page % 32 + 2 ^ 8 + 2 ^ 9 * b2n hold)).toNat = page
    ∧ bit 8 (BitVec.ofNat 32 (page % 32 + 2 ^ 8 + 2 ^ 9 * b2n hold)).toNat = true
    ∧ bit 9 (BitVec.ofNat 32 (page % 32 + 2 ^ 8 + 2 ^ 9 * b2n hold)).toNat = hold := by
  cases hold <;>
    simp only [bits, bit_eq_decide, b2n_true, b2n_false, BitVec.toNat_ofNat, decide_eq_true_eq, decide_eq_false_iff_not] <;>
    omega

/-- The same without SEL_GO. -/
theorem lcdCtrl_hold_fields {page : Nat} (hpage : page < 32) (hold : Bool) :
    bits 4 0 (BitVec.ofNat 32 (page % 32 + 2 ^ 9 * b2n hold)).toNat = page
    ∧ bit 8 (BitVec.ofNat 32 (page % 32 + 2 ^ 9 * b2n hold)).toNat = false
    ∧ bit 9 (BitVec.ofNat 32 (page % 32 + 2 ^ 9 * b2n hold)).toNat = hold := by
  cases hold <;>
    simp only [bits, bit_eq_decide, b2n_true, b2n_false, BitVec.toNat_ofNat, decide_eq_true_eq, decide_eq_false_iff_not] <;>
    omega

/-- Another key than the one that a word's field must hold. -/
theorem key_toNat_ne {key k : Half} {n : Nat} (h : key ≠ k) (hn : k.toNat = n) : key.toNat ≠ n :=
  fun he => h (BitVec.eq_of_toNat_eq (he.trans hn.symm))

theorem field_ne_of_key {field key want : Nat} (hfield : field = key) (hkey : key ≠ want) : field ≠ want :=
  hfield ▸ hkey

end

/-! ### SET_CTRL (R98) -/

section
variable {s : State} {a : Actor} {key : Half}

/-- SET_CTRL with GO and its key: the set waits. -/
theorem writeSetCtrl_of_key {v : Word} (hmaster : a.master ≠ 8) (hgo : bit 16 v.toNat = true)
    (hkey : bits 15 0 v.toNat = 0x7D1E) :
    writeSetCtrl a v s = (modTime (fun t => { t with pend := some ⟨bit 17 v.toNat, t.setValue, a⟩ }) s, .done) := by
  simp [writeSetCtrl, hmaster, hgo, hkey]

/-- SET_CTRL by the core, or with GO and another key: nothing but the refusal. -/
theorem writeSetCtrl_turned {v : Word} (hgo : bit 16 v.toNat = true)
    (hturned : a.master = 8 ∨ bits 15 0 v.toNat ≠ 0x7D1E) : writeSetCtrl a v s = (s, .refusedPolicy) := by
  by_cases hmaster : a.master = 8
  · simp [writeSetCtrl, hmaster]
  · simp [writeSetCtrl, hmaster, hgo, hturned.resolve_left hmaster]

end

section
variable {s : State} {w : WriteCtx} {v : Word} (hopen : WriteOpen s w 0x4028)
include hopen

theorem setCtrl_asked (hmaster : w.master ≠ 8) (hgo : bit 16 v.toNat = true) (hkey : bits 15 0 v.toNat = 0x7D1E) :
    writeAccess {} w 0x4028 v s = written s w 0x4028 (modTime (fun t =>
      { t with last := Status.done.code, pend := some ⟨bit 17 v.toNat, t.setValue, writer s w⟩ })
        (portRequest w.master s)) := by
  have heffect : writeEffect {} (writer s w) (place 0x4028) v (portRequest w.master s) = _ :=
    writeSetCtrl_of_key hmaster hgo hkey
  rw [writeAccess_of_open hopen, heffect]
  rfl

theorem setCtrl_turned (hgo : bit 16 v.toNat = true) (hturned : w.master = 8 ∨ bits 15 0 v.toNat ≠ 0x7D1E) :
    writeAccess {} w 0x4028 v s = answered .refusedPolicy s w 0x4028
      (modTime (fun t => { t with last := Status.refusedPolicy.code }) (portRequest w.master s)) := by
  have heffect : writeEffect {} (writer s w) (place 0x4028) v (portRequest w.master s) = _ :=
    writeSetCtrl_turned hgo hturned
  rw [writeAccess_of_open hopen, heffect]
  rfl

end

/-! ### RESEAT_CTRL (R50, R60) -/

section
variable {s : State} {a : Actor} {v : Word}

theorem writeReseatCtrl_of_key (hgo : bit 16 v.toNat = true) (hkey : bits 15 0 v.toNat = 0xA5C3) :
    writeReseatCtrl a v s = (reseatWrite a s, .done) := by
  simp [writeReseatCtrl, hgo, hkey]

theorem writeReseatCtrl_turned (hgo : bit 16 v.toNat = true) (hkey : bits 15 0 v.toNat ≠ 0xA5C3) :
    writeReseatCtrl a v s = (s, .refusedPolicy) := by
  simp [writeReseatCtrl, hgo, hkey]

/-- A request without a job is held back while a staging goes on or another reseat waits. -/
theorem askReseat_held {d : Deferred} (h : stagingNow s = true ∨ s.boot.reseatWait.isSome = true) :
    askReseat none a d s = modBoot (fun b => { b with deferred := b.deferred ++ [d] }) s := by
  unfold askReseat
  by_cases hstaging : stagingNow s = true
  · simp [hstaging]
  · simp [hstaging, h.resolve_left hstaging]

theorem askReseat_waits {job : Option Nat} {d : Deferred} (h : ¬ (stagingNow s = true ∨ s.boot.reseatWait.isSome = true))
    (hnew : reseatable s = true) :
    askReseat job a d s = modBoot (fun b => { b with reseatWait := some job, reseatActor := a }) s := by
  obtain ⟨hstaging, hwait⟩ := not_or.mp h
  simp only [askReseat, hstaging, hwait, hnew, if_true, Bool.false_eq_true, if_false]

theorem askReseat_refused {d : Deferred} (h : ¬ (stagingNow s = true ∨ s.boot.reseatWait.isSome = true))
    (hnew : reseatable s = false) :
    askReseat none a d s = modBoot (fun b => { b with reseatResult := Status.refusedPolicy.code }) s := by
  obtain ⟨hstaging, hwait⟩ := not_or.mp h
  simp only [askReseat, hstaging, hwait, hnew, Bool.false_eq_true, if_false]
  rfl

end

section
variable {s : State} {w : WriteCtx} {v : Word} (hopen : WriteOpen s w 0x1040)
include hopen

theorem reseatCtrl_asked (hgo : bit 16 v.toNat = true) (hkey : bits 15 0 v.toNat = 0xA5C3) :
    writeAccess {} w 0x1040 v s = written s w 0x1040 (reseatWrite (writer s w) (portRequest w.master s)) :=
  writeAccess_eq hopen rfl nofun (writeReseatCtrl_of_key hgo hkey)

theorem reseatCtrl_turned (hgo : bit 16 v.toNat = true) (hkey : bits 15 0 v.toNat ≠ 0xA5C3) :
    writeAccess {} w 0x1040 v s = turnedAway s w 0x1040 :=
  writeAccess_eq hopen rfl nofun (writeReseatCtrl_turned hgo hkey)

end

/-! ### ERASE_CMD and LCD_CTRL (R463, R553) -/

section
variable {s : State} {v : Word}

theorem writeEraseCmd_of_key {o : WriteObs} (hgo : bit 16 v.toNat = true) (hkey : bits 15 0 v.toNat = 0xC1A5) :
    writeEraseCmd o v s = (alarm 5 (2 ^ 24 - 1) true o.eraseNs o.eraseRepeats s, .done) := by
  simp [writeEraseCmd, hgo, hkey]

theorem writeEraseCmd_turned {o : WriteObs} (hgo : bit 16 v.toNat = true) (hkey : bits 15 0 v.toNat ≠ 0xC1A5) :
    writeEraseCmd o v s = (s, .refusedPolicy) := by
  simp [writeEraseCmd, hgo, hkey]

theorem eraseCmd_asked {w : WriteCtx} {o : WriteObs} (hopen : WriteOpen s w 0x2C020) (hgo : bit 16 v.toNat = true)
    (hkey : bits 15 0 v.toNat = 0xC1A5) :
    writeAccess o w 0x2C020 v s
      = written s w 0x2C020 (alarm 5 (2 ^ 24 - 1) true o.eraseNs o.eraseRepeats (portRequest w.master s)) :=
  writeAccess_eq hopen rfl nofun (writeEraseCmd_of_key hgo hkey)

theorem eraseCmd_turned {w : WriteCtx} {o : WriteObs} (hopen : WriteOpen s w 0x2C020) (hgo : bit 16 v.toNat = true)
    (hkey : bits 15 0 v.toNat ≠ 0xC1A5) : writeAccess o w 0x2C020 v s = turnedAway s w 0x2C020 :=
  writeAccess_eq hopen rfl nofun (writeEraseCmd_turned hgo hkey)

/-- A page that the image holds selected. -/
theorem writeLcdCtrl_select {page : Nat} {hold : Bool} (hsel : bits 4 0 v.toNat = page) (hgo : bit 8 v.toNat = true)
    (hhold : bit 9 v.toNat = hold) (hpage : page < (items s).display.pages.length) :
    writeLcdCtrl v s = (modLcd (fun l =>
      { l with
        pageSel := page, hold := hold, holdAt := if hold = true ∧ l.hold = false then s.time.ticks else l.holdAt
        cur := page, dwellAt := s.time.ticks }) s, .done) := by
  simp [writeLcdCtrl, hsel, hgo, hhold, Nat.not_le_of_lt hpage]

theorem writeLcdCtrl_turned {page : Nat} (hsel : bits 4 0 v.toNat = page) (hgo : bit 8 v.toNat = true)
    (hpage : (items s).display.pages.length ≤ page) : writeLcdCtrl v s = (s, .refusedPolicy) := by
  simp [writeLcdCtrl, hsel, hgo, hpage]

/-- A write without SEL_GO: HOLD alone. -/
theorem writeLcdCtrl_hold {page : Nat} {hold : Bool} (hsel : bits 4 0 v.toNat = page) (hgo : bit 8 v.toNat = false)
    (hhold : bit 9 v.toNat = hold) :
    writeLcdCtrl v s = (modLcd (fun l =>
      { l with
        pageSel := page, hold := hold, holdAt := if hold = true ∧ l.hold = false then s.time.ticks else l.holdAt }) s,
      .done) := by
  simp [writeLcdCtrl, hsel, hgo, hhold]

end

/-- Settles O25: the fields of each written word give the branch that its effect takes. -/
theorem keyedWrites : Obligations.KeyedWrites := by
  refine ⟨fun s w key hopen => ⟨fun hmaster => ⟨?_, ?_⟩, fun hturned => ⟨?_, ?_⟩⟩, fun s w key hopen => ⟨fun hfree hnew => ?_,
    fun hfree hnew => ?_, fun hheld => ?_, fun hkey => ?_⟩, fun s w ns reps page hold key => ⟨fun hopen => ⟨?_, fun hkey => ?_⟩,
    fun hopen hpage => ⟨fun hheld => ?_, fun hout => ?_, ?_⟩⟩⟩
  · exact done_of_eq (setCtrl_asked hopen hmaster rfl rfl)
  · exact done_of_eq (setCtrl_asked hopen hmaster rfl rfl)
  · obtain ⟨hbits, hgo, -⟩ := keyed_go key
    exact done_of_eq (setCtrl_turned hopen hgo (hturned.imp_right fun hne =>
      field_ne_of_key hbits (key_toNat_ne hne rfl)))
  · obtain ⟨hbits, hgo, -⟩ := keyed_adjust key
    exact done_of_eq (setCtrl_turned hopen hgo (hturned.imp_right fun hne =>
      field_ne_of_key hbits (key_toNat_ne hne rfl)))
  · exact done_of_eq ((reseatCtrl_asked hopen rfl rfl).trans (congrArg _ (askReseat_waits hfree hnew)))
  · exact done_of_eq ((reseatCtrl_asked hopen rfl rfl).trans (congrArg _ (askReseat_refused hfree hnew)))
  · exact done_of_eq ((reseatCtrl_asked hopen rfl rfl).trans (congrArg _ (askReseat_held hheld)))
  · obtain ⟨hbits, hgo, -⟩ := keyed_go key
    exact done_of_eq (reseatCtrl_turned hopen hgo (field_ne_of_key hbits (key_toNat_ne hkey rfl)))
  · exact done_of_eq (eraseCmd_asked hopen rfl rfl)
  · obtain ⟨hbits, hgo, -⟩ := keyed_go key
    exact done_of_eq (eraseCmd_turned hopen hgo (field_ne_of_key hbits (key_toNat_ne hkey rfl)))
  · obtain ⟨hsel, hgo, hhold⟩ := lcdCtrl_select_fields hpage hold
    have hitems : page < (items (portRequest w.master s)).display.pages.length := by
      rwa [items, portRequest_boot]
    have heffect := writeLcdCtrl_select (s := portRequest w.master s) hsel hgo hhold hitems
    rw [portRequest_time] at heffect
    exact done_of_eq (writeAccess_eq hopen rfl nofun heffect)
  · obtain ⟨hsel, hgo, -⟩ := lcdCtrl_select_fields hpage hold
    have hitems : (items (portRequest w.master s)).display.pages.length ≤ page := by
      rwa [items, portRequest_boot]
    exact done_of_eq (writeAccess_eq hopen rfl nofun (writeLcdCtrl_turned hsel hgo hitems))
  · obtain ⟨hsel, hgo, hhold⟩ := lcdCtrl_hold_fields hpage hold
    have heffect := writeLcdCtrl_hold (s := portRequest w.master s) hsel hgo hhold
    rw [portRequest_time] at heffect
    exact done_of_eq (writeAccess_eq hopen rfl nofun heffect)

/-! ### LOAD_CTRL (R45) -/

section
variable {s : State} {a : Actor} {o : WriteObs} {v : Word} {copyB : Bool}

/-- What LOAD_CTRL's RESULT makes of a load's state and status. -/
def loadShown (r : State × Status) : State := modBoot (fun b => { b with loadResult := r.2.code }) r.1

/-- The state in which a load command acts: the copy it names is noted. -/
def loadNamed (copyB : Bool) (s : State) : State := modBoot (fun b => { b with loadCopyB := copyB }) s

section
variable (hbare : s.boot.bare = true) (hport : a.master = 1) (hcopy : bit 4 v.toNat = copyB)
include hbare hport hcopy

theorem writeLoadCtrl_erase (hcmd : bits 1 0 v.toNat = 1) :
    writeLoadCtrl o a v s = (loadShown (loadErase copyB o.flash (loadNamed copyB s)), .done) := by
  simp [writeLoadCtrl, hbare, hport, hcopy, hcmd, loadShown, loadNamed]

theorem writeLoadCtrl_program (hcmd : bits 1 0 v.toNat = 2) :
    writeLoadCtrl o a v s = (loadShown (loadProgram copyB o.flash (loadNamed copyB s)), .done) := by
  simp [writeLoadCtrl, hbare, hport, hcopy, hcmd, loadShown, loadNamed]

theorem writeLoadCtrl_finish (hcmd : bits 1 0 v.toNat = 3) :
    writeLoadCtrl o a v s = (loadShown (loadFinish a copyB o.flash o.boot (loadNamed copyB s)), .done) := by
  simp [writeLoadCtrl, hbare, hport, hcopy, hcmd, loadShown, loadNamed]

end

theorem writeLoadCtrl_turned (h : s.boot.bare = false ∨ a.master ≠ 1) : writeLoadCtrl o a v s = (s, .refusedPolicy) := by
  obtain hbare | hport := h
  · simp [writeLoadCtrl, hbare]
  · simp [writeLoadCtrl, hport]

end

/-- The command and the copy of LOAD_CTRL as the three commands spell them. -/
theorem loadCtrl_fields {cmd : Nat} (hcmd : cmd < 4) (copyB : Bool) :
    bits 1 0 (BitVec.ofNat 32 (cmd + 16 * b2n copyB)).toNat = cmd
    ∧ bit 4 (BitVec.ofNat 32 (cmd + 16 * b2n copyB)).toNat = copyB := by
  cases copyB <;>
    simp only [bits, bit_eq_decide, b2n_true, b2n_false, BitVec.toNat_ofNat, decide_eq_true_eq, decide_eq_false_iff_not] <;>
    omega

section
variable {s : State} {w : WriteCtx} {o : WriteObs} {copyB : Bool} (hopen : WriteOpen s w 0x1050)
include hopen

theorem loadAccess_eq {cmd : Nat} {st : Status} {t : State}
    (heffect : writeLoadCtrl o (writer s w) (BitVec.ofNat 32 (cmd + 16 * b2n copyB)) (portRequest w.master s) = (t, st)) :
    loadAccess o w cmd copyB s = answered st s w 0x1050 t :=
  writeAccess_eq hopen rfl nofun heffect

theorem loadAccess_turned (cmd : Nat) (h : s.boot.bare = false ∨ w.master ≠ 1) :
    loadAccess o w cmd copyB s = turnedAway s w 0x1050 :=
  loadAccess_eq hopen (writeLoadCtrl_turned (by rwa [portRequest_boot]))

end

/-- Settles O26: LOAD_CTRL's fields name the command and the copy. -/
theorem imageLoad : Obligations.ImageLoad := by
  refine fun s w copyB o boot hopen => ⟨fun hbare hport => ⟨?_, ?_, ?_⟩, fun h => ⟨?_, ?_, ?_⟩⟩
  · obtain ⟨hcmd, hcopy⟩ := loadCtrl_fields (cmd := 1) (by decide) copyB
    exact done_of_eq (loadAccess_eq hopen (writeLoadCtrl_erase (by rwa [portRequest_boot]) hport hcopy hcmd))
  · obtain ⟨hcmd, hcopy⟩ := loadCtrl_fields (cmd := 2) (by decide) copyB
    exact done_of_eq (loadAccess_eq hopen (writeLoadCtrl_program (by rwa [portRequest_boot]) hport hcopy hcmd))
  · obtain ⟨hcmd, hcopy⟩ := loadCtrl_fields (cmd := 3) (by decide) copyB
    exact done_of_eq (loadAccess_eq hopen (writeLoadCtrl_finish (by rwa [portRequest_boot]) hport hcopy hcmd))
  · exact done_of_eq (loadAccess_turned hopen 1 h)
  · exact done_of_eq (loadAccess_turned hopen 2 h)
  · exact done_of_eq (loadAccess_turned hopen 3 h)

/-! ### SEAL_CMD (R30, R32, R33) -/

section
variable {s : State} {a : Actor} {metro : Word} {stuck : OtpStuck}

theorem sealEffect_refused (h : metro ≠ s.boot.img.metro ∨ isSealed s = true) :
    sealEffect metro stuck s = (s, .refusedPolicy) := by
  obtain hmetro | hsealed := h
  · simp [sealEffect, hmetro]
  · simp [sealEffect, hsealed]

/-- A seal command that is done leaves a sealed chip: it judges the seal byte, and what follows takes no bit back. -/
theorem isSealed_of_sealEffect (h : (sealEffect metro stuck s).2 = .done) : isSealed (sealEffect metro stuck s).1 = true := by
  generalize hr : sealEffect metro stuck s = r at h
  obtain ⟨t, st⟩ := r
  obtain rfl : st = .done := h
  unfold sealEffect at hr
  split at hr
  · cases hr
  split at hr
  case h_1 | h_2 => cases hr
  split at hr
  case h_1 => cases hr
  next u _ =>
    dsimp only at hr
    split at hr
    · cases hr
    · rename_i hbyte
      obtain ⟨rfl, -⟩ := Prod.mk.inj hr
      have hjudged := rejudgeStandby_kept (modClock_kept (f := fun c => { c with d25 := false })
        (Kept.refl {} (programOtp stuck 0x140 [0xFF] u)))
      exact (kept_ite (alarmBy_kept hjudged) hjudged).isSealed (by simpa using hbyte)

theorem writeSeal_of_maker {o : WriteObs} {v : Word} (hruns : s.boot.running = true) (hport : a.master = 1) (hrole : a.role = 3) :
    writeSeal o a v s = sealChip a v o.sealStuck s := by
  simp [writeSeal, hruns, hport, hrole]

theorem writeSeal_turned {o : WriteObs} {v : Word} (h : a.master ≠ 1 ∨ a.role ≠ 3 ∨ s.boot.running = false) :
    writeSeal o a v s = (s, .refusedPolicy) := by
  obtain hport | hrole | hruns := h
  · simp [writeSeal, hport]
  · simp [writeSeal, hrole]
  · simp [writeSeal, hruns]

end

/-- Settles O27: a maker's seal command is `sealChip`, whose effect judges the byte it has programmed. -/
theorem sealCommand : Obligations.SealCommand := by
  refine fun s w metro stuck hopen => ⟨fun hport hrole hruns => ⟨?_, isSealed_of_sealEffect, fun h => ?_⟩, fun h => ?_⟩
  · exact done_of_eq (writeAccess_eq hopen rfl nofun (writeSeal_of_maker (by rwa [portRequest_boot]) hport hrole))
  · have hsame : metro ≠ (portRequest w.master s).boot.img.metro ∨ isSealed (portRequest w.master s) = true := by
      rwa [isSealed, portRequest_otp, portRequest_boot]
    simp only [sealChip, sealEffect_refused hsame]
    exact ⟨trivial, portRequest_otp _ _⟩
  · exact done_of_eq (writeAccess_eq hopen rfl nofun (writeSeal_turned (by rwa [portRequest_boot])))

end Sys2Proof.Machine

/-! SUPPORT. Queue registers, a port's granules, the fault windows and the reads with an effect (chapters 3, 8, 15 and 17). -/

namespace Sys2Proof.Machine

/-! ### The QUEUE window (R130, R133, R134, R617) -/

/-- A word of a queue lies in the QUEUE block, at its queue's offset. -/
theorem place_queue {q r : Nat} (hq : q < 64) (hr : r < 0x40) (hword : r % 4 = 0) :
    place (0x6000 + q * 0x40 + r) = .queue (q * 0x40 + r) := by
  have hmapped : ¬ (0x6000 + q * 0x40 + r) % 4 ≠ 0 := by omega
  have hrange : (decide (0x6000 ≤ 0x6000 + q * 0x40 + r) && decide (0x6000 + q * 0x40 + r < 0x7000)) = true := by
    simp only [Bool.and_eq_true, decide_eq_true_eq]
    omega
  have hoffset : 0x6000 + q * 0x40 + r - 0x6000 = q * 0x40 + r := by omega
  rw [place, if_neg hmapped, if_pos hrange, hoffset]

section
variable {a : Actor} {q r : Nat} {v : Word} {s : State}

theorem writeQueue_staging (hr : r < 0x20) : writeQueue a (q * 0x40 + r) v s = writeDesc a q (r / 4) v s := by
  have hq : (q * 0x40 + r) / 0x40 = q := by omega
  have hoff : (q * 0x40 + r) % 0x40 = r := by omega
  simp only [writeQueue, hq, hoff, if_pos hr]

theorem writeQueue_ctrl : writeQueue a (q * 0x40 + 0x38) v s = writeQCtrl a q v s := by
  have hq : (q * 0x40 + 0x38) / 0x40 = q := by omega
  have hoff : (q * 0x40 + 0x38) % 0x40 = 0x38 := by omega
  simp only [writeQueue, hq, hoff]
  rfl

theorem stagingOf_of_own (h : a.master < 6 ∨ a.master = 8) :
    stagingOf a.master = some (if a.master = 8 then 6 else a.master) := by
  obtain hlow | hcore := h
  · have hne : a.master ≠ 8 := by omega
    simp [stagingOf, hlow, hne]
  · simp [stagingOf, hcore]

theorem stagingOf_of_other (h : ¬ (a.master < 6 ∨ a.master = 8)) : stagingOf a.master = none := by
  obtain ⟨hlow, hcore⟩ := not_or.mp h
  simp [stagingOf, hlow, hcore]

theorem writeDesc_last {m : Nat} (hm : stagingOf a.master = some m) :
    writeDesc a q 7 v s =
      (let staged := modQueue q (fun x => { x with staging := upd x.staging m (fun d => put d 7 v) }) s
       let sent := submitJob a q (Desc.ofWords (nth (nth staged.fabric.queues q).staging m).toList) [] none false staged
       if queueShut s a.master q = true then queueAccess a (0x6000 + q * 0x40 + 0x1C) sent else sent, .done) := by
  simp [writeDesc, hm]

theorem writeDesc_other {k : Nat} (hm : stagingOf a.master = none) : writeDesc a q k v s = (s, .refusedPolicy) := by
  simp [writeDesc, hm]

theorem writeQCtrl_may {notify : Bool} (hmay : maySubmit s a q = true) (hnotify : bit 0 v.toNat = notify)
    (hclear : bit 1 v.toNat = true) :
    writeQCtrl a q v s = (modQueue q (fun x => { x with notifyEn := notify, overrun := false }) s, .done) := by
  simp [writeQCtrl, hmay, hnotify, hclear]

theorem writeQCtrl_mayNot (hmay : maySubmit s a q = false) :
    writeQCtrl a q v s = (queueAccess a (0x6000 + q * 0x40 + 0x38) s, .refusedPolicy) := by
  simp [writeQCtrl, hmay]

end

/-- The fields of Q_CTRL as OVERRUN_CLR spells them. -/
theorem qCtrl_fields (notify : Bool) :
    bit 0 (BitVec.ofNat 32 (b2n notify + 2)).toNat = notify ∧ bit 1 (BitVec.ofNat 32 (b2n notify + 2)).toNat = true := by
  cases notify
  · exact ⟨rfl, rfl⟩
  · exact ⟨rfl, rfl⟩

section
variable {s : State} {w : WriteCtx} {q : Nat} (hq : q < 64)
include hq

theorem execJobSubmit_eq {v : Word} {st : Status} {t : State} (hopen : WriteOpen s w (0x6000 + q * 0x40 + 0x1C))
    (heffect : writeDesc (writer s w) q 7 v (portRequest w.master s) = (t, st)) :
    execJobSubmit w q v s = .next (settle (answered st s w (0x6000 + q * 0x40 + 0x1C) t)) :=
  done_of_eq ((if_pos hq).trans (writeAccess_eq hopen (place_queue hq (by decide) rfl) nofun
    ((writeQueue_staging (by decide)).trans heffect)))

theorem execQueueOverrunClear_eq {notify : Bool} {st : Status} {t : State}
    (hopen : WriteOpen s w (0x6000 + q * 0x40 + 0x38))
    (heffect : writeQCtrl (writer s w) q (BitVec.ofNat 32 (b2n notify + 2)) (portRequest w.master s) = (t, st)) :
    execQueueOverrunClear w q notify s = .next (settle (answered st s w (0x6000 + q * 0x40 + 0x38) t)) :=
  done_of_eq ((if_pos hq).trans (writeAccess_eq hopen (place_queue hq (by decide) rfl) nofun
    (writeQueue_ctrl.trans heffect)))

end

/-! ### GRAN_CTRL (R573) -/

/-- What GRAN_CTRL shows of a command: its number, the granule where it gives one, and its result. -/
def granShown (m cmd : Nat) (given : Option Nat) (st : Status) (t : State) : State :=
  modPorts (fun p => { p with granCtl := upd p.granCtl m fun c => (cmd, given.getD c.2.1, st.code) }) t

section
variable {s t : State} {a : Actor} {v : Word} {g : Nat} (hport : isPort a.master = true)
include hport

theorem writeGranCtrl_alloc {cmd cls : Nat} (hcmd : bits 1 0 v.toNat = cmd) (hcls : (cmd = 1 ∧ cls = 2) ∨ (cmd = 2 ∧ cls = 3))
    (hgiven : portAlloc cls a s = (t, some g)) :
    writeGranCtrl a v s = (granShown a.master cmd (some g) .done t, .done) := by
  obtain ⟨rfl, rfl⟩ | ⟨rfl, rfl⟩ := hcls
  · simp [writeGranCtrl, hport, hcmd, granCommand, hgiven, granShown]
  · simp [writeGranCtrl, hport, hcmd, granCommand, hgiven, granShown]

theorem writeGranCtrl_full {cmd cls : Nat} (hcmd : bits 1 0 v.toNat = cmd) (hcls : (cmd = 1 ∧ cls = 2) ∨ (cmd = 2 ∧ cls = 3))
    (hfull : portAlloc cls a s = (t, none)) :
    writeGranCtrl a v s = (granShown a.master cmd (some 0xFF) .refusedCapacity t, .done) := by
  obtain ⟨rfl, rfl⟩ | ⟨rfl, rfl⟩ := hcls
  · simp [writeGranCtrl, hport, hcmd, granCommand, hfull, granShown]
  · simp [writeGranCtrl, hport, hcmd, granCommand, hfull, granShown]

theorem writeGranCtrl_free (hcmd : bits 1 0 v.toNat = 3) (hgran : bits 15 8 v.toNat = g)
    (hown : (portGrans s a.master).contains g = true) :
    writeGranCtrl a v s = (granShown a.master 3 none .done (dropPortGran g s), .done) := by
  simp only [writeGranCtrl, hport, hcmd, hgran, granCommand, hown]
  rfl

theorem writeGranCtrl_other (hcmd : bits 1 0 v.toNat = 3) (hgran : bits 15 8 v.toNat = g)
    (hown : (portGrans s a.master).contains g = false) :
    writeGranCtrl a v s = (granShown a.master 3 none .refusedPolicy s, .done) := by
  simp only [writeGranCtrl, hport, hcmd, hgran, granCommand, hown]
  rfl

end

/-- The fields of GRAN_CTRL as GRAN_FREE spells them. -/
theorem granFree_fields {g : Nat} (hg : g < 256) :
    bits 1 0 (BitVec.ofNat 32 (3 + g % 256 * 2 ^ 8)).toNat = 3
    ∧ bits 15 8 (BitVec.ofNat 32 (3 + g % 256 * 2 ^ 8)).toNat = g := by
  simp only [bits, BitVec.toNat_ofNat]
  omega

theorem granCtrl_eq {s t : State} {w : WriteCtx} {v : Word} {st : Status} (hopen : WriteOpen s w 0x30030)
    (heffect : writeGranCtrl (writer s w) v (portRequest w.master s) = (t, st)) :
    writeAccess {} w 0x30030 v s = answered st s w 0x30030 t :=
  writeAccess_eq hopen rfl nofun heffect

/-- Settles O28: each word's place names its queue or GRAN_CTRL, and its fields the command. -/
theorem queueAndGranuleWrites : Obligations.QueueAndGranuleWrites := by
  refine ⟨fun s w q v notify hq => ⟨fun hopen hown => ?_, fun hopen hother => ?_, fun hopen hmay => ?_, fun hopen hmay => ?_⟩,
    fun s t w g hport => ⟨fun hopen => ⟨fun h => ?_, fun h => ?_, fun h => ?_, fun h => ?_, fun hg h => ?_, fun hg h => ?_⟩,
    fun hruns hshut hidle => ?_⟩⟩
  · exact execJobSubmit_eq hq hopen (writeDesc_last (stagingOf_of_own hown))
  · exact execJobSubmit_eq hq hopen (writeDesc_other (stagingOf_of_other hother))
  · obtain ⟨hnotify, hclear⟩ := qCtrl_fields notify
    exact execQueueOverrunClear_eq hq hopen (writeQCtrl_may hmay hnotify hclear)
  · exact execQueueOverrunClear_eq hq hopen (writeQCtrl_mayNot hmay)
  · exact done_of_eq (granCtrl_eq hopen (writeGranCtrl_alloc hport rfl (.inl ⟨rfl, rfl⟩) h))
  · exact done_of_eq (granCtrl_eq hopen (writeGranCtrl_full hport rfl (.inl ⟨rfl, rfl⟩) h))
  · exact done_of_eq (granCtrl_eq hopen (writeGranCtrl_alloc hport rfl (.inr ⟨rfl, rfl⟩) h))
  · exact done_of_eq (granCtrl_eq hopen (writeGranCtrl_full hport rfl (.inr ⟨rfl, rfl⟩) h))
  · obtain ⟨hcmd, hgran⟩ := granFree_fields hg
    exact done_of_eq (granCtrl_eq hopen (writeGranCtrl_free hport hcmd hgran h))
  · obtain ⟨hcmd, hgran⟩ := granFree_fields hg
    exact done_of_eq (granCtrl_eq hopen (writeGranCtrl_other hport hcmd hgran h))
  · exact done_of_eq (if_pos (by simp [hport, hruns, hshut, hidle]))

/-! ### The fault windows (R516, R518, R539) -/

theorem place_status (b : Block) : place (b.base + 0xF00) = .block b 0xF00 := by
  cases b <;> rfl

theorem place_force (b : Block) : place (b.base + 0xF08) = .block b 0xF08 := by
  cases b <;> rfl

/-- A mask of sources is the low half of the word written. -/
theorem mask_toNat (mask : Half) : (BitVec.ofNat 32 mask.toNat : Word).toNat = mask.toNat := by
  have hmask := mask.isLt
  rw [BitVec.toNat_ofNat]
  omega

/-- The sources of a block that a mask names. -/
def namedSources (b : Block) (mask : Half) : List Nat :=
  (List.range b.sources.length).filter fun i => mask.toNat.testBit i

/-- A force on a sealed chip names a source of class D that is not raised yet (R518). -/
def forceBarred (b : Block) (mask : Half) (s : State) : Prop :=
  isSealed s = true ∧ ∃ i ∈ namedSources b mask, isRaised s ⟨b, i⟩ = false ∧ classOf s ⟨b, i⟩ = 3

section
variable {s : State} {a : Actor} {b : Block} {mask : Half} {real : Nat}

theorem forceBarred_iff :
    (isSealed s && (namedSources b mask).any fun i => !isRaised s ⟨b, i⟩ && classOf s ⟨b, i⟩ == 3) = true
      ↔ forceBarred b mask s := by
  simp [forceBarred, List.any_eq_true]

theorem writeForce_open (h : ¬ forceBarred b mask s) :
    writeForce a b real (BitVec.ofNat 32 mask.toNat) s =
      (((namedSources b mask).filter fun i => !real.testBit i).foldl (fun t i =>
        raiseBy ⟨b, i⟩ ⟨a.master, 0xE, b.base + 0xF08⟩ t) s, .done) := by
  rw [writeForce, mask_toNat]
  exact if_neg (mt forceBarred_iff.mp h)

theorem writeForce_barred (h : forceBarred b mask s) :
    writeForce a b real (BitVec.ofNat 32 mask.toNat) s = (s, .refusedPolicy) := by
  rw [writeForce, mask_toNat]
  exact if_pos (forceBarred_iff.mpr h)

theorem writeWindow_status :
    writeWindow a b 0xF00 real (BitVec.ofNat 32 mask.toNat) s = (clearStatus b mask.toNat s, .done) := by
  rw [writeWindow, mask_toNat]

end

/-- Settles O29: FAULT_STATUS and FAULT_FORCE of a block are words of its window. -/
theorem faultWindowWrites : Obligations.FaultWindowWrites := by
  refine fun s w b mask real => ⟨fun hopen => ?_, fun hopen hfree => ?_, fun hopen hbarred => ?_⟩
  · exact done_of_eq (writeAccess_eq hopen (place_status b) nofun (writeWindow_status (a := writer s w) (real := 0)))
  · exact done_of_eq (writeAccess_eq hopen (place_force b) nofun (writeForce_open hfree))
  · exact done_of_eq (writeAccess_eq hopen (place_force b) nofun (writeForce_barred hbarred))

/-! ### Reads with an effect (R18, R292, R571) -/

/-- A frame that nothing stops reads its words. -/
theorem readAccess_of_open {s : State} {master addr : Nat} (hon : s.lintel.mainOn = true)
    (hstop : frameStop (portRequest master s) master (roleOf s master) (frameAddrs addr 1) false = none) :
    readAccess master addr s = (readWords master (roleOf s master) (frameAddrs addr 1) (portRequest master s)).1 := by
  simp only [readAccess, hon, if_true, readFrame, hstop]

/-- Settles O30: each read is served as its frame, and RESET_CAUSE is a word that its read clears. -/
theorem readEffects : Obligations.ReadEffects := by
  refine fun s q master addr hon => ⟨fun hstop => ?_, fun hq hstop => ?_, fun hport hother hstop => ?_⟩
  · exact ⟨_, done_of_eq (readAccess_of_open hon hstop), rfl, rfl, rfl, rfl⟩
  · exact done_of_eq ((if_pos hq).trans (readAccess_of_open hon hstop))
  · exact done_of_eq ((if_pos (by simp [hport, hother])).trans (readAccess_of_open hon hstop))

end Sys2Proof.Machine

/-! SUPPORT. The fabric and the Mason core (chapter 3): waiting jobs, dispatch, the ends of a job, triggers, the scrubber and
recipes. -/

namespace Sys2Proof.Machine

/-! ### Waiting jobs (R116 to R119, R135) -/

section
variable {s t : State} {j : Job} {l : List Job} {fuel : Nat}

theorem execWaitingAdmission_of_running (hrun : s.boot.running = true) (hgrave : s.faults.grave = false) :
    execWaitingAdmission s = .next (settle (admitFirst 64 (fifoHeads (takeStalled s)) (takeStalled s)).1) :=
  done_of_eq (if_neg (by simp [hrun, hgrave]))

theorem admitFirst_of_none (hfirst : firstBy (waitsBefore s) l = none) : admitFirst (fuel + 1) l s = (s, false) := by
  simp [admitFirst, hfirst]

theorem admitJob_of_admitted
    (h : tryAdmit j.id (if classOfQueue j.queue = 0 then evictFor 9 j.id s else s) = some t) : admitJob j s = (t, true) := by
  simp [admitJob, h]

theorem admitFirst_of_admitted (hfirst : firstBy (waitsBefore s) l = some j) (hadmit : admitJob j s = (t, true)) :
    admitFirst (fuel + 1) l s = (t, true) := by
  simp [admitFirst, hfirst, hadmit]
end

/-- Settles O31. -/
theorem waitingJobs : Obligations.WaitingJobs := by
  intro s t j r q seq
  refine ⟨fun hrun hgrave => ?_, fun hfind => ?_, fun hfind hrun hgrave => ?_⟩
  · have hexec := execWaitingAdmission_of_running hrun hgrave
    refine ⟨hexec, fun hfirst => hexec.trans ?_, fun hfirst hadmit => hexec.trans ?_⟩
    · rw [admitFirst_of_none hfirst]
    · rw [admitFirst_of_admitted hfirst (admitJob_of_admitted hadmit)]
  · exact done_of_eq (by rw [hfind])
  · exact done_of_eq (by rw [hfind]; exact if_pos (by simp [hrun, hgrave]))

/-! ### Dispatch (R109, R120, R121, R132) -/

/-- A CONSENT_SIGN of the maker over consent 1, ready for its engine, with its input in granule 0. -/
def signJob : Job := {
  id := 1, tag := some 5, queue := 32, actor := ⟨1, 3⟩, phase := .ready
  desc := { engine := 13, opcode := 0x14, args := [1, 0, 0, 0], inHeads := [0, 0xFF, 0xFF, 0xFF] } }

/-- A chip whose one job is `signJob`, over a consent that the operator has proposed: its input holds one item, a digest and
a base of zeros, and their token under a maker key of zeros. -/
def signReady : State := { State.reset with
  lintel := { vbatOk := true, vioOk := true, mainOn := true, vbatMv := 3600, retlost := false }
  boot := { running := true, stage := 9 }
  roles := { consents := #v[{ state := .proposed, proposer := 1, items := 1, ref := 1, until_ := 1 }, {}, {}, {}] }
  keys := { slots := put (Vector.replicate 24 {}) 3 {
    full := true, attr := { use := 0x48, role := 3 }, key := List.replicate 16 0 } }
  sram := (0, 1) :: ([203, 108, 110, 229, 185, 120, 152, 145] : List Byte).zipIdx.map fun x => (22 + x.2, x.1)
  fabric := { jobs := [signJob] } }

/-- The kind of the lock that a command leaves held. -/
def lockAfter (o : Host.Outcome State Fault Refusal) : Option LockKind :=
  match o with
  | .next t => t.mason.lock.map (·.1)
  | _ => none

theorem nextJob_signReady : nextJob signReady 13 = some signJob := by decide +kernel

theorem engineFree_signReady : engineFree signReady 13 = true := by decide +kernel

theorem lockAfter_signReady : lockAfter (exec (.jobDispatch 13 0 {}) signReady) = some .consentCommit := by
  decide +kernel

/-- Refutes O32: the dispatch of a CONSENT_SIGN whose countersign is valid takes the consent's lock as well (R132), which the
statement's effect of a dispatch leaves free. -/
theorem not_dispatch : ¬ Obligations.Dispatch := by
  intro h
  obtain ⟨-, hbegun, -⟩ := h signReady signJob 13 0 {} rfl rfl nextJob_signReady
  have hlock := lockAfter_signReady
  rw [hbegun engineFree_signReady (by decide +kernel) (by decide +kernel)] at hlock
  exact absurd hlock (by decide +kernel)

/-! ### The ends of a job (R109, R111, R115, R139) -/

section
variable {s : State} {j : Job} {r : JobResult} {tag n : Nat} {c : Charge}

theorem execJobCompletion_of_ended (htag : jobByTag s tag = some j) (hphase : j.phase = .ended r) :
    execJobCompletion tag c s = done (
      if watchdogRan s j then timeOutJob j (takeCharge c s)
      else completeJob j.id r (
        if j.desc.engine = 6 && j.desc.opcode = 1 && r.status.ok then publishTemp j (takeCharge c s)
        else if j.desc.engine = 15 && j.desc.opcode = 1 && r.status.ok then pendRender r (takeCharge c s)
        else if j.desc.engine = 8 && j.desc.opcode = 1 && r.status.ok then snapshotDone j r (takeCharge c s)
        else takeCharge c s)) := by
  simp only [execJobCompletion, htag, hphase]

theorem execJobWatchdogExpiry_of_late (htag : jobByTag s tag = some j) (hon : j.onIt = true)
    (hlate : watchdogRan s j = true) : execJobWatchdogExpiry tag s = done (timeOutJob j s) := by
  simp [execJobWatchdogExpiry, htag, hon, hlate]

theorem execHeldJobTimeout_of_held (htag : jobByTag s tag = some j) (hphase : j.phase = .held n)
    (hlate : passed s j.admittedAt (4 * watchdogTicks (classOfQueue j.queue)) = true) :
    execHeldJobTimeout tag s = done (completeJob j.id { status := .timeout } s) := by
  simp [execHeldJobTimeout, htag, hphase, hlate]
end

/-- Settles O33. -/
theorem jobEnds : Obligations.JobEnds := by
  intro s j r tag n c htag
  refine ⟨fun hphase hinTime => ?_, fun hphase hlate => ?_, fun hon hlate => ?_, fun hphase hlate => ?_⟩
  · refine (execJobCompletion_of_ended htag hphase).trans (done_of_eq ((if_neg hinTime).trans ?_))
    congr 1
    exact ite_eq_of_iff (by simp [and_assoc]) rfl (ite_eq_of_iff (by simp [and_assoc]) rfl (ite_eq_of_iff (by simp [and_assoc]) rfl rfl))
  · exact (execJobCompletion_of_ended htag hphase).trans (done_of_eq (if_pos hlate))
  · exact execJobWatchdogExpiry_of_late htag hon hlate
  · exact execHeldJobTimeout_of_held htag hphase hlate

/-! ### The scrubber (R127) -/

/-- A cleared range reads as an unlisted address does. -/
theorem Mem.get_clear_in {d : Byte} {m : Mem} {a k b : Nat} (hlow : a ≤ b) (hhigh : b < a + k) :
    Mem.get d (Mem.clear m a k) b = d := by
  induction m with
  | nil => rfl
  | cons c rest ih =>
    by_cases hc : c.1 < a ∨ a + k ≤ c.1
    · have hne : b ≠ c.1 := by omega
      simpa [Mem.clear, List.filter_cons, hc, Mem.get, hne] using ih
    · simpa [Mem.clear, List.filter_cons, hc] using ih

/-- A clear leaves what lies outside its range. -/
theorem Mem.get_clear_out {d : Byte} {m : Mem} {a k b : Nat} (hout : b < a ∨ a + k ≤ b) :
    Mem.get d (Mem.clear m a k) b = Mem.get d m b := by
  induction m with
  | nil => rfl
  | cons c rest ih =>
    by_cases hc : c.1 < a ∨ a + k ≤ c.1
    · have hstay : Mem.clear (c :: rest) a k = c :: Mem.clear rest a k := by simp [Mem.clear, hc]
      rw [hstay, Mem.get, Mem.get, ih]
    · have hgone : Mem.clear (c :: rest) a k = Mem.clear rest a k := by simp [Mem.clear, hc]
      have hne : b ≠ c.1 := by omega
      rw [hgone, ih, Mem.get, if_neg hne]

/-- The bytes of a granule that do not read zero, written back over it. -/
def stuckBytes (g : Nat) (bad : List (Nat × Byte)) (m : Mem) : Mem := bad.foldl (fun m x => m.set 0 (g * 512 + x.1) x.2) m

/-- Stuck bytes of a granule lie in it. -/
theorem get_stuckBytes_out {g a : Nat} {bad : List (Nat × Byte)} (hin : ∀ x ∈ bad, x.1 < 512)
    (hout : a < g * 512 ∨ g * 512 + 512 ≤ a) (m : Mem) : (stuckBytes g bad m).get 0 a = m.get 0 a := by
  induction bad generalizing m with
  | nil => rfl
  | cons x rest ih =>
    have hx := hin x List.mem_cons_self
    have hrest := ih (fun y hy => hin y (List.mem_cons_of_mem x hy)) (m.set 0 (g * 512 + x.1) x.2)
    exact hrest.trans (Mem.get_set_ne m (by omega))

/-- A granule that the scrubber has zeroed and read back, `bad` the bytes that do not read zero. -/
def scrubbed (g : Nat) (bad : List (Nat × Byte)) (s : State) : State :=
  modGran g (fun x => { x with scrubbing := false, secret := false, retired := !bad.isEmpty })
    { s with sram := stuckBytes g bad (Mem.clear s.sram (g * 512) 512) }

section
variable {s : State} {g : Nat} {stuck bad : List (Nat × Byte)}

/-- The bytes of a granule that do not read zero, of those that are stuck. -/
def badBytes (stuck : List (Nat × Byte)) : List (Nat × Byte) := stuck.filter fun x => decide (x.1 < 512) && x.2 != 0

theorem execGranuleZeroed_of_scrubbing (hg : g < 192) (hscrub : (nth s.fabric.grans g).scrubbing = true) :
    execGranuleZeroed g stuck s =
      .next (settle (raiseIf (!(badBytes stuck).isEmpty) Src.scrubFail (scrubbed g (badBytes stuck) s))) :=
  done_of_eq (if_pos (by simp [hg, hscrub]))

theorem nth_grans_scrubbed (hg : g < 192) : nth (scrubbed g bad s).fabric.grans g =
    { nth s.fabric.grans g with scrubbing := false, secret := false, retired := !bad.isEmpty } :=
  nth_upd_same _ _ _ hg

theorem sram_scrubbed_out (hin : ∀ x ∈ bad, x.1 < 512) {a : Nat} (hout : a < g * 512 ∨ g * 512 + 512 ≤ a) :
    (scrubbed g bad s).sram.get 0 a = s.sram.get 0 a :=
  (get_stuckBytes_out hin hout _).trans (Mem.get_clear_out hout)

theorem badBytes_lt {x : Nat × Byte} (h : x ∈ badBytes stuck) : x.1 < 512 := by
  simp only [badBytes, List.mem_filter, Bool.and_eq_true, decide_eq_true_eq] at h
  exact h.2.1

theorem badBytes_eq_nil (h : ∀ x ∈ stuck, x.1 < 512 → x.2 = 0) : badBytes stuck = [] := by
  simpa [badBytes, List.filter_eq_nil_iff] using h

theorem badBytes_isEmpty (h : ∃ x ∈ stuck, x.1 < 512 ∧ x.2 ≠ 0) : (badBytes stuck).isEmpty = false := by
  obtain ⟨x, hmem, hlt, hne⟩ := h
  rw [List.isEmpty_eq_false_iff_exists_mem]
  exact ⟨x, List.mem_filter.mpr ⟨hmem, by simpa [hlt] using hne⟩⟩
end

/-! ### Triggers and Mason events (R110, R131, R140, R619) -/

/-- Settles O34. -/
theorem triggersAndScrubber : Obligations.TriggersAndScrubber := by
  refine ⟨fun s n i e => ⟨?_, ?_, ?_⟩, fun s g stuck hg hscrub => ⟨fun hclean => ?_, fun hbad => ?_⟩⟩
  · intro hn hrun hgrave hperiod hcounted hstalled hheld
    exact done_of_eq (if_pos (by simp [hn, hrun, hgrave, hperiod, hcounted, hstalled, hheld]))
  · intro hn hdue hrun
    exact done_of_eq (if_pos (by simp [hn, hdue, hrun]))
  · intro hentry hkind harg hrun hcounted
    exact done_of_eq (by rw [hentry]; exact if_pos (by simp [hkind, harg, hrun, hcounted]))
  · have hexec := execGranuleZeroed_of_scrubbing (stuck := stuck) hg hscrub
    rw [badBytes_eq_nil hclean] at hexec
    have hgran := nth_grans_scrubbed (s := s) (bad := []) hg
    refine ⟨scrubbed g [] s, hexec, fun k hk => ?_, ?_, ?_, ?_, fun a ha => ?_⟩
    · exact Mem.get_clear_in (Nat.le_add_right ..) (by omega)
    · rw [hgran]
    · rw [hgran]
    · rw [hgran]; rfl
    · exact sram_scrubbed_out (by simp) ha
  · have hexec := execGranuleZeroed_of_scrubbing (stuck := stuck) hg hscrub
    rw [raiseIf, badBytes_isEmpty hbad] at hexec
    refine ⟨scrubbed g (badBytes stuck) s, hexec, ?_, fun a ha => sram_scrubbed_out (fun _ => badBytes_lt) ha⟩
    rw [nth_grans_scrubbed hg, badBytes_isEmpty hbad]
    rfl

/-! ### Recipes (R110, R124, R131, R132, R620, R621) -/

section
variable {s : State} {i : Nat} {is : Option MStep → Bool} {rivals : List (Nat × Nat)} {o : WriteObs} {m : Option MStep}

/-- A step of the commanded kind, in a context that may take one, is run. -/
theorem stepIf_of_step (hsteps : ctxMaySteps s i = true) (hhalt : notHalted s i = true)
    (hstep : stepAt s (nth s.mason.ctxs i) = m) (his : is m = true) : stepIf i is rivals o s = runStep i rivals o s :=
  if_pos (by simp [hsteps, hhalt, hstep, his])
end

theorem execRecipeStart_of_free {s : State} {i : Nat} {e : TrigEntry} (hfree : coreFree s = true)
    (hctx : freeContext s = some i) (hentry : nextEntry s = some e) :
    execRecipeStart s = done (modMCtx i (fun _ => { busy := true, kind := e.kind, recipe := e.recipe })
      (modMason (fun m => { m with fifo := m.fifo.erase e }) s)) := by
  simp [execRecipeStart, hfree, hctx, hentry]

theorem stepLockTake_eq {s : State} {i : Nat} {k : LockKind} : stepLockTake i k s =
    if s.mason.lock = none ∧ monthlyFirst i k s = false then modMason (fun m => { m with lock := some (k, s.time.ticks) })
      (modMCtx i (fun c => { c with pc := c.pc + 1, lock := some k }) s)
    else s := by
  rw [stepLockTake]
  cases hlock : s.mason.lock with
  | none => cases hmonth : monthlyFirst i k s <;> simp
  | some l => simp

/-! ### The bound of locked sequences (R52, R132, R349) -/

section
variable {s : State} {f : FlashObs} {k : LockKind} {since tag : Nat} {j : Job}

/-- The reseat's lock has the reseat's bound, another's has that of a recipe. -/
theorem execLockOverrun_held_of_lock (hlock : s.mason.lock = some (k, since))
    (hlate : (if k = .reseat then !reseatInTime s else passed s since (msTicks 5)) = true) :
    execLockOverrun f .held s = done (
      if reseatLocked s && reseatInTime s then raise Src.lockOverrun (abortLoads (modBoot (fun b =>
        { b with reload := b.reload.filter fun n => !(nth s.keys.slots n).loading }) s))
      else match cutLocked .held f .timeout .timeout s with
        | some t => raise Src.lockOverrun (journalResume (resumeSlots t))
        | none => s) := by
  unfold execLockOverrun
  dsimp only
  rw [hlock]
  cases k <;> exact congrArg done (if_neg (by simpa using hlate))

theorem cutLocked_held_of_recipe {st after : Status} (hlock : s.mason.lock = some (k, since))
    (hreseat : reseatLocked s = false) (hown : ownLock s .journalCommit = false) :
    cutLocked .held f st after s = some (endLockHolder (rollbackRecipeLock st s)) := by
  simp [cutLocked, hlock, hreseat, hown]

theorem cutLocked_held_of_journal {st after : Status} (hlock : s.mason.lock = some (k, since))
    (hreseat : reseatLocked s = false) (hown : ownLock s .journalCommit = true) :
    cutLocked .held f st after s = some (journalUnlock (journalRollback f st s)) := by
  simp [cutLocked, hlock, hreseat, hown]

theorem cutLocked_held_of_reseat {st after : Status} (hreseat : reseatLocked s = true) :
    cutLocked .held f st after s = some (reseatCut st after f s) := by
  simp [cutLocked, hreseat]

theorem execLockOverrun_consent (hlock : s.mason.lock = some (.consentCommit, since))
    (hown : ownLock s .consentCommit = true) (hlate : passed s since (msTicks 5) = true)
    (hjob : runningJob s tag 13 0x14 = some j) :
    execLockOverrun f (.consent tag) s = done (
      let x := ConsentIn.ofBytes (inputBytes s j 0)
      raise Src.lockOverrun (journalResume (resumeSlots (engineEnds j.id { status := .timeout }
        (auditConsent 8 j.actor (j.desc.arg 0) x.items x.digest .timeout (unlockAs .consentCommit s)))))) := by
  unfold execLockOverrun
  dsimp only
  rw [hlock, cutLocked, hown, hjob]
  exact congrArg done (if_neg (by simpa using hlate))
end

/-- Settles O35. -/
theorem recipes : Obligations.Recipes := by
  refine ⟨fun s e i tpl q st skip addr k v rivals o => ⟨?_, fun hsteps hhalt => ?_⟩,
    fun s f k since tag j => ⟨?_, ?_, ?_, ?_, ?_⟩⟩
  · exact execRecipeStart_of_free
  · refine ⟨fun hstep => ?_, fun hstep => ?_, fun hstep => ?_, fun hstep => ?_, fun hstep => ?_, fun hstep => ?_, ?_⟩
    · exact done_of_eq ((stepIf_of_step hsteps hhalt hstep rfl).trans (by rw [runStep, hstep]; rfl))
    · exact done_of_eq ((stepIf_of_step hsteps hhalt hstep rfl).trans (by rw [runStep, hstep]; rfl))
    · exact done_of_eq ((stepIf_of_step hsteps hhalt hstep rfl).trans (by rw [runStep, hstep]; rfl))
    · exact done_of_eq ((stepIf_of_step hsteps hhalt hstep rfl).trans (by rw [runStep, hstep]; exact stepLockTake_eq))
    · exact done_of_eq ((stepIf_of_step hsteps hhalt hstep rfl).trans (by rw [runStep, hstep]; rfl))
    · exact done_of_eq ((stepIf_of_step hsteps hhalt hstep rfl).trans (by rw [runStep, hstep]; rfl))
    · rintro (hstep | hstep)
      · exact done_of_eq ((stepIf_of_step hsteps hhalt hstep rfl).trans (by rw [runStep, hstep]; rfl))
      · exact done_of_eq ((stepIf_of_step hsteps hhalt hstep rfl).trans (by rw [runStep, hstep]; rfl))
  · intro hlock hown hk hlate hreseat
    refine (execLockOverrun_held_of_lock hlock (by rw [if_neg hk, hlate])).trans ?_
    rw [cutLocked_held_of_recipe hlock hreseat hown, hreseat]
    exact done_of_eq (if_neg (by simp))
  · intro hlock hown hlate hreseat
    refine (execLockOverrun_held_of_lock hlock (by simpa using hlate)).trans ?_
    rw [cutLocked_held_of_journal hlock hreseat hown, hreseat]
    exact done_of_eq (if_neg (by simp))
  · intro hlock hreseat hlate
    refine (execLockOverrun_held_of_lock hlock (by simp [hlate])).trans ?_
    rw [cutLocked_held_of_reseat hreseat, hlate]
    exact done_of_eq (if_neg (by simp))
  · intro hlock hk hlate hreseat hinTime
    refine (execLockOverrun_held_of_lock hlock (by rw [if_neg hk, hlate])).trans ?_
    rw [hreseat, hinTime]
    exact done_of_eq (if_pos rfl)
  · exact execLockOverrun_consent

/-! ### A halt and a freeze (R585, R588) -/

/-- The first of a list by an order is one of its members. -/
theorem mem_of_firstBy {before : Job → Job → Bool} {l : List Job} {j : Job} (h : firstBy before l = some j) : j ∈ l := by
  have hfold : ∀ (l : List Job) (m : Option Job), l.foldl (fun (m : Option Job) j => match m with
      | none => some j
      | some x => if before j x then some j else some x) m = some j → j ∈ l ∨ m = some j := by
    intro l
    induction l with
    | nil => exact fun m hm => .inr hm
    | cons x rest ih =>
      intro m hm
      obtain hrest | hx := ih _ hm
      · exact .inl (List.mem_cons_of_mem x hrest)
      · cases m with
        | none =>
          cases hx
          exact .inl List.mem_cons_self
        | some y =>
          dsimp only at hx
          split at hx
          · cases hx
            exact .inl List.mem_cons_self
          · exact .inr hx
  obtain hmem | hnone := hfold l none h
  · exact hmem
  · cases hnone

theorem class_of_mayDispatch {s : State} {j : Job} (hfrozen : s.fabric.frozen.isSome = true)
    (hmay : mayDispatch s j = true) : classOfQueue j.queue < 2 := by
  obtain ⟨t, ht⟩ := Option.isSome_iff_exists.mp hfrozen
  simp only [mayDispatch, ht, Bool.and_eq_true, Option.isNone_some, Bool.false_and, Bool.false_or, decide_eq_true_eq] at hmay
  obtain ⟨⟨⟨⟨-, hclass⟩, -⟩, -⟩, -⟩ := hmay
  exact hclass

theorem coreFree_of_halt {s : State} (h : s.mason.halted = true ∨ s.probe.haltPending = true) : coreFree s = false := by
  obtain h | h := h <;> simp [coreFree, h]

/-- Settles O60. -/
theorem haltAndFreezeHold : Obligations.HaltAndFreezeHold := by
  intro s n j
  refine ⟨fun hhalt => done_of_eq (if_pos (by rw [coreFree_of_halt hhalt]; rfl)), fun hfrozen hnext => ?_⟩
  have hmem := mem_of_firstBy hnext
  simp only [List.mem_filter, Bool.and_eq_true] at hmem
  obtain ⟨-, -, hmay⟩ := hmem
  exact class_of_mayDispatch hfrozen hmay

end Sys2Proof.Machine

/-! SUPPORT. Staging, the reseat's requests and the journal (chapters 1 and 10). -/

namespace Sys2Proof.Machine

/-! ### The running job of a tag -/

theorem onJob_of_running {s : State} {tag engine op : Nat} {f : Job → State → State} {j : Job}
    (h : runningJob s tag engine op = some j) : onJob tag engine op f s = f j s := by
  rw [onJob, h]

/-! ### Staging (R47, R48, R60) -/

section
variable {s : State} {j : Job} {mv : Nat}

/-- A staging or a reseat that waits holds a STAGE back. -/
theorem held_iff : ¬ (stagingNow s = true ∨ s.boot.reseatWait.isSome = true) ↔
    (stagingNow s || s.boot.reseatWait.isSome) = false := by
  simp

theorem stageBegin_eq (mv : Nat) (j : Job) (s : State) : stageBegin j mv s =
    (let v := takeVbat mv s
     let am := readAmend v j
     if (winOf v .journal).fenced = true then stageFails j am .fenced 0 v
     else if strictRefused v = true then stageFails j am .refusedPolicy 0 v
     else match stageCheck v j am with
       | .error (st, r) => stageFails j am st r (if st = .refusedPolicy then lapseConsent am v else v)
       | .ok img => if flashVbatOk v = true then stageWrite j am img v else stageFails j am .brownout 0 v) := by
  rw [stageBegin]
  dsimp only
  cases stageCheck (takeVbat mv s) j (readAmend (takeVbat mv s) j) with
  | error e => rfl
  | ok img => cases flashVbatOk (takeVbat mv s) <;> rfl

theorem stageJob_eq (hdeferred : Deferred.stage j.id ∉ s.boot.deferred) (hstaged : stagedJob s ≠ some j.id) :
    stageJob mv j s = if stagingNow s || s.boot.reseatWait.isSome then
      modBoot (fun b => { b with deferred := b.deferred ++ [.stage j.id] }) s else stageBegin j mv s :=
  if_neg (by simp [hdeferred, hstaged])
end

/-! ### What asks for a reseat (R50, R60, R61) -/

section
variable {s : State} {j : Job} {rivals : List Nat} {id : Nat} {a : Actor} {d : Deferred}

theorem reseatJobJob_eq (hdeferred : Deferred.reseatJob j.id ∉ s.boot.deferred)
    (hwaits : s.boot.reseatWait ≠ some (some j.id)) :
    reseatJobJob rivals j s =
      if hasRight s .reseat j.actor.role = false then engineEnds j.id { status := .refusedRole } s
      else if strictRefused s = true then engineEnds j.id { status := .refusedPolicy } s
      else match outranking j.actor.master rivals with
        | some m => engineEnds j.id { status := .conflictLost, winner := m } s
        | none => askReseat (some j.id) j.actor (.reseatJob j.id) s :=
  (if_neg (by simp [hdeferred, hwaits])).trans (ite_eq_of_iff (by simp) rfl rfl)

theorem askReseat_job_of_free (hfree : (stagingNow s || s.boot.reseatWait.isSome) = false) :
    askReseat (some id) a d s = if reseatable s = true then
        modBoot (fun b => { b with reseatWait := some (some id), reseatActor := a }) s
      else engineEnds id { status := .refusedPolicy } (modBoot (fun b =>
        { b with reseatResult := Status.refusedPolicy.code }) s) := by
  obtain ⟨hstaging, hwaits⟩ := Bool.or_eq_false_iff.mp hfree
  rw [askReseat, hstaging, hwaits]
  rfl

theorem askReseat_job_of_staging (hstaging : stagingNow s = true) :
    askReseat (some id) a d s = engineEnds id { status := .deferred } (modBoot (fun b =>
      { b with deferred := b.deferred ++ [.reseatWrite a] }) s) := by
  rw [askReseat, hstaging]
  rfl
end

/-- Settles O36. -/
theorem stagingAndReseat : Obligations.StagingAndReseat := by
  intro s j tag id mv a rivals rest
  refine ⟨fun hrun hdeferred hstaged => ⟨fun hfree => ?_, fun hheld => ?_⟩, fun hrun hdeferred hwaits => ?_,
    fun hpending hset hreached hvalid hdeferred => ?_, fun hfree => ⟨?_, ?_, ?_, ?_⟩, fun hfree => ?_,
    askReseat_job_of_staging⟩
  · refine done_of_eq ((onJob_of_running hrun).trans ((stageJob_eq hdeferred hstaged).trans ?_))
    rw [held_iff.mp hfree]
    exact stageBegin_eq mv j s
  · refine done_of_eq ((onJob_of_running hrun).trans ((stageJob_eq hdeferred hstaged).trans (if_pos ?_)))
    simpa using hheld
  · exact done_of_eq ((onJob_of_running hrun).trans (reseatJobJob_eq hdeferred hwaits))
  · exact done_of_eq (if_pos (by simpa [hpending, hreached, hvalid, hdeferred] using hset))
  · intro hnext hruns
    exact done_of_eq ((if_neg (by simpa using hfree)).trans (by rw [hnext]; dsimp only; rw [hruns]))
  · intro hnext hruns
    exact done_of_eq ((if_neg (by simpa using hfree)).trans (by rw [hnext]; dsimp only; rw [hruns]))
  · exact fun hnext => done_of_eq ((if_neg (by simpa using hfree)).trans (by rw [hnext]))
  · exact fun hnext => done_of_eq ((if_neg (by simpa using hfree)).trans (by rw [hnext]))
  · exact askReseat_job_of_free (held_iff.mp hfree)

/-! ### Writing a page (R345 to R350, Table 10.10) -/

section
variable {s : State} {j : Job} {p : PendingPage} {o : FlashObs} {mv n w a : Nat} {bs : List Byte}

theorem placeStep_of_room (hpend : s.journal.pend = some p) (hsector : s.journal.wsector = some w)
    (hroom : s.journal.wpage < 15) :
    placeStep s = touchFlash (modJournal (fun x =>
      { x with
        op := .program (w * 0x1000 + s.journal.wpage * 256) (p.image.take 0xFA), work := .verify :: x.work
        wpage := x.wpage + 1, pend := some { p with addr := w * 0x1000 + s.journal.wpage * 256 } }) s) := by
  rw [placeStep, hpend, hsector]
  exact if_pos hroom

theorem verifyStep_of_pend (hpend : s.journal.pend = some p) :
    verifyStep s = if flashRead s p.addr 0xFA = p.image.take 0xFA then modJournal (fun x => { x with op := .lock }) s
      else pageFailed p s := by
  rw [verifyStep, hpend]
  exact ite_eq_of_iff beq_iff_eq rfl rfl

theorem runWork_of_may {task : FlashTask} {rest : List FlashTask} {fuel : Nat} (hmay : flashMay s = true)
    (hwork : s.journal.work = task :: rest) :
    runWork (fuel + 1) s = runWork fuel (workStep task (modJournal (fun x => { x with work := rest }) s)) := by
  rw [runWork, hmay, hwork]
  rfl

theorem endOp_of_program (hop : s.journal.op = .program a bs) : endOp o s = freePeak (modJournal (fun x =>
    { x with op := .none, opFail := o.protectedFail || false }) (programFlash o a bs s)) := by
  rw [endOp, hop]

theorem endOp_of_erase (hop : s.journal.op = .erase n) : endOp o s = freePeak (modJournal (fun x =>
    { x with op := .none, opFail := o.protectedFail || o.eraseFail }) (eraseFlash o n s)) := by
  rw [endOp, hop]

theorem execFlashOpReady_of_begun (hpeak : s.lintel.peak ≠ .none) (hvbat : s.journal.waitVbat = false)
    (hown : s.lintel.peak = s.journal.op.peak) (hawake : flashAwake s = true) :
    execFlashOpReady o s = .next (settle (runWork 64 (endOp o s))) :=
  done_of_eq (congrArg (runWork 64) (if_neg (by simp [hvbat, hawake, ← hown, hpeak])))

theorem settleEnd_of_settle (hop : s.journal.op = .settle) (hpend : s.journal.pend = some p)
    (hcounted : counted s s.journal.opAt (upTicks (items s).journal.commitSettleUs) = true) :
    settleEnd mv s =
      (let u := takeVbat mv (touchFlash (drew 1 s))
       if flashRead s (p.addr + 0xFA) 4 = commitWord ∧ flashRead u (p.addr + 0xFA) 4 = commitWord then commitPage p u
       else pageFailed p (journalUnlock (modJournal (fun j => { j with op := .none }) u))) := by
  rw [settleEnd, hop, hpend]
  dsimp only
  exact (if_neg (by simp [hcounted])).trans (ite_eq_of_iff (by simp) rfl rfl)

theorem execBrownoutRewrite_of_pend (hpend : s.journal.pend = some p) (hwaits : p.waitVbat = true)
    (hidle : flashIdle s = true) (hmounted : s.journal.mounted = true) (hfenced : (winOf s .journal).fenced = false)
    (hgrave : s.faults.grave = false) (hvbat : (items s).power.flashMin + 100 < mv)
    (hlong : counted s s.journal.vbatLowAt (msTicks 10) = true) :
    execBrownoutRewrite mv s = .next (settle (modJournal (fun x =>
      { x with work := (if p.addr < s.journal.size then [.void p.addr false, .rewrite true] else [.rewrite true])
                ++ x.work }) (takeVbat mv s))) := by
  refine done_of_eq ?_
  rw [hpend]
  refine (if_pos (by simp [hwaits, hidle, hmounted, hfenced, hgrave, hvbat, hlong])).trans ?_
  split <;> rfl
end

/-- Settles O38. -/
theorem journalWriting : Obligations.JournalWriting := by
  intro s j p o task rest bs tag mv a n w fuel
  refine ⟨fun hrun => ⟨?_, ?_, ?_, ?_⟩, placeStep_of_room, verifyStep_of_pend, runWork_of_may,
    fun hpeak hvbat hown hawake => ⟨fun hop => ?_, fun hop => ?_⟩, fun hop hpend hcounted => ?_,
    execBrownoutRewrite_of_pend⟩
  · intro hactor
    exact done_of_eq ((onJob_of_running hrun).trans (if_pos (by rw [hactor]; rfl)))
  · intro hactor hcount
    exact done_of_eq ((onJob_of_running hrun).trans ((if_neg (by simp [hactor])).trans (if_pos (by rw [hcount]; rfl))))
  · intro hactor hcount hfree
    exact done_of_eq ((onJob_of_running hrun).trans ((if_neg (by simp [hactor])).trans ((if_neg (by simp [hcount])).trans
      (if_pos (by rw [hfree]; rfl)))))
  · intro hactor hcount hfree
    exact done_of_eq ((onJob_of_running hrun).trans ((if_neg (by simp [hactor])).trans ((if_neg (by simp [hcount])).trans
      (if_neg (by simp [hfree])))))
  · exact (execFlashOpReady_of_begun hpeak hvbat hown hawake).trans (by rw [endOp_of_program hop])
  · exact (execFlashOpReady_of_begun hpeak hvbat hown hawake).trans (by rw [endOp_of_erase hop])
  · exact done_of_eq (congrArg (runWork 64) (settleEnd_of_settle hop hpend hcounted))

/-! ### The journal jobs (R337, R353 to R365) -/

section
variable {s : State} {j : Job} {mv ms : Nat}

theorem onFlash_of_awake {f : State → State} (hawake : flashAwake (touchFlash s) = true) : onFlash f s = f (touchFlash s) :=
  if_pos hawake

theorem readJob_of_none (hactor : jobActorOk j.desc j.actor = true)
    (hright : hasRight s (.readJournal (j.desc.arg 0 % 8)) j.actor.role = true) (hmounted : s.journal.mounted = true)
    (hawake : flashAwake (touchFlash s) = true)
    (hwants : readTarget s (j.desc.arg 0 % 8) (bits 9 8 (j.desc.arg 0)) (j.desc.arg 1) = none) :
    readJob j s = engineEnds j.id { status := .doneFlagged, qflags := 1, result := j.desc.arg 1 % 2 ^ 20 } (touchFlash s) := by
  refine (if_neg (by simp [hactor, hright])).trans ((if_neg (by simp [hmounted])).trans ((onFlash_of_awake hawake).trans ?_))
  dsimp only
  rw [hwants]

theorem readJob_of_failed {seq : Nat} {u : State} (hactor : jobActorOk j.desc j.actor = true)
    (hright : hasRight s (.readJournal (j.desc.arg 0 % 8)) j.actor.role = true) (hmounted : s.journal.mounted = true)
    (hawake : flashAwake (touchFlash s) = true)
    (hwants : readTarget s (j.desc.arg 0 % 8) (bits 9 8 (j.desc.arg 0)) (j.desc.arg 1) = some seq)
    (hfetch : fetchPage (j.desc.arg 0 % 8) seq (touchFlash s) = (none, u)) :
    readJob j s = engineEnds j.id { status := .checkFailed, result := seq % 2 ^ 20 } u := by
  refine (if_neg (by simp [hactor, hright])).trans ((if_neg (by simp [hmounted])).trans ((onFlash_of_awake hawake).trans ?_))
  dsimp only
  rw [hwants]
  dsimp only
  rw [hfetch]

theorem readJob_of_page {seq c n : Nat} {page : List Byte} {u : State} (hactor : jobActorOk j.desc j.actor = true)
    (hright : hasRight s (.readJournal (j.desc.arg 0 % 8)) j.actor.role = true) (hmounted : s.journal.mounted = true)
    (hawake : flashAwake (touchFlash s) = true)
    (hwants : readTarget s (j.desc.arg 0 % 8) (bits 9 8 (j.desc.arg 0)) (j.desc.arg 1) = some seq)
    (hfetch : fetchPage (j.desc.arg 0 % 8) seq (touchFlash s) = (some (page, c, n), u)) :
    readJob j s =
      (let q := 2 * b2n (decide (0 < c)) + 4 * b2n (decide (0 < n))
       engineEnds j.id { status := if q = 0 then .done else .doneFlagged, qflags := q, result := seq % 2 ^ 20, out := page } u) := by
  refine (if_neg (by simp [hactor, hright])).trans ((if_neg (by simp [hmounted])).trans ((onFlash_of_awake hawake).trans ?_))
  dsimp only
  rw [hwants]
  dsimp only
  rw [hfetch]

theorem mountJob_of_idle (hmounted : s.journal.mounted = false) (hactor : jobActorOk j.desc j.actor = true)
    (hidle : flashIdle s = true) (hawake : flashAwake (touchFlash s) = true) :
    mountJob mv ms j s = modJournal (fun y =>
      { y with mountAt := (touchFlash s).time.ticks, work := [.tables, .scan, .pending, .summary ms] ++ y.work
               job := some j.id, copied := 0 }) (takeVbat mv (takeKeep (touchFlash s))) :=
  (if_neg (by simp [hmounted, hidle])).trans ((if_neg (by simp [hactor])).trans (onFlash_of_awake hawake))

theorem houseStart_of_free {tag op : Nat} {f : Job → State → State} (hrun : runningJob s tag 10 op = some j)
    (hactor : jobActorOk j.desc j.actor = true) (hfree : journalFree s = true) :
    houseStart tag op mv f s =
      pushWork ((f j (beginJob mv j s)).journal.failing.map FlashTask.retire) (f j (beginJob mv j s)) :=
  (onJob_of_running hrun).trans ((if_neg (by simp [hactor])).trans (if_neg (by simp [hfree])))

theorem grantPeak_of_asks (hasks : s.lintel.peak = .none ∧ s.journal.waitVbat = false ∧ s.journal.op.peak ≠ .none) :
    grantPeak s =
      if flashVbatOk s then
        modJournal (fun j => { j with opAt := s.time.d04 }) (modLintel (fun l => { l with peak := s.journal.op.peak }) s)
      else if (workJob s).any fun j => decide (2 ≤ classOfQueue j.queue) then giveUp .brownout s
      else modJournal (fun j => { j with waitVbat := true }) s := by
  obtain ⟨hpeak, hvbat, hop⟩ := hasks
  exact if_pos (by simpa [hpeak, hvbat] using hop)

theorem execFlashIdlePowerDown_of_idle (hop : s.journal.op = .none) (hengine : onEngine s 10 = [])
    (hpwr : s.journal.pwr = true) (hdpd : s.journal.dpd = false)
    (hlong : counted s s.journal.accessAt (upTicks (items s).journal.dpdIdleUs) = true) :
    execFlashIdlePowerDown s = .next (settle (modJournal (fun x =>
      if (items s).journal.pwrMode = 0 then { x with dpd := true } else { x with pwr := false }) s)) := by
  refine done_of_eq ((if_neg (by simp [hop, hengine, hpwr, hdpd, hlong])).trans ?_)
  split <;> rfl
end

/-- Settles O39. -/
theorem journalJobs : Obligations.JournalJobs := by
  intro s u j tag seq c n ms mv page
  refine ⟨fun hawake => ⟨?_, ?_, ?_⟩, fun hactor hfree => ⟨?_, ?_, ?_⟩, ?_, ?_, ?_, ?_, execFlashIdlePowerDown_of_idle⟩
  · intro hrun hactor hright hmounted
    refine ⟨fun hwants => ?_, fun hwants hfetch => ?_, fun hwants hfetch => ?_⟩
    · exact done_of_eq ((onJob_of_running hrun).trans (readJob_of_none hactor hright hmounted hawake hwants))
    · exact done_of_eq ((onJob_of_running hrun).trans (readJob_of_failed hactor hright hmounted hawake hwants hfetch))
    · exact done_of_eq ((onJob_of_running hrun).trans (readJob_of_page hactor hright hmounted hawake hwants hfetch))
  · intro hrun hactor hlow hhigh
    exact done_of_eq ((onJob_of_running hrun).trans ((if_neg (by simp [hactor])).trans ((if_neg (by simp [hlow, hhigh])).trans
      (onFlash_of_awake hawake))))
  · intro hrun hmounted hactor hidle
    exact done_of_eq (congrArg (runWork 64) ((onJob_of_running hrun).trans (mountJob_of_idle hmounted hactor hidle hawake)))
  · exact fun hrun => done_of_eq (houseStart_of_free hrun hactor hfree)
  · exact fun hrun => done_of_eq (houseStart_of_free hrun hactor hfree)
  · exact fun hrun => done_of_eq (houseStart_of_free hrun hactor hfree)
  · exact fun hasks hvbat => (grantPeak_of_asks hasks).trans (if_pos hvbat)
  · exact fun hasks hvbat hclass => (grantPeak_of_asks hasks).trans ((if_neg (by simp [hvbat])).trans (if_pos hclass))
  · exact fun hasks hvbat hclass => (grantPeak_of_asks hasks).trans ((if_neg (by simp [hvbat])).trans (if_neg (by simp [hclass])))
  · exact fun hpeak hlate => done_of_eq (if_pos (by simp [hpeak, hlate]))

end Sys2Proof.Machine

/-! SUPPORT. The transducer front end, the capture units, the shot sequencer and the flow computation (chapters 4 to 6). -/

namespace Sys2Proof.Machine

/-! ### Trigger 0 and the pairs (R206 to R215) -/

section
variable {s : State} {rest : List Nat} {n : Nat}

theorem livePaths_shotMoves : livePaths (shotMoves s) = livePaths s := rfl

theorem shotSubmit_of_none (hlive : livePaths s = []) : shotSubmit n s = s := by
  rw [shotSubmit, hlive]

theorem shotSubmit_of_path1 (hlive : livePaths s = 0 :: rest) :
    shotSubmit n s = heldSince (s.time.d04 - n) s.fabric.nextId (submitTrigger 0 s) := by
  rw [shotSubmit, hlive]
  rfl

theorem shotSubmit_of_path2 (hlive : livePaths s = 1 :: rest) :
    shotSubmit n s = heldSince (s.time.d04 - n) s.fabric.nextId
      (chipJob 0x14 (at0 (items s).fabric.trig 0).queue (templateOf s (items s).shot.shot2Tpl) [] s) := by
  rw [shotSubmit, hlive]
  rfl

theorem execShotTrigger_of_due (hrun : s.boot.running = true) (hheld : trigHeld s = false)
    (hstalled : trigStalled s 0 = false) (hdue : shotInstant s ≤ s.time.d04) :
    execShotTrigger s = .next (settle (shotSubmit (shotInstant s) (shotMoves s))) :=
  done_of_eq (if_neg (by simp [hrun, hheld, hstalled, hdue]))

theorem shotPairJob_of_used {j : Job} (hfree : shotRun s = none) (hused : j.desc.arg 0 % 2 < pathCount s) :
    shotPairJob j s =
      (let p := j.desc.arg 0 % 2
       if pathFenced s p = true ∨ captureFenced s = true then engineEnds j.id { status := .fenced } s
       else modShotPath p (fun y => { y with pairNo := y.pairNo + 1 }) (modShot (fun y =>
         { y with
           pairCount := y.pairCount + 1
           run := some {
             job := j.id, path := p, upFirst := (nth s.shot.paths p).pairNo % 2 == 0, plumbDue := plumbDueNow s p
             dueAt := if p = 1 then max s.time.ticks (s.shot.dirEndAt + wholeTicks (items s).shot.pathGapUs)
               else s.time.ticks
             zeroUsed := (nth s.shot.paths p).zeroOfs, startDt := s.time.dt, startTick := bootTicks s } }) s)) :=
  (if_neg (by rw [hfree]; decide)).trans ((if_neg (Nat.not_le.mpr hused)).trans (ite_eq_of_iff (by simp) rfl rfl))

theorem execNoiseRetry_of_due {r : PairRun} {w : Nat} (hrun : shotRun s = some r) (hwait : r.waitRetry = some w)
    (hdue : w ≤ s.time.ticks) :
    execNoiseRetry s = .next (settle (modShot (fun x => { x with pairCount := x.pairCount + 1 })
      (modPair (fun y => { y with waitRetry := none, dueAt := s.time.ticks }) s))) := by
  refine done_of_eq ?_
  rw [hrun]
  dsimp only
  rw [hwait]
  exact if_neg (Nat.not_lt.mpr hdue)
end

/-! ### Directions (R147, R149, R154, R170 to R172) -/

section
variable {s : State} {r : PairRun} {d : DirRec} {o : DirObs} {c : CloseObs}

theorem execShotDirection_of_due (hdue : dueRun s = some r) :
    execShotDirection o s = done (
      let d0 : DirRec := { isUp := nextIsUp r, originDt := s.time.dt, originTick := bootTicks s }
      let x := dirStarts r.path (nextIsUp r) o (dirBegins o.waitUs r s)
      if x.2 = .record then burst r.path ((evalOf s r.job).map (·.flow))
        (modPair (fun y => { y with openDir := some d0, obs := o, scale := s.ftu.scalePpb }) x.1)
      else dirEnds { d0 with kind := x.2 } { r with startedAt := s.time.ticks } x.1) := by
  rw [execShotDirection, hdue]

theorem captureFails_of_due {l : LinePair} {mv : Nat} {f : State → State} (hdue : dueRun s = some r) :
    captureFails l mv f s =
      (let y := checkLines r.path (nextIsUp r) false l.tx l.rx (modFront (fun x => { x with pumpMv := satNat 12 mv })
        (dirBegins l.waitUs r s))
       dirEnds { kind := if y.2 = true then .line else .capture, isUp := nextIsUp r }
         { r with startedAt := s.time.ticks } (f y.1)) := by
  rw [captureFails, hdue]

theorem execEchoWindowClose_of_open (hopen : openRun s = some (r, d)) :
    execEchoWindowClose c s = done (closeEcho (pathItems s r.path).winLen false c r d s) := by
  rw [execEchoWindowClose, hopen]

theorem execPllUnlockInWindow_of_open (hopen : openRun s = some (r, d)) :
    execPllUnlockInWindow c s = done (closeEcho (min c.winRun (pathItems s r.path).winLen) true c r d s) := by
  rw [execPllUnlockInWindow, hopen]
end

/-- Settles O40. -/
theorem shots : Obligations.Shots := by
  refine ⟨fun s j r tag w rest => ⟨fun hrun hheld hstalled hdue => ?_, fun hrun hfree hused => ?_, execNoiseRetry_of_due⟩,
    fun s r d o c l mv => ⟨fun hdue => ⟨fun hfires => ?_, fun hfails => ?_, fun hpump => ?_, ?_⟩, fun hopen => ⟨?_, ?_⟩⟩⟩
  · have hexec := execShotTrigger_of_due hrun hheld hstalled hdue
    refine ⟨fun hlive => hexec.trans ?_, fun hlive => hexec.trans ?_, fun hlive => hexec.trans ?_⟩
    · rw [shotSubmit_of_path1 (livePaths_shotMoves.trans hlive)]
      rfl
    · rw [shotSubmit_of_path2 (livePaths_shotMoves.trans hlive)]
      rfl
    · rw [shotSubmit_of_none (livePaths_shotMoves.trans hlive)]
      rfl
  · exact done_of_eq ((onJob_of_running hrun).trans (shotPairJob_of_used hfree hused))
  · exact (execShotDirection_of_due hdue).trans (done_of_eq (if_pos hfires))
  · exact (execShotDirection_of_due hdue).trans (done_of_eq (if_neg hfails))
  · exact done_of_eq ((if_neg (by simp [hpump])).trans (captureFails_of_due hdue))
  · exact done_of_eq (captureFails_of_due hdue)
  · exact fun hlate => (execEchoWindowClose_of_open hopen).trans (done_of_eq (if_neg (Nat.not_lt.mpr hlate)))
  · exact fun hlate => (execPllUnlockInWindow_of_open hopen).trans (done_of_eq (if_neg (Nat.not_lt.mpr hlate)))

/-! ### The flow engine's and the front end's jobs -/

section
variable {s : State} {j : Job} {lines : List LineObs} {o : DirObs}

/-- A flow record kept, and given out with its tick, under its outcomes and flags. -/
theorem flowRecord_ends {id o1 o2 flags : Nat} {st : Status} {record tick : List Byte} {u : State} :
    ∃ r v k, engineEnds id { status := st, result := o1 + 16 * o2 + flags % 4096 * 256, out := record ++ tick }
        (modShot (fun x => { x with record := record, evals := x.evals.filter (·.flow != id) }) u) = engineEnds id r v
      ∧ r.result = o1 + 16 * o2 + 256 * k ∧ r.out = v.shot.record ++ r.out.drop v.shot.record.length
      ∧ v.shot.throttled = u.shot.throttled :=
  ⟨_, _, flags % 4096, rfl, by rw [Nat.mul_comm 256], congrArg (record ++ ·) List.drop_left.symm, rfl⟩

/-- A FLOW job's outcome, record and throttle (R211, R224, Table 6.6). -/
theorem flowJob_ends (j : Job) (s : State) : ∃ r u k, flowJob j s = engineEnds j.id r u
    ∧ r.result = (flowOf s (flowEval s j.id 0) 0).1 + 16 * (flowOf s (flowEval s j.id 1) 1).1 + 256 * k
    ∧ r.out = u.shot.record ++ r.out.drop u.shot.record.length ∧ u.shot.throttled = j.mark := by
  unfold flowJob
  dsimp only
  obtain ⟨r, v, k, hends, hresult, hout, hthrottle⟩ := flowRecord_ends
  refine ⟨r, v, k, hends, hresult, hout, hthrottle.trans ?_⟩
  split <;> rfl

theorem lineCheckJob_of_fenced (hfenced : ((j.desc.arg 0).testBit 0 = true ∧ pathFenced s 0 = true) ∨
    ((j.desc.arg 0).testBit 1 = true ∧ pathFenced s 1 = true)) :
    lineCheckJob lines j s = engineEnds j.id { status := .fenced } s :=
  if_pos (by simpa using hfenced)

theorem lineCheckJob_of_sound (h0 : (j.desc.arg 0).testBit 0 = true → pathFenced s 0 = false)
    (h1 : (j.desc.arg 0).testBit 1 = true → pathFenced s 1 = false) :
    ∃ r u, lineCheckJob lines j s = engineEnds j.id r u ∧ (r.status = .done ↔ r.result = 0) := by
  simp only [Nat.testBit_zero, decide_eq_true_eq] at h0
  refine ⟨_, _, if_neg (by simpa using And.intro h0 h1), ?_⟩
  dsimp only
  split <;> simp [*]

theorem peakProbeJob_eq : peakProbeJob o j s =
    (let p := j.desc.arg 0 % 2
     let isUp := !(j.desc.arg 0).testBit 1
     let x := dirStarts p isUp o s
     let peak := peakCode ((pathItems s p).winLen * 160) o
     if pathFenced s p = true then engineEnds j.id { status := .fenced } s
     else if x.2 = .record then engineEnds j.id
       { status := if 250 ≤ peak then .doneFlagged else .done, result := peak + 256 * b2n (decide (250 ≤ peak)) }
       (latchPeak p isUp peak (burst p none x.1))
     else engineEnds j.id { status := .doneFlagged, result := Config.freeIndex x.1.draws % 256 } (drew 1 x.1)) := by
  unfold peakProbeJob
  simp only [decide_eq_true_eq]

theorem rawCaptureJob_eq : rawCaptureJob j s =
    (let b := (s.scribe.buf + j.desc.arg 0 % 2) % 2
     let ws := (nth s.scribe.ram b).take (128 * min 8 j.outs.length)
     engineEnds j.id (
       if (winOf s .scribe).fenced = true ∨ s.faults.grave = true then { status := .fenced }
       else {
         status := if nth s.scribe.ramOverflow b = true then .doneFlagged else .done, result := ws.length
         out := ws.flatMap fun w => bytesLE 4 w.toNat }) s) := by
  unfold rawCaptureJob
  simp only [Bool.or_eq_true]
  split <;> rfl
end

/-- Settles O41. -/
theorem flowAndFineTime : Obligations.FlowAndFineTime := by
  refine ⟨fun s j tag o lines => ⟨?_, ?_, ?_, ?_, ?_, ?_⟩, fun s j tag count taps counts escaped => ⟨?_, ?_, ?_, ?_⟩⟩
  · exact fun hrun => ⟨done_of_eq (onJob_of_running hrun), flowJob_ends j s⟩
  · exact fun hrun => done_of_eq (onJob_of_running hrun)
  · exact fun hrun => done_of_eq (onJob_of_running hrun)
  · exact fun hrun => ⟨done_of_eq (onJob_of_running hrun), lineCheckJob_of_fenced, lineCheckJob_of_sound⟩
  · exact fun hrun => done_of_eq ((onJob_of_running hrun).trans peakProbeJob_eq)
  · exact fun hrun => done_of_eq ((onJob_of_running hrun).trans rawCaptureJob_eq)
  · exact fun hrun => done_of_eq (by rw [hrun])
  · exact fun hrun hsum => done_of_eq ((onJob_of_running hrun).trans (if_neg (by simp [hsum])))
  · exact fun hrun => done_of_eq (if_neg (by simp [hrun]))
  · exact fun hrun hlate => done_of_eq (if_pos (by simp [hrun, hlate]))

end Sys2Proof.Machine

/-! SUPPORT. Temperature, integration, billing and tamper (chapters 7 to 9). -/

namespace Sys2Proof.Machine

/-! ### The temperature engine -/

section
variable {s : State} {j : Job} {r : TempRun} {vin vref : Int} {limit : Bool} {ua : Nat}

theorem tempSetJob_of_new (hrun : (tempRun s).getD (setRun j s) = r) (hplan : r.plan = []) (hjob : r.job = j.id) :
    tempSetJob j s =
      (let plan := setPlan r.cfg (s.temp.refLeft == 0)
       let x := { r with refChecked := plan.contains 4 }
       if plan = [] then finishSet { x with setDt := some s.time.dt } s
       else modTemp (fun t => { t with run := some (beginInput x plan s) }) s) := by
  rw [tempSetJob, hrun]
  exact (if_neg (by simp [hplan, hjob])).trans (ite_eq_of_iff List.isEmpty_iff rfl rfl)

theorem execExcSettleEnd_of_settled (hrun : tempRun s = some r) (hstage : r.stage = .settle) (hplan : r.plan ≠ [])
    (hdue : r.dueAt ≤ s.time.d04) :
    execExcSettleEnd s = .next (settle (modRun (fun r =>
      { r with stage := .convA, dueAt := s.time.d04 + convTicks r, setDt := r.setDt <|> some s.time.dt }) s)) := by
  refine done_of_eq ?_
  rw [hrun]
  exact if_pos (by simp [hstage, hplan, hdue])

theorem execConversionEnd_of_a (hrun : tempRun s = some r) (hdue : r.dueAt ≤ s.time.d04) (hstage : r.stage = .convA) :
    execConversionEnd vin vref limit ua s = done (
      let n := r.plan.headD 0
      modRun (fun r =>
        { r with
          stage := .convB, dueAt := s.time.d04 + convTicks r, groups := 0, lastGroup := none
          setDt := r.setDt <|> some s.time.dt
          res := upd r.res n fun x =>
            { x with a := convCode vin vref, limit := x.limit || limit, ua := x.ua ++ [ua] } })
        (noteConv n true (convCode vin vref) (if n = 5 then modTemp (fun x => { x with pbUa := satNat 12 ua }) s else s))) := by
  unfold execConversionEnd
  rw [hrun]
  dsimp only
  rw [if_neg (Nat.not_lt.mpr hdue), hstage]

theorem execConversionEnd_of_b (hrun : tempRun s = some r) (hdue : r.dueAt ≤ s.time.d04) (hstage : r.stage = .convB) :
    execConversionEnd vin vref limit ua s = done (
      let n := r.plan.headD 0
      nextInput { r with res := upd r.res n fun x =>
        { x with b := convCode vin vref, limit := x.limit || limit, ua := x.ua ++ [ua] } }
        (noteConv n false (convCode vin vref) (if n = 5 then modTemp (fun x => { x with pbUa := satNat 12 ua }) s else s))) := by
  unfold execConversionEnd
  rw [hrun]
  dsimp only
  rw [if_neg (Nat.not_lt.mpr hdue), hstage]
end

/-- Settles O42. -/
theorem temperatureSets : Obligations.TemperatureSets := by
  intro s j r tag ua vin vref limit
  refine ⟨fun hrun hbare hgrave hheld hstalled hcounted => ?_, fun hrun hset hplan hjob => ?_, execExcSettleEnd_of_settled,
    fun hrun hdue => ⟨fun hstage => ?_, fun hstage => ?_⟩, fun hrun hfree hactor => ?_⟩
  · exact done_of_eq (if_pos (by simp [hrun, hbare, hgrave, hheld, hstalled, hcounted]))
  · exact done_of_eq ((onJob_of_running hrun).trans (tempSetJob_of_new hset hplan hjob))
  · exact execConversionEnd_of_a hrun hdue hstage
  · exact execConversionEnd_of_b hrun hdue hstage
  · exact done_of_eq ((onJob_of_running hrun).trans ((if_neg (by simp [hfree])).trans (if_neg (by simp [hactor]))))

/-! ### Integration and billing -/

section
variable {s : State} {j w : Job} {r : JobResult}

theorem stepJob_of_other (hform : leAt (stepInput s j).flow 0 1 ≠ 1) : stepJob j s = engineEnds j.id { status := .done } s :=
  if_pos (by simpa using hform)

/-- A STEP over a record of form 1 answers with its plan's flags and cause (R273). -/
theorem stepJob_ends (hform : leAt (stepInput s j).flow 0 1 = 1) :
    ∃ r u, stepJob j s = engineEnds j.id r u ∧ r.result = (planStep s j).flags + (planStep s j).cause * 2 ^ 12
      ∧ (r.status = .done ↔ r.result % 4096 = 0) := by
  refine ⟨_, _, if_neg (by simp [hform]), rfl, ?_⟩
  dsimp only
  split
  next hflags => exact iff_of_true rfl hflags
  next hflags => exact iff_of_false nofun hflags

theorem accResetJob_of_maker (hactor : jobActorOk j.desc j.actor = true) (hsealed : isSealed s = false) :
    accResetJob j s = engineEnds j.id { status := .done } (modTamper (fun t =>
      { t with refVol := 0, bypRef := 0, bypOwn := 0 })
      (commitInteg (fun c =>
        { lastTick := c.lastTick, lastPairDt := c.lastPairDt
          win := { c.win with ticks := 0, sumV := 0, sumE := 0, sumC := 0 } }) s)) :=
  (if_neg (by simp [hactor])).trans (if_neg (by simp [hsealed]))

theorem snapRequestJob_of_new (hmark : j.mark = false) (hactor : jobActorOk j.desc j.actor = true) :
    snapRequestJob j s = if snapsToday s < (items s).bill.snapDayMax then
        masonEvent 9 1 0 (modJob j.id (fun j => { j with mark := true }) s)
      else engineEnds j.id { status := .refusedPolicy, retryS := secondsToRoll s } s :=
  (if_neg (by simp [hmark])).trans (if_neg (by simp [hactor]))

theorem billCommitJob_of_locked (hactor : jobActorOk j.desc j.actor = true) (hmark : j.mark = true)
    (hreason : j.desc.arg 0 % 4 = 1 ∨ j.desc.arg 0 % 4 = 2) :
    billCommitJob j s =
      (let u := commitSnapshot (j.desc.arg 0 % 4) s
       engineEnds j.id { status := .done, result := u.bill.snapSeq % 2 ^ 16 } (modBill (fun b =>
         { b with
           before := some (snapBefore j.id s)
           flagged := if j.desc.arg 0 % 4 = 1 ∧ s.bill.due.any (fun d => decide (0 < d.2)) = true
             then b.flagged ++ (snapWaiters s).map (·.id) else b.flagged }) u)) := by
  refine (if_neg (by simp [hactor])).trans ((if_neg (by obtain h | h := hreason <;> simp [hmark, h])).trans ?_)
  cases hdue : s.bill.due with
  | none => simp
  | some d => simp

theorem snapshotDone_of_monthly (hreason : j.desc.arg 0 % 4 = 1) :
    snapshotDone j r s = journalSlot s.bill.newest (modBill (fun b => { b with before := none }) s) :=
  if_neg (by simp [hreason])

theorem endRequest_of_waiter (hwaits : (snapWaiters s).head? = some w) : endRequest r s =
    engineEnds w.id { r with status := if s.bill.flagged.contains w.id then .doneFlagged else .done }
      (modBill (fun b => { b with flagged := b.flagged.filter (· != w.id) }) s) := by
  rw [endRequest, hwaits]
end

/-- Settles O43. -/
theorem integrationAndBilling : Obligations.IntegrationAndBilling := by
  refine ⟨fun s j tag => ⟨fun hrun => ⟨fun hform => ?_, fun hform => ⟨?_, stepJob_ends hform⟩⟩,
    fun hrun hactor hsealed => ?_, fun herr hrun => ?_⟩,
    fun s j w r tag samples level => ⟨fun hdue hruns hfenced => ?_, fun hlevel hlong hsampled => ?_,
    fun hrun hmark hactor => ?_, fun hrun hactor hmark hreason => ?_, snapshotDone_of_monthly, fun hreason hwaits => ?_⟩⟩
  · exact done_of_eq ((onJob_of_running hrun).trans (stepJob_of_other hform))
  · exact done_of_eq (onJob_of_running hrun)
  · exact done_of_eq ((onJob_of_running hrun).trans (accResetJob_of_maker hactor hsealed))
  · exact done_of_eq (if_pos (by simp [herr, hrun]))
  · exact done_of_eq (if_pos (by simp [hdue, hruns, hfenced]))
  · exact done_of_eq (if_neg (by simp [hlevel, Nat.not_lt.mpr hlong, hsampled]))
  · exact done_of_eq ((onJob_of_running hrun).trans (snapRequestJob_of_new hmark hactor))
  · exact done_of_eq ((onJob_of_running hrun).trans (billCommitJob_of_locked hactor hmark hreason))
  · exact (if_pos hreason).trans (endRequest_of_waiter hwaits)

/-! ### Tamper inputs -/

section
variable {s : State} {n samples : Nat} {level leading : Bool}

theorem execPulseEdge_of_sampled (hn : n < 2) (hlevel : nth s.tamper.pls n ≠ level)
    (hlong : (items s).tamper.plsDeb ≤ samples) (hsampled : sampledFor s (nth s.tamper.plsAt n) samples = true) :
    execPulseEdge n leading ⟨level, samples⟩ s = .next (settle (
      let mode := at0 (items s).tamper.plsMode n
      if leading = false ∨ mode = 0 then
        modTamper (fun t => { t with pls := put t.pls n level, plsAt := put t.plsAt n s.time.d04 }) s
      else raiseIf (((nth s.tamper.pulseAt n).map fun t => decide ((s.time.d04 - t) * (items s).tamper.plsMaxHz < 32768)).getD
          false) Src.pulseOverrate (modTamper (fun t =>
        { t with
          pls := put t.pls n level
          plsAt := put t.plsAt n s.time.d04
          pulseAt := put t.pulseAt n (some s.time.d04)
          refVol := if mode = 1 then (t.refVol + (items s).tamper.plsNl) % 2 ^ 64 else t.refVol
          pulse := if mode = 2 then upd t.pulse n (fun p => (p + 1) % 2 ^ 64) else t.pulse }) s))) := by
  refine done_of_eq ((if_neg (by simp [hn, hlevel, Nat.not_lt.mpr hlong, hsampled])).trans
    (ite_eq_of_iff (by simp) rfl ?_))
  cases nth s.tamper.pulseAt n <;> rfl

theorem execBypassWindow_of_over (hmode : (items s).tamper.plsMode.contains 1 = true)
    (hover : counted s s.tamper.bypAt (secTicks (60 * (items s).tamper.bypWinMin)) = true) :
    execBypassWindow s = done (
      let now := (integNow s).volFwd.int + (integNow s).errVol.int
      let ref := s.tamper.refVol - s.tamper.bypRef
      let own := now - s.tamper.bypOwn
      let u := modTamper (fun t =>
        { t with bypAt := s.time.d04, bypRef := t.refVol, bypOwn := now, bypShort := ref - own }) s
      if ref < (items s).tamper.bypMinNl then u
      else if (items s).tamper.bypTolPm * ref < (ref - own) * 1000 then openTamper 3 s.time.dt.toNat s.time.d04 u
      else closeTamper 3 s.time.dt.toNat s.time.d04 ((ref - own) / 1000000) u) :=
  done_of_eq (if_neg (by rw [hmode, hover]; decide))
end

/-- Settles O44. -/
theorem tamperInputs : Obligations.TamperInputs := by
  intro s j tag n samples level leading hn
  refine ⟨fun hlevel => ?_, fun hlong => ?_, execPulseEdge_of_sampled hn, execBypassWindow_of_over, fun hrun hactor => ?_⟩
  · exact done_of_eq (if_neg (by simp [hn, hlevel]))
  · exact done_of_eq (if_neg (by rw [hlong]; simp [hn]))
  · exact done_of_eq ((onJob_of_running hrun).trans (if_neg (by simp [hactor])))

end Sys2Proof.Machine

/-! SUPPORT. Quoin and the roles (chapters 13 and 14): the cipher jobs, key erasure, the random source, sessions and
consents. -/

namespace Sys2Proof.Machine

/-! ### Cipher jobs -/

/-- A cipher job whose slot and arguments are accepted, by the outcome of the engine's own check and of its tag. -/
theorem cipherJob_of_accepted {s : State} {j : Job} {op tag : Nat} {fi : Option Nat} (hrun : runningJob s tag 13 op = some j)
    (huse : useRefused s j = false) (hargs : cipherArgsOk s j = true) :
    cipherJob op tag fi s = (
      let n := j.desc.arg 0 % 32
      let p := j.desc.arg 1 % 2 ^ 16
      let sl := nth s.keys.slots n
      let mode := cipherMode s n (bits 5 5 (j.desc.arg 0))
      let a := if op ≤ 2 then j.desc.arg 1 / 2 ^ 16 else 0
      let count := cipherBlocks op p a
      let ran := match fi with
        | some k => min k (count - 1)
        | none => count
      let x := cipherCycles mode ran s
      let u := noteStale (modCipher (fun c =>
        { c with
          blocks := c.blocks + BitVec.ofNat 32 ran, lastCycles := satNat 16 x.1
          jobsS := if mode = 0 then satInc c.jobsS else c.jobsS
          jobsM := if mode = 1 then satInc c.jobsM else c.jobsM }) x.2)
      let y := cipherResult op sl.key (inputBytes s j 0) (slice (inputBytes s j 1) 0 a)
        (slice (inputBytes s j 2) 0 p) ((tagLen (j.desc.arg 2)).getD 16)
      let stale := u.cipher.mask.stale
      let k := ceilDiv y.1.length 512
      let secret := sl.attr.outSecret && (op == 2 || op == 5 || (op == 3 && sl.attr.use.testBit 1))
      if fi.isSome = true then alarmBy 3 (raise Src.fiDetect (modCipher (fun c => { c with fi := satInc c.fi })
        (engineEnds j.id { status := .refusedPolicy, qflags := 2 } u)))
      else if y.2.2 = false then
        engineEnds j.id { status := .checkFailed, qflags := 8 * b2n stale, result := satNat 16 x.1 + mode * 2 ^ 16 }
          (modCipher (fun c => { c with tagFail := satInc c.tagFail }) u)
      else engineEnds j.id {
          status := if stale = true then .doneFlagged else .done, qflags := 8 * b2n stale
          result := satNat 16 x.1 + mode * 2 ^ 16 + (if y.2.1.isEmpty = true then 0 else k % 8) * 2 ^ 17
          out := if y.2.1.isEmpty = true then y.1 else padTo (k * 512) 0 y.1 ++ y.2.1 }
        (if secret = true then j.outs.foldl (fun t g => modGran g (fun x => { x with secret := true }) t) u else u)) := by
  unfold cipherJob
  rw [hrun]
  refine (if_neg (by rw [huse]; decide)).trans ((if_neg (by rw [hargs]; decide)).trans ?_)
  exact ite_eq_of_iff Iff.rfl rfl (ite_eq_of_iff (Iff.of_eq (Bool.not_eq_true' _)) rfl rfl)

/-- Settles O45. -/
theorem cipherJobs : Obligations.CipherJobs := by
  intro s j tag fi huse hargs
  refine ⟨fun hrun => ?_, fun hrun => ?_, fun hrun => ?_, fun hrun => ?_, fun hrun => ?_, fun hrun => ?_, fun hrun => ?_⟩
  all_goals exact done_of_eq (cipherJob_of_accepted hrun huse hargs)

/-! ### Key erasure and the random source -/

section
variable {s : State} {j : Job} {tag ns reps source failing i since : Nat} {raw : List Bool} {want : AuthWait}

theorem execZeroize_of_running (hrun : runningJob s tag 13 9 = some j) (hstrict : strictRefused s = false) :
    execZeroize tag ns reps s = .next (settle (alarm 5 (j.desc.arg 0 % 2 ^ 24) true ns reps (engineEnds j.id {} s))) := by
  refine done_of_eq ?_
  rw [hrun]
  exact if_neg (by simp [hstrict])

theorem randomJob_of_new (hsome : j.desc.arg 0 % 1024 ≠ 0) (hmost : j.desc.arg 0 % 1024 ≤ 512) (houts : j.outs ≠ [])
    (hmark : j.mark = false) :
    randomJob j s = serveRandom { j with mark := true } (modJob j.id (fun x => { x with mark := true }) s) :=
  (if_neg (by simp [hsome, Nat.not_lt.mpr hmost, houts])).trans (if_neg (by simp [hmark]))

theorem execEntropyWaitTimeout_job (hrun : runningJob s tag 14 1 = some j) (hmark : j.mark = true)
    (hlate : passed s (max j.startedAt s.entropy.blockAt) (msTicks 2) = true) :
    execEntropyWaitTimeout (.job tag) s =
      .next (settle (engineEnds j.id { status := .refusedPolicy, retryS := 1, qflags := 4 } s)) := by
  refine done_of_eq ?_
  dsimp only
  rw [hrun]
  exact if_pos (by simp [hmark, hlate])

theorem execEntropyWaitTimeout_port (hi : i < 4) (hwant : (nth s.roles.sess i).want = some want)
    (hlate : passed s want.since (msTicks 2) = true) :
    execEntropyWaitTimeout (.port i) s = .next (settle (
      let u := modRoles (fun r => { r with authLast := Status.refusedPolicy.code })
        (modSess i (fun y => { y with want := none }) s)
      (want.job.map fun id => engineEnds id { status := .refusedPolicy, retryS := 1, qflags := 4 } u).getD u)) := by
  refine done_of_eq ?_
  dsimp only
  rw [hwant]
  refine (if_pos (by simp [hi, hlate])).trans ?_
  cases want.job <;> rfl

theorem execEntropyWaitTimeout_link (hwait : s.link.reqWait = some since)
    (hlate : passed s (max since s.entropy.blockAt) (msTicks 2) = true) :
    execEntropyWaitTimeout .link s = .next (settle (modLink (fun l =>
      { l with st := if l.st = 2 then 1 else l.st, best := none, join := none, reqWait := none }) s)) := by
  refine done_of_eq ?_
  dsimp only
  rw [hwait]
  exact if_pos hlate

theorem rawSamplesJob_of_sized (hsealed : isSealed s = false) (hsome : j.desc.arg 0 % 8192 ≠ 0)
    (hmost : j.desc.arg 0 % 8192 ≤ 4096) (houts : j.outs ≠ []) (hraw : raw.length = j.desc.arg 0 % 8192) :
    rawSamplesJob raw j s = engineEnds j.id
      { out := (List.range (ceilDiv raw.length 8)).map fun i => packBits 8 ((raw.drop (8 * i)).take 8) } (takeRaw raw s).1 := by
  rw [hraw]
  exact if_neg (by simp [hsealed, hsome, Nat.not_lt.mpr hmost, houts, hraw])

theorem execConditionedBlock_of_sized (hruns : sourceRuns s = true) (hraw : raw.length = (items s).keys.condRaw) :
    execConditionedBlock raw s = .next (settle (
      let block := conditionBlock s raw
      let u := modEntropy (fun e => { e with condBlocks := e.condBlocks + 1 }) (takeRaw raw s).1
      let v := modEntropy (fun e => { e with fifo := e.fifo ++ block, blockAt := s.time.ticks }) u
      if (takeRaw raw s).2 = false then (takeRaw raw s).1
      else if maskDue u = true then seedMask block u
      else if u.entropy.startupOk = false then u
      else (v.fabric.jobs.filter fun j => j.desc.engine == 14 && j.desc.opcode == 1 && j.phase == .running
        && j.mark).foldl (fun t j => serveRandom j t) (serveAuth v))) :=
  done_of_eq ((if_neg (by simp [hruns, hraw])).trans (ite_eq_of_iff (Iff.of_eq (Bool.not_eq_true' _)) rfl
    (ite_eq_of_iff Iff.rfl rfl (ite_eq_of_iff (Iff.of_eq (Bool.not_eq_true' _)) rfl rfl))))

theorem noteStale_of_worn (hworn : 16 * (items s).keys.reseedBits ≤ s.cipher.mask.bits) :
    noteStale s = setLevel Src.maskStale true (modCipher (fun c => { c with mask := { c.mask with stale := true } }) s) :=
  if_pos hworn
end

/-- Settles O46. -/
theorem keysAndEntropy : Obligations.KeysAndEntropy := by
  intro s j tag i source ns reps failing since raw want
  refine ⟨execZeroize_of_running, fun hcan hsource => ?_, fun hon => ?_, fun hrepeat => ?_,
    fun hrun => ⟨fun hsome hmost houts hmark => ?_, execEntropyWaitTimeout_job hrun⟩, execEntropyWaitTimeout_port,
    execEntropyWaitTimeout_link, fun hrun hsealed hsome hmost houts hraw => ?_, fun hruns hfenced hon hraw => ?_,
    fun hruns => ?_, execConditionedBlock_of_sized, fun hon hworn => ?_⟩
  · exact done_of_eq ((if_neg (by simp [hcan])).trans (if_neg hsource))
  · exact done_of_eq (if_neg (by simp [alarmCan, hon]))
  · exact done_of_eq (if_neg hrepeat)
  · exact done_of_eq ((onJob_of_running hrun).trans (randomJob_of_new hsome hmost houts hmark))
  · exact done_of_eq ((onJob_of_running hrun).trans (rawSamplesJob_of_sized hsealed hsome hmost houts hraw))
  · exact done_of_eq (if_neg (by simp [hruns, hfenced, hon, hraw]))
  · exact done_of_eq (if_pos hruns)
  · exact done_of_eq ((if_pos hon).trans (noteStale_of_worn hworn))

/-! ### Sessions by job and by register -/

section
variable {s : State} {j : Job} {w : WriteCtx} {v : Word} {tag i : Nat} {c : Challenge}

theorem execAuthBegin_job (hrun : runningJob s tag 13 0x10 = some j) (hwaits : authWaits s j = false) :
    execAuthBegin (.job tag) s = .next (settle (
      let x := authBegin j.actor.master (j.desc.arg 0 % 8) (bytesLE 4 (j.desc.arg 1) ++ bytesLE 4 (j.desc.arg 2))
        (some j.id) s
      if x.2.1 = .done then x.1 else engineEnds j.id { status := x.2.1, retryS := x.2.2 } x.1)) := by
  refine done_of_eq ?_
  dsimp only
  rw [hrun]
  refine (if_neg (by simp [hwaits])).trans ?_
  obtain ⟨t, st, retry⟩ := authBegin j.actor.master (j.desc.arg 0 % 8)
    (bytesLE 4 (j.desc.arg 1) ++ bytesLE 4 (j.desc.arg 2)) (some j.id) s
  cases st <;> rfl

theorem execAuthFinish_job (hrun : runningJob s tag 13 0x11 = some j) :
    execAuthFinish (.job tag) s = .next (settle (
      let x := authFinish j.actor.master ((inputBytes s j 0).take 16) false s
      engineEnds j.id { status := x.2.1, qflags := b2n (authKeyless s j.actor.master), out := x.2.2 } x.1)) := by
  refine done_of_eq ?_
  dsimp only
  rw [hrun]

theorem sessionEnd_of_session (h : sessionOf m = some i) : sessionEnd m s = (endSession i s, .done) := by
  simp [sessionEnd, h]

theorem execSessionEnd_job (hrun : runningJob s tag 13 0x12 = some j) (hsession : sessionOf j.actor.master = some i) :
    execSessionEnd (.job tag) s = .next (settle (engineEnds j.id { status := .done } (endSession i s))) := by
  refine done_of_eq ?_
  dsimp only
  rw [hrun]
  dsimp only
  rw [sessionEnd_of_session hsession]

theorem place_authCtrl_ne : place (authCtrlAddr s) ≠ .block .time 0x028 := by
  rw [authCtrlAddr]
  split <;> decide

/-- A write of AUTH_CTRL with an action bit has its word's effect. -/
theorem authAccess_of_open (hopen : WriteOpen s w (authCtrlAddr s)) (bit : Nat) :
    authAccess w v bit s =
      (let e := writeEffect {} (writer s w) (place (authCtrlAddr s)) (BitVec.ofNat 32 (v.toNat % 8 + 2 ^ bit))
        (portRequest w.master s)
       answered e.2 s w (authCtrlAddr s) e.1) :=
  writeAccess_eq hopen rfl place_authCtrl_ne rfl

theorem execChallengeExpiry_of_old (hi : i < 4) (hchal : (nth s.roles.sess i).chal = some c)
    (hold : counted s c.at_ (secTicks (items s).roles.authChalS) = true) :
    execChallengeExpiry i s = .next (settle (modRoles (fun r =>
      { r with authState := if r.authState = 1 then 0 else r.authState }) (modSess i (fun x => { x with chal := none }) s))) := by
  refine done_of_eq ?_
  rw [hchal]
  exact if_pos (by simp [hi, hold])
end

/-- Settles O47. -/
theorem sessions : Obligations.Sessions := by
  intro s j w v tag i c
  refine ⟨execAuthBegin_job, execAuthFinish_job, execSessionEnd_job, fun hopen => ⟨?_, ?_, ?_⟩,
    fun hi hsess => ⟨fun hlong => ?_, fun hlong => ?_⟩, execChallengeExpiry_of_old, fun hnone => ?_, fun hhours hlong => ?_⟩
  · exact done_of_eq (authAccess_of_open hopen 8)
  · exact done_of_eq (authAccess_of_open hopen 9)
  · exact done_of_eq (authAccess_of_open hopen 10)
  · exact done_of_eq (if_pos (by simp [hi, hsess, hlong]))
  · exact done_of_eq (if_pos (by simp [hi, hsess, hlong]))
  · exact done_of_eq (if_neg (by simp [hnone]))
  · exact done_of_eq (if_pos (by simp [hhours, hlong]))

/-! ### Consents -/

section
variable {s : State} {j : Job} {e : Nat}

theorem consentProposeJob_of_passed (hrole : within 1 3 j.actor.role = true) (hstrict : strictRefused s = false)
    (htoken : tokenCheck s j.actor.role (ConsentIn.ofBytes (inputBytes s j 0)) = none)
    (hitems : (ConsentIn.ofBytes (inputBytes s j 0)).items < 256)
    (hbase : (ConsentIn.ofBytes (inputBytes s j 0)).baseSeq = s.boot.img.seq) (hroom : consentRoom s = some e) :
    consentProposeJob j s = (
      let x := ConsentIn.ofBytes (inputBytes s j 0)
      engineEnds j.id { result := s.roles.nextRef % 2 ^ 20 }
        (auditConsent 7 j.actor s.roles.nextRef x.items x.digest .done (modRoles (fun r => { r with nextRef := s.roles.nextRef + 1 })
          (modConsent e (fun _ => {
            state := .proposed, proposer := j.actor.role, items := x.items, ref := s.roles.nextRef, baseSeq := x.baseSeq
            digest := x.digest, until_ := s.time.d04 + secTicks 86400 }) s)))) := by
  refine (if_neg (by simp [hrole])).trans ((if_neg (by simp [hstrict])).trans ?_)
  rw [htoken]
  refine (if_neg (by simp [Nat.not_le.mpr hitems, hbase])).trans ?_
  rw [hroom]

theorem consentSignJob_of_passed (hlock : lockBusy s = false ∨ ownLock s .consentCommit = true)
    (hrole : within 1 3 j.actor.role = true) {u : State} (hu : unlockAs .consentCommit s = u)
    (hstrict : strictRefused u = false)
    (htoken : tokenCheck u j.actor.role (ConsentIn.ofBytes (inputBytes u j 0)) = none)
    (hentry : consentByRef u (j.desc.arg 0) = some e)
    (hsign : signOutcome u (nth u.roles.consents e) j.actor.role (ConsentIn.ofBytes (inputBytes u j 0))
      = (.done, .committed)) :
    consentSignJob j s = (
      let x := ConsentIn.ofBytes (inputBytes u j 0)
      engineEnds j.id { status := .done, result := j.desc.arg 0 % 2 ^ 20 }
        (auditConsent 8 j.actor (j.desc.arg 0) x.items x.digest .done (modConsent e (fun c =>
          { c with state := .committed, signer := j.actor.role, until_ := u.time.d04 + secTicks 86400 }) u))) := by
  unfold consentSignJob
  rw [hu]
  refine (if_neg (by obtain h | h := hlock <;> simp [h])).trans ((if_neg (by simp [hrole])).trans
    ((if_neg (by simp [hstrict])).trans ?_))
  dsimp only
  rw [htoken]
  dsimp only
  rw [hentry]
  dsimp only
  rw [hsign]
  rfl

theorem consentWithdrawJob_of_holder (hholds : stageHolds s (j.desc.arg 0) = false) (hstrict : strictRefused s = false)
    (hentry : consentByRef s (j.desc.arg 0) = some e)
    (hright : let c := nth s.roles.consents e
      (c.state = .proposed ∧ j.actor.role = c.proposer) ∨
        (c.state = .committed ∧ (j.actor.role = c.proposer ∨ j.actor.role = c.signer))) :
    consentWithdrawJob j s = (
      let c := nth s.roles.consents e
      engineEnds j.id {} (auditConsent 9 j.actor (j.desc.arg 0) c.items c.digest .done
        (modConsent e (fun c => { c with state := .withdrawn }) s))) := by
  refine (if_neg (by simp [hholds])).trans ?_
  rw [hentry, Option.filter_some_pos (by simpa using hright)]
  exact if_neg (by simp [hstrict])

theorem expireConsent_of_over {st : ConsentState} (he : e < 4) (hover : (nth s.roles.consents e).until_ ≤ s.time.d04)
    (hstate : (nth s.roles.consents e).state = st) :
    expireConsent e st s = (
      let c := nth s.roles.consents e
      auditConsent 9 ⟨0, 0⟩ c.ref c.items c.digest .refusedPolicy
        (raise Src.consentExpired (modConsent e (fun c => { c with state := .expired }) s))) :=
  if_pos (by simp [he, hover, hstate])
end

/-- Settles O49. -/
theorem consents : Obligations.Consents := by
  intro s j tag e
  refine ⟨fun hrun hrole hstrict htoken hitems hbase hroom => ?_,
    fun hrun hlock hrole hstrict htoken hentry hsign => ?_, fun hrun hholds hstrict hentry hright => ?_,
    fun he hover => ⟨fun hstate => ?_, fun hstate => ?_⟩⟩
  · exact done_of_eq ((onJob_of_running hrun).trans
      (consentProposeJob_of_passed hrole hstrict htoken hitems hbase hroom))
  · obtain ⟨m, hm⟩ := unlockAs_eq .consentCommit s
    rw [hm] at hstrict htoken hentry hsign ⊢
    exact done_of_eq ((onJob_of_running hrun).trans
      (consentSignJob_of_passed hlock hrole hm hstrict htoken hentry hsign))
  · exact done_of_eq ((onJob_of_running hrun).trans (consentWithdrawJob_of_holder hholds hstrict hentry hright))
  · exact done_of_eq (expireConsent_of_over he hover hstate)
  · exact done_of_eq (expireConsent_of_over he hover hstate)

end Sys2Proof.Machine

/-! SUPPORT. The radio (chapter 11): its jobs, the activities on the air, receptions and telegrams. -/

namespace Sys2Proof.Machine

/-! ### Radio jobs -/

section
variable {s : State} {j : Job} {c : RadioCtx} {tag t : Nat} {b : Band} {kind : ActKind}

theorem jitterPoint_eq (s : State) (wake : Bool) (u : Nat) :
    jitterPoint s wake u = match wake, s.radio.wakePoint with
      | true, some t => t
      | _, _ =>
        let due := s.time.ticks - (s.time.d04 - s.radio.dueAt)
        if s.radio.wasDue = true ∧ s.time.ticks ≤ due + u then due + u else s.time.ticks + u := by
  unfold jitterPoint
  cases wake
  · exact ite_eq_of_iff (by simp) rfl rfl
  · cases s.radio.wakePoint
    · exact ite_eq_of_iff (by simp) rfl rfl
    · rfl

theorem execWmbSend_of_running (hctx : ctxOf s j.id = none) (hrun : runningJob s tag 11 2 = some j) :
    execWmbSend tag s = .next (settle (
      let t := j.tpl.getD s.radio.builtTpl
      let d := drawMs 0 (items s).radio.drvJitterMs s
      enterCtx {
          job := j.id, kind := .send, at_ := some (jitterPoint s j.mark d.1), len := sendLen s t (profileNow s)
          template := t, slot := (at0 (items s).radio.templates t).slot, wake := j.mark }
        (modRadio (fun r => { r with wakePoint := if j.mark = true then none else r.wakePoint }) d.2))) :=
  done_of_eq ((onJob_of_running hrun).trans (if_neg (by simp [hctx])))

theorem execRfTest_of_running (hctx : ctxOf s j.id = none) (hrun : runningJob s tag 11 6 = some j)
    (hactor : jobActorOk j.desc j.actor = true) (hband : (items s).radio.bandOf (j.desc.arg 0 * 1000) = some b)
    (hport : b.port = j.desc.arg 1 / 32 % 2) (hlen : within 1 1000 (j.desc.arg 2) = true) :
    execRfTest tag s = .next (settle
      (enterCtx { job := j.id, kind := .test, at_ := some s.time.ticks, len := msTicks (j.desc.arg 2) } s)) := by
  refine done_of_eq ((onJob_of_running hrun).trans ?_)
  unfold rfTestJob
  rw [hband]
  exact (if_neg (by simp [hctx])).trans ((if_neg (by simp [hactor])).trans (if_neg (by simp [hport, hlen])))

theorem slotJob_eq (us : Nat) :
    slotJob j kind us s = if slotLate s j = true ∨ slotBandOk s j = false then slotMissed j.id s
      else enterCtx { job := j.id, kind := kind, at_ := some (leadTick s (j.desc.arg 0))
                      len := usTicks ((items s).radio.txLeadUs + us) } s :=
  ite_eq_of_iff (by simp) rfl rfl

theorem execSlotTx_of_running (hctx : ctxOf s j.id = none) (hrun : runningJob s tag 11 3 = some j) :
    execSlotTx tag s = .next (settle (slotJob j .slotTx
      (gyaleAir (bits 6 6 (j.desc.arg 2)) (bits 7 7 (j.desc.arg 2)) (slotFrame s j).length) s)) := by
  refine done_of_eq ((onJob_of_running hrun).trans ?_)
  unfold slotTxJob
  rw [hctx]

theorem execSlotRx_of_running (hctx : ctxOf s j.id = none) (hrun : runningJob s tag 11 4 = some j) :
    execSlotRx tag s = .next (settle (slotJob j .slotRx (j.desc.arg 1 % 2 ^ 24) s)) := by
  refine done_of_eq ((onJob_of_running hrun).trans ?_)
  unfold slotRxJob
  dsimp only
  rw [hctx]

theorem slotLate_tx_iff (hengine : j.desc.engine = 11) (hop : j.desc.opcode = 3) :
    slotLate s j = true ↔ ((j.desc.arg 1 % 2 ^ 16 : Nat) : Int)
      < signed 32 (linkNow s + startUs s + 2 ^ 32 - j.desc.arg 0) := by
  simp [slotLate, hengine, hop]

theorem slotLate_rx_iff (hengine : j.desc.engine = 11) (hop : j.desc.opcode = 4) :
    slotLate s j = true ↔ 0 < signed 32 (linkNow s + startUs s + 2 ^ 32 - j.desc.arg 0) := by
  simp [slotLate, hengine, hop]

theorem execTelegramDue_of_due (hup : radioUp s = true)
    (hdue : counted s s.radio.dueAt (secTicks (at0 (items s).radio.periodS (profileNow s))) = true) :
    execTelegramDue s = .next (settle (modRadio (fun x =>
      { x with dueAt := s.radio.dueAt + secTicks (at0 (items s).radio.periodS (profileNow s)), wasDue := true }) s)) :=
  done_of_eq (if_pos (by simp [hup, hdue]))

theorem execWatchProbeDue_of_due (hup : radioUp s = true) (hwatch : s.radio.watch = 2)
    (hdue : passed s s.radio.probeAt (secTicks (60 * (items s).radio.probeMin)) = true) :
    execWatchProbeDue s = .next (settle (modRadio (fun x =>
      { x with probeAt := x.probeAt + secTicks (60 * (items s).radio.probeMin) }) s)) :=
  done_of_eq (if_pos (by simp [hup, hwatch, hdue]))

/-- What a context whose instant has come does. -/
theorem beginCtx_of_ready (hjob : jobByTag s tag = some j) (hctx : ctxOf s j.id = some c) (hup : radioUp s = true)
    (hat : c.at_ = some t) (hdue : t ≤ s.time.ticks) (hfresh : c.started = false) (hphase : j.phase = .running) :
    beginCtx c.retried tag s =
      if slotLate s j = true then slotMissed j.id s else match airTaken s c.kind.rank c.len with
        | some free => deferStart c free s
        | none =>
          if c.kind.transmits = true ∧ txLow s = true then
            failCtx j.id .brownout 0 (modCtx j.id (fun x => { x with profF := c.kind == .send && profileNow s == 1 }) s)
          else if c.kind.transmits = true ∧ s.lintel.txHeld = true then s
          else
            let a := ctxActivity s c j
            startAct { a with txp := cappedPower s (actBand s a) a.port a.txp }
              (modCtx j.id (fun x => { x with started := true, profF := a.profF }) s) := by
  unfold beginCtx
  rw [hjob]
  dsimp only
  rw [hctx]
  dsimp only
  rw [hat]
  refine (if_neg (by simp [hup, hdue, hfresh, hphase])).trans (ite_eq_of_iff Iff.rfl rfl ?_)
  cases airTaken s c.kind.rank c.len with
  | some free => rfl
  | none => exact ite_eq_of_iff (by simp) rfl (ite_eq_of_iff (by simp) rfl rfl)
end

/-- Settles O50. -/
theorem radioJobs : Obligations.RadioJobs := by
  intro s j c tag t b
  refine ⟨fun hctx => ⟨fun hrun => ?_, execRfTest_of_running hctx, fun hrun => ?_, fun hrun => ?_⟩,
    fun hengine => ⟨slotLate_tx_iff hengine, slotLate_rx_iff hengine⟩, execTelegramDue_of_due, execWatchProbeDue_of_due,
    fun hjob hctx hup hat hdue hfresh hphase => ⟨fun hfirst => ?_, fun hretry => ?_⟩⟩
  · exact (execWmbSend_of_running hctx hrun).trans (by dsimp only; rw [jitterPoint_eq] <;> rfl)
  · rw [← slotJob_eq]
    exact execSlotTx_of_running hctx hrun
  · rw [← slotJob_eq]
    exact execSlotRx_of_running hctx hrun
  · exact done_of_eq (hfirst ▸ beginCtx_of_ready hjob hctx hup hat hdue hfresh hphase)
  · exact done_of_eq (hretry ▸ beginCtx_of_ready hjob hctx hup hat hdue hfresh hphase)

/-! ### Activities on the air -/

/-- A slot's job missed as its activity ends, or the activity's end alone. -/
theorem missed_eq (a : Activity) (t : State) :
    (a.job.map fun id => slotMissed id (endAct t)).getD (endAct t) = match a.job with
      | some id => slotMissed id (endAct t)
      | none => endAct t := by
  cases a.job <;> rfl

section
variable {s : State} {late rl air mv : Nat} {rssi : Int} {low : Bool} {b : Band} {xo : Option (Nat × Int)}

/-- The state in which lock has been detected: the crystal runs, and its start is measured. -/
def lockedState (xo : Option (Nat × Int)) (s : State) : State :=
  let on := modLintel (fun l => { l with xoOn := true }) (modRadio (fun r => { r with locked := true }) s)
  (xo.map fun x => modClock (fun c => { c with xoOk := true, xoStartUs := satNat 16 x.1, linkPpm := satInt 16 x.2 }) on).getD on

/-- What an activity does once lock is detected: it transmits, listening first where its band entry says so, or receives. -/
theorem atLock_eq (act : Activity) (s u : State) :
    (if act.kind.transmits then
      match actBand u act with
      | some b =>
        if b.lbtEn = 1 && act.tries = 0 then modAct (fun x => { x with phase := .lbt, since := s.time.ticks }) u
        else beginTx late u
      | none => beginTx late u
    else if tooLate u act late then
      (match act.job with
       | some id => slotMissed id (endAct u)
       | none => endAct u)
    else modAct (fun x => { x with phase := .onAir, since := s.time.ticks }) u)
    = if act.kind.transmits = true then
        (if (actBand u act).any (fun b => b.lbtEn == 1) = true ∧ act.tries = 0 then
          modAct (fun x => { x with phase := .lbt, since := s.time.ticks }) u
        else beginTx late u)
      else if tooLate u act late = true then (act.job.map fun id => slotMissed id (endAct u)).getD (endAct u)
      else modAct (fun x => { x with phase := .onAir, since := s.time.ticks }) u := by
  refine ite_eq_of_iff Iff.rfl ?_ (ite_eq_of_iff Iff.rfl (missed_eq act u).symm rfl)
  cases actBand u act with
  | none => exact (if_neg (by simp)).symm
  | some b => exact ite_eq_of_iff (by simp) rfl rfl

theorem execSynthLock_of_startUp (hphase : inPhase s .startUp = true)
    (hlock : lockOverdue s ((xo.map (·.1)).getD 0) = false) :
    execSynthLock xo late s = .next (settle (
      let act := s.radio.act
      let u := lockedState xo s
      if act.kind.transmits = true then
        (if (actBand u act).any (fun b => b.lbtEn == 1) = true ∧ act.tries = 0 then
          modAct (fun x => { x with phase := .lbt, since := s.time.ticks }) u
        else beginTx late u)
      else if tooLate u act late = true then (act.job.map fun id => slotMissed id (endAct u)).getD (endAct u)
      else modAct (fun x => { x with phase := .onAir, since := s.time.ticks }) u)) := by
  refine done_of_eq ((if_neg (by simp [hphase, hlock])).trans ?_)
  cases xo with
  | none => exact atLock_eq s.radio.act s (lockedState none s)
  | some x => exact atLock_eq s.radio.act s (lockedState (some x) s)

theorem beginTx_of_free (hlate : tooLate s s.radio.act late = false) (hpeak : s.lintel.peak ≠ .program) :
    beginTx late s = modLintel (fun l => { l with eraseSuspended := l.peak == .erase, peak := .tx })
      (modAct (fun a => { a with phase := .onAir, since := s.time.ticks }) s) :=
  (if_neg (by simp [hlate])).trans (if_neg hpeak)

theorem execLbtListenEnd_of_over (hphase : inPhase s .lbt = true) (hband : actBand s s.radio.act = some b)
    (hover : passed s s.radio.act.since (b.lbtUs * 512 / 15625) = true) :
    execLbtListenEnd rssi late s = .next (settle (
      let act := s.radio.act
      let u := modAct (fun x => { x with tries := act.tries + 1 }) s
      let v := modRadio (fun r => { r with lbtBusy := satInc r.lbtBusy }) (synthGood (endAct u))
      let wait := drawMs 1 b.lbtBackoffMs u
      if rssi < 2 * b.lbtDbm then beginTx late u
      else if tooLate s act late = true then (act.job.map fun id => slotMissed id (endAct u)).getD (endAct u)
      else if b.lbtTries ≤ act.tries + 1 then
        (match act.kind, act.job with
        | .slotTx, some id => slotMissed id v
        | _, _ => failAct act .refusedPolicy 1 v)
      else modAct (fun x => { x with phase := .backoff, since := s.time.ticks + wait.1 }) wait.2)) := by
  refine done_of_eq ((if_neg (by simp [hphase])).trans ?_)
  dsimp only
  rw [hband, missed_eq]
  exact if_neg (by simp [hover])

theorem execTxEnd_of_onAir (hphase : inPhase s .onAir = true) (htx : s.radio.act.kind.transmits = true) :
    execTxEnd rl low air mv s = .next (settle (
      let act := s.radio.act
      let n := if low = true then s.radio.paRun + 1 else 0
      let u := raiseIf (n == 4) Src.paLow (modRadio (fun r =>
        { r with
          lastAir := satNat 24 air, txCount := r.txCount + 1, paRun := if n = 4 then 0 else n
          rlLast := if 0 ≤ act.txp then min rl 63 else r.rlLast })
        (modLintel (fun l => { l with minLoaded := mv }) (synthGood (endAct s))))
      let v := if watchTakes s act = true then watchEval (min rl 63) u else u
      match act.kind, act.job with
      | .send, some id => telegramOut id false v
      | .answer, some id => telegramOut id true v
      | .probe, some id => leaveCtx id { status := .done, result := min rl 63 } v
      | .slotTx, some id => leaveCtx id { status := .done, result := air % 2 ^ 20 } v
      | _, some id => leaveCtx id { status := .done } v
      | _, none => v)) := by
  refine done_of_eq ((if_neg (by simp [hphase, htx])).trans ?_)
  simp only [decide_eq_true_eq] <;> rfl
end

/-- Settles O51. -/
theorem radioActivities : Obligations.RadioActivities := by
  intro s b xo late rl air mv rssi low
  refine ⟨fun hphase => ⟨execSynthLock_of_startUp hphase, beginTx_of_free, fun hunlocked hover => ?_, fun hoff hover => ?_⟩,
    fun hphase => done_of_eq (if_pos hphase), fun hidle hon hover => ?_, execLbtListenEnd_of_over, fun hphase hover => ?_,
    execTxEnd_of_onAir⟩
  · exact done_of_eq (if_pos (by simp [hphase, hunlocked, hover]))
  · exact done_of_eq (if_pos (by simp [hphase, hoff, hover]))
  · exact done_of_eq (if_pos (by simp [hidle, hon, hover]))
  · exact done_of_eq (if_pos (by simp [hphase, passed, hover]))

end Sys2Proof.Machine

/-! SUPPORT. The radio's receptions and telegrams (chapter 11). -/

namespace Sys2Proof.Machine

/-! ### Receptions -/

section
variable {s : State} {c : RadioCtx} {t : Nat} {x : WmbRx} {y : GyaleRx} {rssi : Int} {ok : Bool}

theorem execRxWindowOpen_of_due (hup : radioUp s = true) (hdue : windowDue s = some (c, t)) :
    execRxWindowOpen s = .next (settle (
      let u := modCtx c.job (fun c => { c with winAt := none }) s
      let len := msTicks (items s).radio.rxwLenMs
      if airTaken u 1 (startTicks + len) = none then startAct {
          kind := .window, job := some c.job, port := (items s).radio.portOf (b2n c.profF), profF := c.profF
          opens := t, until_ := t + len } (modCtx c.job (fun c => { c with windows := c.windows + 1 }) u)
      else finishSend c.job (modRadio (fun r => { r with skipped := satInc r.skipped }) u))) := by
  refine done_of_eq ?_
  rw [hdue]
  refine (if_neg (by simp [hup])).trans ?_
  dsimp only
  cases airTaken (modCtx c.job (fun c => { c with winAt := none }) s) 1
    (startTicks + msTicks (items s).radio.rxwLenMs) with
  | none => exact (if_pos rfl).symm
  | some free => exact (if_neg (by simp)).symm

theorem windowDue_spec (hdue : windowDue s = some (c, t)) :
    c ∈ s.radio.ctxs ∧ c.winAt = some t ∧ t ≤ s.time.ticks + startTicks := by
  obtain ⟨d, hmem, hd⟩ := List.exists_of_findSome?_eq_some hdue
  cases hwin : d.winAt with
  | none => simp [hwin] at hd
  | some at_ =>
    rw [hwin] at hd
    by_cases hle : at_ ≤ s.time.ticks + startTicks
    · obtain ⟨rfl, rfl⟩ : d = c ∧ at_ = t := by simpa [hle] using hd
      exact ⟨hmem, hwin, hle⟩
    · simp [hle] at hd

theorem execRxInterferenceAbort_of_sync (hphase : inPhase s .onAir = true) (hrx : s.radio.act.kind.transmits = false)
    (hsync : s.radio.act.sync = true) :
    execRxInterferenceAbort s = .next (settle (
      let u := modRadio (fun r => { r with interfered := satInc r.interfered }) s
      let v := modAct (fun x => { x with sync := false }) u
      match s.radio.act.kind, s.radio.act.job with
      | .slotRx, some id => leaveCtx id { status := .rxInterfered } (synthGood (endAct v))
      | .window, some id => closeIfOver (modCtx id (fun c => { c with interfered := true }) v)
      | _, _ => closeIfOver v)) :=
  done_of_eq (if_neg (by simp [hphase, hrx, hsync]))

/-- The state after a frame's end: nothing of a frame is in the air. -/
def heardState (s : State) : State := modAct (fun x => { x with sync := false }) s

/-- A frame that fails its check, counted. -/
def badFrame (s : State) : State :=
  closeIfOver (modAct (fun x => { x with bad := true }) (modRadio (fun r => { r with crcFail := satInc r.crcFail }) (heardState s)))

/-- A frame that passes its check, its level shown. -/
def goodFrame (rssi : Int) (s : State) : State := modRadio (fun r => { r with rssiLast := rssi }) (heardState s)

theorem execRxFrameEnd_gyale (hphase : inPhase s .onAir = true) (hrx : s.radio.act.kind.transmits = false)
    (hsync : s.radio.act.sync = true) :
    execRxFrameEnd (.gyale y ok) s = .next (settle (if (phrOk y.phr && ok) = false then badFrame s
      else match s.radio.act.kind, s.radio.act.job with
        | .slotRx, some id => leaveCtx id
          { status := .done, result := y.mpdu.length, out := y.mpdu ++ bytesInt 2 y.rssi }
          (synthGood (endAct (goodFrame y.rssi s)))
        | _, _ => closeIfOver (goodFrame y.rssi s))) := by
  refine done_of_eq ((if_neg (by simp [hphase, hrx, hsync])).trans (ite_eq_of_iff (Iff.of_eq (Bool.not_eq_true' _)) rfl ?_))
  cases s.radio.act.kind <;> cases s.radio.act.job <;> rfl

theorem execRxFrameEnd_wmb (hphase : inPhase s .onAir = true) (hrx : s.radio.act.kind.transmits = false)
    (hsync : s.radio.act.sync = true) :
    execRxFrameEnd (.wmb x) s = .next (settle (
      if (x.crcOk && modeHas (at0 (items s).radio.mode (b2n s.radio.act.profF)) (b2n !x.formatA)) = false then badFrame s
      else match s.radio.act.kind, s.radio.act.job with
        | .window, some id => windowFrame id x (goodFrame x.rssi s)
        | .sniff, _ =>
          if (s.radio.act.extended && isWakeFrame s x) = true then synthGood (endAct (wakeFrame (goodFrame x.rssi s)))
          else closeIfOver (goodFrame x.rssi s)
        | _, _ => closeIfOver (goodFrame x.rssi s))) := by
  refine done_of_eq ((if_neg (by simp [hphase, hrx, hsync])).trans (ite_eq_of_iff (Iff.of_eq (Bool.not_eq_true' _)) rfl ?_))
  cases s.radio.act.kind <;> cases s.radio.act.job <;> rfl

theorem execSniff_of_due (hkind : s.radio.act.kind ≠ .sniff) (hup : radioUp s = true)
    (hen : at0 (items s).radio.sniffEn (profileNow s) = 1)
    (hdue : passed s s.radio.sniffAt (msTicks (at0 (items s).radio.sniffPeriodMs (profileNow s))) = true) :
    execSniff rssi ok s = .next (settle (
      let f := profileNow s
      let u := modRadio (fun x => { x with sniffAt := s.time.ticks }) s
      if sniffSkipped s = true then modRadio (fun x => { x with skipped := satInc x.skipped }) u
      else startAct { kind := .sniff, port := (items s).radio.portOf f, profF := f == 1
                      until_ := s.time.ticks + usTicks (500 + at0 (items s).radio.sniffUs f) } u)) :=
  done_of_eq ((if_neg (by simpa using hkind)).trans (if_neg (by simp [hup, hen, hdue])))

theorem execSniff_of_listening (hkind : s.radio.act.kind = .sniff) (hphase : s.radio.act.phase = .onAir)
    (hsync : s.radio.act.sync = false) (hshort : s.radio.act.extended = false)
    (hover : passed s s.radio.act.since (usTicks (at0 (items s).radio.sniffUs (profileNow s))) = true) :
    execSniff rssi ok s = .next (settle (if 2 * (items s).radio.wakeDbm ≤ rssi ∧ ok = true then
        modAct (fun x => { x with extended := true, until_ := s.radio.act.since + msTicks (items s).radio.wakeWaitMs }) s
      else synthGood (endAct s))) :=
  done_of_eq ((if_pos (by simp [hkind])).trans ((if_neg (by simp [hphase, hsync])).trans ((if_neg (by simp [hshort])).trans
    ((if_neg (by simp [hover])).trans (ite_eq_of_iff (by simp) rfl rfl)))))

theorem execSniff_of_extended (hkind : s.radio.act.kind = .sniff) (hphase : s.radio.act.phase = .onAir)
    (hsync : s.radio.act.sync = false) (hlong : s.radio.act.extended = true) (hover : s.radio.act.until_ ≤ s.time.ticks) :
    execSniff rssi ok s = .next (settle (synthGood (endAct s))) :=
  done_of_eq ((if_pos (by simp [hkind])).trans ((if_neg (by simp [hphase, hsync])).trans ((if_pos hlong).trans (if_pos hover))))
end

/-! ### Telegrams -/

section
variable {s : State} {j : Job} {w : Nat × Nat} {c : RadioCtx} {tag : Nat} {h : HeldCmd} {rivals : List (Nat × Nat)}
  {o : WriteObs}

theorem execWmbBuild_of_running (hnew : s.radio.waitRes.any (fun w => w.1 == j.id) = false)
    (hrun : runningJob s tag 11 1 = some j) (htpl : j.desc.arg 0 % 16 < (items s).radio.templates.length) :
    execWmbBuild tag s = .next (settle (buildFor j.id (j.desc.arg 0 % 16) (buildNow j.id (j.desc.arg 0 % 16)) s)) :=
  done_of_eq ((onJob_of_running hrun).trans ((if_neg (by simp [hnew])).trans (if_neg (Nat.not_le.mpr htpl))))

theorem execWatchProbe_of_running (hnew : s.radio.waitRes.any (fun w => w.1 == j.id) = false)
    (hrun : runningJob s tag 11 5 = some j) (hctx : ctxOf s j.id = none) (hactor : jobActorOk j.desc j.actor = true) :
    execWatchProbe tag s = .next (settle (buildFor j.id s.radio.builtTpl (probeNow j.id s.radio.builtTpl) s)) :=
  done_of_eq ((onJob_of_running hrun).trans ((if_neg (by simp [hnew, hctx])).trans (if_neg (by simp [hactor]))))

theorem execCtrReserveCommit_of_job (hwait : s.radio.waitRes.find? (fun w => txcFree s w.2) = some w)
    (hjob : s.fabric.jobs.find? (fun j => j.id == w.1 && j.phase == .running) = some j) :
    execCtrReserveCommit s = .next (settle (
      let u := modRadio (fun r => { r with waitRes := r.waitRes.erase w }) s
      if j.desc.opcode = 5 then probeNow j.id s.radio.builtTpl u else buildNow j.id (j.desc.arg 0 % 16) u)) := by
  refine done_of_eq ?_
  rw [hwait]
  dsimp only
  rw [hjob]

theorem execCommandHoldEnd_of_held (hon : s.lintel.mainOn = true)
    (hfirst :
      let ended := s.radio.held.filter fun h => decide (h.until_ ≤ s.time.ticks)
      heldFirst (fun a b => decide (a.at_ < b.at_))
        (ended.filter fun h => h.until_ == ended.foldl (fun m h => min m h.until_) s.time.ticks) = some h) :
    execCommandHoldEnd rivals o s = .next (settle (
      let others := (s.radio.held.erase h).filter (heldClash h)
      match heldFirst heldBefore (others.filter fun x => heldBefore x h) with
      | some x => loseCommand h x.master s
      | none => submitCommand o rivals h (others.foldl (fun t x => loseCommand x h.master t) s))) := by
  refine done_of_eq ((if_neg (by simp [hon])).trans ?_)
  dsimp only at hfirst ⊢
  simp only [hfirst] <;>
    cases heldFirst heldBefore (((s.radio.held.erase h).filter (heldClash h)).filter fun x => heldBefore x h) <;> rfl

section
variable (hdue : s.radio.ctxs.find? (fun c => c.answerAt.any fun t => decide (t ≤ s.time.ticks)) = some c)
  (hup : radioUp s = true) (hair : airTaken s 1 (sendLen s c.template (b2n c.profF)) = none)
include hdue hup hair

theorem execCommandAnswer_of_low (hlow : txLow s = true) :
    execCommandAnswer s = .next (settle (failCtx c.job .brownout 0 s)) := by
  refine done_of_eq ?_
  rw [hdue]
  exact (if_neg (by simp [hup, hair])).trans (if_pos hlow)

theorem execCommandAnswer_of_free (hlow : txLow s = false) (hheld : s.lintel.txHeld = false)
    (hfree : txcFree s (at0 (items s).radio.templates c.template).slot = true) :
    execCommandAnswer s = .next (settle (
      let tpl := at0 (items s).radio.templates c.template
      let u := takeTxc tpl.slot s
      let a : Activity := {
        kind := .answer, job := some c.job, port := (items s).radio.portOf (b2n c.profF), profF := c.profF
        txp := (items s).radio.drivePower s.radio.watch
        until_ := s.time.ticks + sendLen s c.template (b2n c.profF) }
      startAct { a with txp := cappedPower s (actBand s a) a.port a.txp }
        (modCtx c.job (fun x =>
          { x with
            answerAt := none, answerJob := none, answer := []
            frame := tplFrame u tpl (nth u.radio.txc tpl.slot) (answerBytes s c) }) u))) := by
  refine done_of_eq ?_
  rw [hdue]
  exact (if_neg (by simp [hup, hair])).trans ((if_neg (by simp [hlow])).trans ((if_neg (by simp [hheld])).trans
    (if_neg (by simp [hfree]))))
end
end

/-- Settles O52. -/
theorem radioReception : Obligations.RadioReception := by
  refine ⟨fun s c t x y rssi ok => ?_, fun s j w c tag h rivals o => ?_⟩
  · refine ⟨execRxWindowOpen_of_due, windowDue_spec, fun hkind hover hsync => ?_, fun hphase hrx => ⟨fun hsync hopen => ?_,
      fun hsync => ⟨execRxInterferenceAbort_of_sync hphase hrx hsync, execRxFrameEnd_gyale hphase hrx hsync,
        execRxFrameEnd_wmb hphase hrx hsync⟩⟩, execSniff_of_due,
      fun hkind hphase hsync => ⟨execSniff_of_listening hkind hphase hsync, execSniff_of_extended hkind hphase hsync⟩⟩
    · exact done_of_eq (if_pos (by simp [hkind, hover, hsync]))
    · refine done_of_eq (if_pos ?_)
      simpa [hphase, hrx, hsync] using hopen
  · refine ⟨fun hnew => ⟨fun hrun hop htpl => ?_, fun hrun hop hctx hactor => ?_⟩, execCtrReserveCommit_of_job,
      execCommandHoldEnd_of_held, fun hdue hup hair => ⟨execCommandAnswer_of_low hdue hup hair,
        execCommandAnswer_of_free hdue hup hair⟩⟩
    · exact (execWmbBuild_of_running hnew hrun htpl).trans (congrArg (fun u => Host.Outcome.next (settle u)) (ite_eq_of_iff Iff.rfl rfl
        (ite_eq_of_iff Iff.rfl (ite_eq_of_iff Iff.rfl (if_neg (by simp [hop])).symm rfl) rfl)))
    · exact (execWatchProbe_of_running hnew hrun hctx hactor).trans (congrArg (fun u => Host.Outcome.next (settle u))
        (ite_eq_of_iff Iff.rfl rfl (ite_eq_of_iff Iff.rfl (ite_eq_of_iff Iff.rfl (if_pos hop).symm rfl) rfl)))

end Sys2Proof.Machine

/-! SUPPORT. The link (chapter 12): the counters of its frames, joining, connections and routed messages. -/

namespace Sys2Proof.Machine

/-! ### The counters of a sender's frames -/

section
variable {s t : State} {x : GyaleRx} {e : Bool} {h : LinkHdr} {i : Nat}

theorem neighOf_lt {addr : List Byte} (hentry : neighOf s addr = some i) : i < 32 := by
  have hmem := List.mem_of_find?_eq_some hentry
  simpa using hmem

/-- A sender's entry after a frame of it has passed. -/
def storeNeigh (i : Nat) (h : LinkHdr) (s : State) : State :=
  modLink (fun l => { l with neigh := put l.neigh i ⟨true, h.src, h.fcnt, some h.sn.toNat, s.time.ticks⟩ }) s

theorem storeNeigh_fcnt (hi : i < 32) : (nth (storeNeigh i h s).link.neigh i).fcnt = h.fcnt := by
  simp [storeNeigh, modLink, nth_put_same _ _ _ hi]

/-- A secured frame of a known sender passes the checks only where its counter is above the entry's, which takes it. -/
theorem checkFrame_pass_known (hpass : checkFrame x e s = (.pass h, t)) (hsec : h.sec = true)
    (hentry : neighOf s h.src = some i) : (nth s.link.neigh i).fcnt < h.fcnt ∧ t = storeNeigh i h s := by
  unfold checkFrame at hpass
  dsimp only at hpass
  split at hpass
  · cases hpass
  · split at hpass
    · cases hpass
    · split at hpass
      · cases hpass
      · split at hpass
        · rename_i hclear
          cases hpass
          exact absurd hsec (by simpa using hclear)
        · split at hpass
          · rename_i k hk
            split at hpass
            · cases hpass
            · rename_i habove
              split at hpass
              · cases hpass
              · cases hpass
                obtain rfl : k = i := Option.some.inj (hk.symm.trans hentry)
                exact ⟨Nat.lt_of_not_le habove, rfl⟩
          · rename_i hunknown
            have hnone : neighOf s (LinkHdr.parse x.mpdu).src = none := hunknown
            split at hpass
            · cases hpass
            · split at hpass <;> cases hpass
              exact absurd (hnone.symm.trans hentry) (by simp)
end

/-- Settles O55. -/
theorem linkCountersRise : Obligations.LinkCountersRise := by
  intro s t x e h i hpass hsec hentry
  obtain ⟨hlt, rfl⟩ := checkFrame_pass_known hpass hsec hentry
  exact ⟨hlt, storeNeigh_fcnt (neighOf_lt hentry)⟩

end Sys2Proof.Machine

/-! SUPPORT. Joining the link (R414, R420, R424, R425, R428). -/

namespace Sys2Proof.Machine

section
variable {s t u : State} {x : GyaleRx} {ch c f w : Nat} {h : LinkHdr} {j b : Candidate} {chal : List Byte}

theorem execScanListen_of_due (hon : linkOff s = false) (hst : s.link.st = 1) (hdue : s.link.scanAt ≤ s.time.ticks) :
    execScanListen s = .next (settle (
      let l := (items s).link
      let n := s.link.scanCh
      slotRx ((linkNow s + (items s).radio.txLeadUs) % 2 ^ 32) (l.scanMs * 1000) (at0 (linkPlan s).adv n) 0
        (modLink (fun x =>
          { x with
            scanAt := if n < 2 then s.time.ticks + msTicks l.scanMs
              else s.time.ticks + secTicks l.scanPeriodS - 2 * msTicks l.scanMs
            scanCh := (n + 1) % 3, best := if n = 0 then none else x.best }) s))) :=
  done_of_eq (if_neg (by simp [hst, hon, hdue]))

theorem execGyaleBeaconRx_of_beacon (hon : linkOff s = false) (hpass : checkFrame x false s = (.pass h, t))
    (htype : h.type = 0) (hclear : h.sec = false) (hst : t.link.st = 1) (hcand : beaconCandidate t h x ch = some b) :
    execGyaleBeaconRx x ch s = .next (settle (
      let better := match t.link.best with
        | none => true
        | some o => decide (b.depth < o.depth) || (b.depth == o.depth && decide (o.rssi < b.rssi)) || b.addr == o.addr
      if better = true then modLink (fun l => { l with best := some b }) t else t)) := by
  refine done_of_eq ((if_neg (by simp [hon])).trans ?_)
  rw [hpass]
  refine (if_neg (by simp [htype, hclear, hst])).trans ?_
  rw [hcand]
  exact if_neg (by simp [hst])

section
variable (hon : linkOff s = false) (hst : s.link.st = 1) (hbest : s.link.best = some b)
  (htime : (s.link.reqWait = none ∧ passed s b.at_ (usTicks 300 + 1) = false)
    ∨ (s.link.reqWait = some w ∧ passed s w (msTicks 2 + 1) = false))
include hon hst hbest htime

/-- A request whose time has come and not passed takes its challenge. -/
theorem execConnReqSend_of_due : execConnReqSend s = .next (settle (
    match takeRandom 8 s with
    | none => modLink (fun x => { x with reqWait := some (x.reqWait.getD s.time.ticks) }) s
    | some (chal, s1) =>
      match takeFcnt s1 with
      | (none, s2) => s2
      | (some f, s2) =>
        let l := (items s).link
        let s3 := (takeSn b.addr s2).2
        let frame := sealFrame s3 1 false false b.addr (takeSn b.addr s2).1 f
          (bytesLE 1 l.nodeKind ++ chal ++ bytesLE 1 l.ownPpm ++ bytesLE 1 (l.fec + 2 * l.rate))
        let since := ticksUs (s.time.ticks - b.at_)
        let t := linkNow s + 2 ^ 32 - since + max 300 since
        let air := phyAir 0 frame.length
        slotRx ((t + air) % 2 ^ 32) l.reqWinUs b.ch 0
          (slotTx (t % 2 ^ 32) b.ch 0 frame
            (modLink (fun x =>
              { x with
                st := if x.st = 1 then 2 else x.st, best := none, reqWait := none
                join := some { b with chal := chal, at_ := b.at_ + usTicks (max 300 since + air) } }) s3)))) := by
  refine done_of_eq ?_
  dsimp only
  rw [hbest]
  refine (if_neg ?_)
  obtain ⟨hwait, hnow⟩ | ⟨hwait, hnow⟩ := htime <;> simp [hon, hst, hwait, hnow]

theorem execConnReqSend_of_wait (hempty : takeRandom 8 s = none) : execConnReqSend s = .next (settle (
    modLink (fun x => { x with reqWait := some (x.reqWait.getD s.time.ticks) }) s)) := by
  rw [execConnReqSend_of_due hon hst hbest htime, hempty]

theorem execConnReqSend_of_random (hrandom : takeRandom 8 s = some (chal, t)) (hcount : takeFcnt t = (some f, u)) :
    execConnReqSend s = .next (settle (
      let l := (items s).link
      let v := (takeSn b.addr u).2
      let frame := sealFrame v 1 false false b.addr (takeSn b.addr u).1 f
        (bytesLE 1 l.nodeKind ++ chal ++ bytesLE 1 l.ownPpm ++ bytesLE 1 (l.fec + 2 * l.rate))
      let air := phyAir 0 frame.length
      let since := ticksUs (s.time.ticks - b.at_)
      let at_ := linkNow s + 2 ^ 32 - since + max 300 since
      slotRx ((at_ + air) % 2 ^ 32) l.reqWinUs b.ch 0
        (slotTx (at_ % 2 ^ 32) b.ch 0 frame (modLink (fun x =>
          { x with
            st := if x.st = 1 then 2 else x.st, best := none, reqWait := none
            join := some { b with chal := chal, at_ := b.at_ + usTicks (max 300 since + air) } }) v)))) := by
  rw [execConnReqSend_of_due hon hst hbest htime, hrandom]
  dsimp only
  rw [hcount]
end

section
variable (hjoin : s.link.join = some j)
include hjoin

theorem execConnRspTimeout_of_late (hlate : passed s j.at_ (usTicks (items s).link.reqWinUs) = true) :
    execConnRspTimeout s = .next (settle (joinFails s)) := by
  refine done_of_eq ?_
  rw [hjoin]
  exact if_pos hlate

/-- An answer to the request that the checks pass, by its challenge and its result. -/
theorem execGyaleConnRspRx_of_answer (hon : linkOff s = false) (hst : s.link.st = 2 ∨ s.link.st = 3)
    (hsrc : (LinkHdr.parse x.mpdu).src = j.addr)
    (hnow : passed s j.at_ (usTicks ((items s).link.reqWinUs + rxAirUs x) + 1) = false)
    (hpass : checkFrame x true s = (.pass h, t)) (htype : h.type = 2) (hlen : h.payload.length = 31) :
    execGyaleConnRspRx x s = done (
      if slice h.payload 1 8 ≠ j.chal then s
      else if leAt h.payload 0 1 ≠ 0 then joinFails (dropStale h.src t)
      else takeConn j h.payload (dropStale h.src t)) := by
  refine congrArg done ?_
  rw [hjoin]
  refine (if_neg ?_).trans ?_
  · obtain hst | hst := hst <;> simp [hon, hst, hsrc, hnow]
  · rw [hpass]
    exact ite_eq_of_iff (by simp [htype, hlen]) rfl rfl
end

theorem takeConn_joining (hfree : freeConnSlot s = some c) (hst : s.link.st = 2) (p : List Byte) :
    takeConn j p s = setLevel Src.orphan false (modLink (fun l =>
      { l with st := 3, depth := j.depth + 1, root := j.root, best := none, join := none, beaconAt := s.time.ticks })
      (modConn c (fun _ => connFrom s j p) s)) := by
  unfold takeConn
  rw [hfree]
  simp [hst, modLink, modConn]

theorem takeConn_reader (hfree : freeConnSlot s = some c) (hst : s.link.st = 3) (p : List Byte) :
    takeConn j p s = modLink (fun l => { l with best := none, join := none }) (modConn c (fun _ => connFrom s j p) s) := by
  unfold takeConn
  rw [hfree]
  simp [hst, modLink, modConn]

section
variable (hon : linkOff s = false) (hkind : (items s).link.nodeKind = 1) (hst : s.link.st = 3)
include hon hkind hst

theorem execGyaleConnReqRx_of_request (hpass : checkFrame x true s = (.pass h, t)) (htype : h.type = 1)
    (hlen : h.payload.length = 11) (hcount : takeFcnt t = (some f, u)) :
    execGyaleConnReqRx x ch s = .next (settle (
      let l := (items s).link
      let v := ((connOf u h.src).map fun c => freeConn c u).getD u
      let slot := if (children v).length < l.childMax then freeConnSlot v else none
      let sleepy := leAt h.payload 0 1 == 0
      let ivl := if sleepy then l.slotPeriodS else l.actIntervalMs
      let base := Config.freeIndex s.draws % 64
      let inc := Config.freeIndex (s.draws + 1) % 128 * 2 + 1
      let rspEnd := s.time.ticks + usTicks (300 + phyAir 0 63)
      let free := rspEnd + Config.freeIndex (s.draws + 2) % (if sleepy then secTicks ivl else msTicks ivl)
      let first := if sleepy then placeSlot v (secTicks ivl) 64 free else free
      let cap := leAt h.payload 10 1
      let phy := b2n (l.rate == 1 && cap.testBit 1) + 2 * b2n (l.fec == 1 && cap.testBit 0)
      let payload := bytesLE 1 (if slot.isSome then 0 else 1) ++ slice h.payload 1 8 ++ bytesLE 4 ivl ++ bytesLE 1 base
        ++ bytesLE 1 inc ++ bytesLE 8 (linkPlan s).map ++ bytesLE 4 ((first - rspEnd) * 15625 / 512)
        ++ bytesLE 2 (l.supervMs / 10) ++ bytesLE 1 l.ownPpm ++ bytesLE 1 phy
      let n := takeSn h.src v
      let sent := slotTx ((linkNow s + 300) % 2 ^ 32) ch 0 (sealFrame n.2 2 false false h.src n.1 f payload) (drew 3 n.2)
      match slot with
      | none => sent
      | some c => modConn c (fun _ => {
          kind := 2, addr := h.src, sleepy := sleepy, central := !sleepy, hopInc := inc, hopBase := base
          interval := ivl, peerPpm := leAt h.payload 9 1, map := (linkPlan s).map, superv := l.supervMs / 10
          phy := phy, nextAt := first, seenAt := s.time.ticks, syncAt := s.time.ticks }) sent)) := by
  refine done_of_eq ((if_neg (by simp [hon, hkind, hst])).trans ?_)
  rw [hpass]
  refine (if_neg (by simp [htype, hlen])).trans ?_
  rw [hcount]
  simp only [decide_eq_true_eq]
  cases connOf u h.src <;> rfl

theorem execBeaconSend_of_due (hdue : passed s s.link.beaconAt (msTicks (items s).link.beaconMs) = true) :
    execBeaconSend s = .next (settle (
      let l := (items s).link
      let ch := at0 (linkPlan s).adv (s.link.beaconSn.toNat % 3)
      let frame := beaconFrame s (bytesLE 2 l.netId ++ bytesLE 1 s.link.depth
        ++ bytesLE 1 (b2n (decide ((children s).length < l.childMax))) ++ s.link.root ++ bytesLE 8 (linkPlan s).map)
      let t := linkNow s + (items s).radio.txLeadUs
      slotRx ((t + phyAir 0 frame.length + 250) % 2 ^ 32) (100 + headUs) ch 0
        (slotTx (t % 2 ^ 32) ch 0 frame
          (modLink (fun x => { x with beaconAt := s.time.ticks, beaconSn := x.beaconSn + 1 }) s)))) :=
  done_of_eq (if_neg (by simp [hon, hkind, hst, hdue]))
end
end

/-- Settles O53. -/
theorem linkJoining : Obligations.LinkJoining := by
  intro s t u x ch c f w h j b chal hon
  refine ⟨fun hst => ⟨execScanListen_of_due hon hst, execGyaleBeaconRx_of_beacon hon, fun hbest htime =>
      ⟨execConnReqSend_of_wait hon hst hbest htime, execConnReqSend_of_random hon hst hbest htime⟩⟩,
    fun hjoin => ⟨execConnRspTimeout_of_late hjoin, fun hst hsrc hnow hpass htype hlen => ?_⟩,
    fun hkind hst => ⟨execGyaleConnReqRx_of_request hon hkind hst, execBeaconSend_of_due hon hkind hst⟩,
    fun hst hlate => done_of_eq (if_pos ?_)⟩
  · have hanswer := execGyaleConnRspRx_of_answer hjoin hon hst hsrc hnow hpass htype hlen
    refine ⟨fun hchal => ?_, fun hchal hok hfree => ⟨fun hst => ?_, fun hst => ?_⟩, fun hchal hno => ?_⟩
    · exact hanswer.trans (done_of_eq (if_pos hchal))
    · exact hanswer.trans (done_of_eq ((if_neg (by simp [hchal])).trans ((if_neg (by simp [hok])).trans
        (takeConn_joining hfree hst _))))
    · exact hanswer.trans (done_of_eq ((if_neg (by simp [hchal])).trans ((if_neg (by simp [hok])).trans
        (takeConn_reader hfree hst _))))
    · exact hanswer.trans (done_of_eq ((if_neg (by simp [hchal])).trans (if_pos hno)))
  · obtain hst | hst := hst <;> simp [hst, hon, hlate]

end Sys2Proof.Machine

/-! SUPPORT. The link's connections and routed messages (R426 to R436, R440, R441). -/

namespace Sys2Proof.Machine

section
variable {s t : State} {x : GyaleRx} {c : Nat} {h : LinkHdr} {type : Nat} {deliver : Nat → LinkHdr → State → State}

/-! ### Frames of a live connection's peer -/

theorem acceptOn_of_duplicate (hon : linkOff s = false) (hdup : checkFrame x false s = (.duplicate h, t))
    (hpeer : connOf t h.src = some c) :
    acceptOn x type deliver s =
      (let heard := modConn c (fun y => { y with syncAt := s.time.ticks, listening := false }) t
      if h.ackReq = true then sendAck c h x heard else heard) := by
  refine (if_neg (by simp [hon])).trans ?_
  rw [hdup]
  dsimp only
  rw [hpeer]

theorem acceptOn_of_pass (hon : linkOff s = false) (hpass : checkFrame x false s = (.pass h, t))
    (hpeer : connOf t h.src = some c) (htype : h.type = type) :
    acceptOn x type deliver s =
      (let y := nth t.link.conns c
      let u := deliver c h (modLink (fun l => { l with rxOk := l.rxOk + 1 }) (hearConn c t))
      if h.ackReq || (y.sleepy && y.kind == 2 && !y.heard && type != 4) then sendAck c h x u else u) := by
  refine (if_neg (by simp [hon])).trans ?_
  rw [hpass]
  dsimp only
  rw [hpeer]
  exact if_neg (by simp [htype])

/-- A frame other than an ACK is acknowledged where it asks for it or a sleepy child polls with it. -/
theorem acceptOn_of_frame (hon : linkOff s = false) (hpass : checkFrame x false s = (.pass h, t))
    (hpeer : connOf t h.src = some c) (htype : h.type = type) (hack : type ≠ 4) :
    acceptOn x type deliver s =
      (let y := nth t.link.conns c
      let u := deliver c h (modLink (fun l => { l with rxOk := l.rxOk + 1 }) (hearConn c t))
      if h.ackReq = true ∨ (y.sleepy = true ∧ y.kind = 2 ∧ y.heard = false) then sendAck c h x u else u) :=
  (acceptOn_of_pass hon hpass hpeer htype).trans (ite_eq_of_iff (by simp [hack, and_assoc]) rfl rfl)

theorem acceptOn_of_ack (hon : linkOff s = false) (hpass : checkFrame x false s = (.pass h, t))
    (hpeer : connOf t h.src = some c) (htype : h.type = 4) :
    acceptOn x 4 deliver s =
      (let u := deliver c h (modLink (fun l => { l with rxOk := l.rxOk + 1 }) (hearConn c t))
      if h.ackReq = true then sendAck c h x u else u) :=
  (acceptOn_of_pass hon hpass hpeer htype).trans (ite_eq_of_iff (by simp) rfl rfl)

theorem execGyaleTermRx_of_pass (hon : linkOff s = false) (hpass : checkFrame x false s = (.pass h, t))
    (hpeer : connOf t h.src = some c) (htype : h.type = 6) :
    execGyaleTermRx x s = .next (settle (
      let y := nth t.link.conns c
      let v := modLink (fun l => { l with rxOk := l.rxOk + 1 }) (freeConn c t)
      if y.kind = 1 ∨ (y.kind = 3 ∧ parentConn v = none) then enterScan v else v)) := by
  refine done_of_eq ((if_neg (by simp [hon])).trans ?_)
  rw [hpass]
  refine (if_neg (by simp [htype])).trans ?_
  rw [hpeer]
  exact ite_eq_of_iff (by simp) rfl rfl

/-- What an ACK does to the connection before it is acknowledged itself. -/
theorem execGyaleAckRx_of_pass (hon : linkOff s = false) (hpass : checkFrame x false s = (.pass h, t))
    (hpeer : connOf t h.src = some c) (htype : h.type = 4) :
    execGyaleAckRx x s = .next (settle (
      let u := modLink (fun l => { l with rxOk := l.rxOk + 1 }) (hearConn c t)
      let z := nth u.link.conns c
      let acked := fun (w : State) => if h.ackReq = true then sendAck c h x w else w
      acked (match z.sent with
        | none => u
        | some f =>
          let margin := ((leAt h.payload 1 1 : Int) - 150) - sensitivity z.phy
          let v := powerLoop (linkPlan u).port margin (modConn c (fun k =>
            { k with
              sent := none
              nextAt := if z.sleepy then ((k.nextAt : Int) + signed 16 (leAt h.payload 2 2) * 512 / 15625).toNat
                        else k.nextAt }) u)
          let w := if z.kind = 1 then modLink (fun l => { l with margin := margin, parentRssi := leAt h.payload 1 1 }) v
            else v
          let w := dropForwards c ((f.job.map fun j => sendDone j (some f.frag) w).getD w)
          if h.payload.length ≠ 4 ∨ f.sn ≠ some (leAt h.payload 0 1) then u
          else if (nextFrame (nth w.link.conns c)).isSome = true ∧ eventOpen u c = true
            then sendNext c ((linkNow u + 300) % 2 ^ 32) w
          else if h.more = true ∧ eventOpen u c = true then answerListen c (linkNow u) w
          else endEvent c w))) := by
  refine done_of_eq ((acceptOn_of_ack hon hpass hpeer htype).trans ?_)
  dsimp only
  cases (nth (modLink (fun l => { l with rxOk := l.rxOk + 1 }) (hearConn c t)).link.conns c).sent with
  | none => rfl
  | some f =>
    refine congrArg (fun w => if h.ackReq = true then sendAck c h x w else w) (ite_eq_of_iff (by simp) rfl ?_)
    cases f.job <;> exact ite_eq_of_iff (by simp) rfl (ite_eq_of_iff (by simp) rfl rfl)

/-! ### Events -/

theorem execConnectionEvent_of_due (hon : linkOff s = false) (hdue : eventDue s (nth s.link.conns c) = true)
    (hawake : (nth s.link.conns c).sleepy = false) : execConnectionEvent c s = .next (settle (runEvent c (sendOwed s))) :=
  done_of_eq (if_pos (by simp [hon, hdue, hawake]))

theorem execSleepySlot_of_due (hon : linkOff s = false) (hdue : eventDue s (nth s.link.conns c) = true)
    (hsleepy : (nth s.link.conns c).sleepy = true) : execSleepySlot c s = .next (settle (runEvent c (sendOwed s))) :=
  done_of_eq (if_pos (by simp [hon, hdue, hsleepy]))

theorem execEventAnswerTimeout_of_event (hon : linkOff s = false) (hevent : (nth s.link.conns c).inEvent = true) :
    execEventAnswerTimeout c s = .next (settle (
      let y := nth s.link.conns c
      let l := (items s).link
      match y.sent with
      | none => endEvent c s
      | some f =>
        let r := sendOn c f.type true (!y.queue.isEmpty) f.payload f.sn ((linkNow s + 300) % 2 ^ 32) s
        if f.tries < l.retryN ∧ passed s y.eventAt (msTicks l.evtMaxMs) = false then
          (if r.2.isSome = true then modConn c (fun y => { y with sent := some { f with tries := f.tries + 1 } }) r.1 else r.1)
        else endEvent c (giveUpSent c s))) := by
  refine done_of_eq ((if_neg (by simp [hon, hevent])).trans ?_)
  dsimp only
  cases (nth s.link.conns c).sent with
  | none => rfl
  | some f => exact ite_eq_of_iff (by simp) rfl rfl

/-! ### Link jobs -/

variable {j : Job} {tag : Nat}

theorem execLinkSend_of_running (hon : linkOff s = false) (hrun : runningJob s tag 12 1 = some j)
    (hnew : s.link.sends.any (fun x => x.job == j.id) = false) (hst : s.link.st = 3)
    (hlen : within 1 1024 (inputBytes s j 0).length = true) :
    execLinkSend tag s = .next (settle (
      let up := j.desc.arg 0 % 2 == 0
      (sendMessage up (if up then (items s).link.ttlUp else j.desc.arg 0 / 2 % 16)
        (if up then s.link.root else bytesLE 4 (j.desc.arg 1) ++ bytesLE 4 (j.desc.arg 2)) (inputBytes s j 0)
        (some j.id) s).1)) :=
  done_of_eq ((onJob_of_running hrun).trans ((if_neg (by simp [hnew])).trans (if_neg (by simp [hst, hon, hlen]))))

theorem execLinkLeave_of_running (hon : linkOff s = false) (hrun : runningJob s tag 12 2 = some j)
    (hactor : jobActorOk j.desc j.actor = true) :
    execLinkLeave tag s = .next (settle (engineEnds j.id { status := .done } (leaveParent 1 s))) :=
  done_of_eq ((onJob_of_running hrun).trans ((if_neg (by simp [hactor])).trans
    (congrArg (engineEnds j.id _) (if_neg (by simp [hon])))))

theorem execLinkRescan_of_running (hon : linkOff s = false) (hrun : runningJob s tag 12 3 = some j)
    (hactor : jobActorOk j.desc j.actor = true) :
    execLinkRescan tag s = .next (settle (engineEnds j.id { status := .done }
      (enterScan (((parentConn s).map fun c => freeConn c s).getD s)))) := by
  refine done_of_eq ((onJob_of_running hrun).trans ((if_neg (by simp [hactor])).trans
    (congrArg (engineEnds j.id _) ((if_neg (by simp [hon])).trans (congrArg enterScan ?_)))))
  cases parentConn s <;> rfl
end

/-- Settles O54. -/
theorem linkConnections : Obligations.LinkConnections := by
  refine ⟨fun s t x c h hon => ?_, fun s t x j tag c h hon => ?_⟩
  · refine ⟨fun hdue => ⟨execConnectionEvent_of_due hon hdue, execSleepySlot_of_due hon hdue⟩,
      execEventAnswerTimeout_of_event hon, fun hevent hlisten => ?_, fun hkind hawake hlate => ?_,
      fun hdup hpeer => ⟨done_of_eq (acceptOn_of_duplicate hon hdup hpeer), done_of_eq (acceptOn_of_duplicate hon hdup hpeer)⟩,
      fun hpass hpeer => ⟨fun htype => done_of_eq (acceptOn_of_frame hon hpass hpeer htype (by decide)),
        execGyaleAckRx_of_pass hon hpass hpeer, execGyaleTermRx_of_pass hon hpass hpeer⟩⟩
    · exact done_of_eq (if_pos (by simp [hon, hevent, hlisten]))
    · exact done_of_eq (if_pos (by simp [hon, hkind, hawake, hlate]))
  · exact ⟨fun hpass hpeer => ⟨fun htype => done_of_eq (acceptOn_of_frame hon hpass hpeer htype (by decide)),
        fun htype => done_of_eq (acceptOn_of_frame hon hpass hpeer htype (by decide))⟩,
      done_of_eq (if_neg (by simp [hon])), done_of_eq rfl, execLinkSend_of_running hon, execLinkLeave_of_running hon,
      execLinkRescan_of_running hon⟩

end Sys2Proof.Machine

/-! SUPPORT. The display (chapter 16). -/

namespace Sys2Proof.Machine

section
variable {s : State} {j : Job} {tag : Nat} {short : Option (Nat × Nat)} {tDie mv : Int}

/-- What falls due a time after an instant, or at once where there is none. -/
theorem due_iff_passed (s : State) (since : Option Nat) (n : Nat) :
    (match since with | some t => passed s t n | none => true) = true ↔ ∀ t, since = some t → passed s t n = true := by
  cases since <;> simp

theorem execLcdFrameStart_of_due (hruns : displayRuns s = true)
    (hdue : ∀ t, s.lcd.frameAt = some t → passed s t (8 * slotTicks s.lcd.cfg) = true) :
    execLcdFrameStart s = .next (settle (
      let u := modLcd (fun l => { l with frame := l.frame + 1, frameAt := some s.time.ticks }) s
      if u.lcd.frame.toNat % 2 = 0 then evenFrame u else u)) :=
  done_of_eq (if_pos (Bool.and_eq_true_iff.mpr ⟨hruns, (due_iff_passed s _ _).mpr hdue⟩))

theorem execContrastUpdate_of_due (hruns : displayRuns s = true)
    (hdue : ∀ t, s.lcd.contrastAt = some t → passed s t (secTicks 60) = true) :
    execContrastUpdate tDie mv s = .next (settle (modLcd (fun l =>
      { l with tDie := tDie, contrastAt := some s.time.ticks, nextTarget := some (vlcdTarget l.cfg tDie) })
      (noteVlcd mv s))) :=
  done_of_eq (if_pos (Bool.and_eq_true_iff.mpr ⟨hruns, (due_iff_passed s _ _).mpr hdue⟩))

section
variable (hruns : displayRuns s = true) (hidle : s.lcd.seg = none) (hlive : (winOf s .lcd).fenced = false)
include hruns hidle hlive

theorem execSegCheck_job (hrun : runningJob s tag 15 2 = some j) :
    execSegCheck (some tag) short s = .next (settle (modLcd (fun l =>
      { l with seg := some { job := some j.id, found := segPair short } }) s)) := by
  refine done_of_eq ((if_neg (by simp [hruns, hidle, hlive])).trans ?_)
  dsimp only
  rw [hrun]

theorem execSegCheck_roll (hdue : s.lcd.segDue = true) :
    execSegCheck none short s = .next (settle (modLcd (fun l =>
      { l with segDue := false, seg := some { job := none, found := segPair short } }) s)) :=
  done_of_eq ((if_neg (by simp [hruns, hidle, hlive])).trans (if_pos hdue))
end

/-- VLCD measured: back in its range the source clears, and outside it for 1 s the source is raised. -/
theorem execVlcdRangeTimer_of_runs (hruns : displayRuns s = true) :
    execVlcdRangeTimer mv s = .next (settle (
      if vlcdOutside s.lcd.target mv.toNat = false then setLevel Src.vlcdRange false (noteVlcd mv s)
      else if passed s (s.lcd.outSince.getD s.time.ticks) (secTicks 1) = true
        then setLevel Src.vlcdRange true (noteVlcd mv s)
      else noteVlcd mv s)) := by
  refine done_of_eq ((if_pos hruns).trans ?_)
  have hsince : (noteVlcd mv s).lcd.outSince =
      if vlcdOutside s.lcd.target mv.toNat then some (s.lcd.outSince.getD s.time.ticks) else none := rfl
  dsimp only
  rw [hsince]
  cases vlcdOutside s.lcd.target mv.toNat <;> rfl
end

/-- Settles O56. -/
theorem display : Obligations.Display := by
  intro s j tag short tDie mv
  refine ⟨fun hrun => done_of_eq (onJob_of_running hrun), fun hruns => ⟨execLcdFrameStart_of_due hruns, fun hidle hlive =>
      ⟨execSegCheck_job hruns hidle hlive, execSegCheck_roll hruns hidle hlive⟩, execContrastUpdate_of_due hruns,
      execVlcdRangeTimer_of_runs hruns, fun hhold hlate => ?_⟩, fun hhold hlate => ?_⟩
  · exact done_of_eq (if_pos (by simp [hruns, hhold, hlate]))
  · exact done_of_eq (if_pos (by simp [hhold, hlate]))

end Sys2Proof.Machine

/-! SUPPORT. The service port, the optical port and its messages, and the debug port (chapter 17). -/

namespace Sys2Proof.Machine

/-! ### The service port -/

section
variable {s : State} {b : List Byte} {ready : Bool} {popped : List Nat} {rivals : List (Nat × Nat)} {o : WriteObs}

theorem execSpRead_of_on (hon : s.lintel.mainOn = true) :
    execSpRead b ready popped s = .next (settle (spClose (
      let addr := leAt b 1 3
      let n := spWords b
      let u := portRequest 1 (spOpen s)
      let zeros := List.replicate (4 * n) (0 : Byte)
      let r := readWordsBut popped (roleOf (spOpen s) 1) (frameAddrs addr n) u
      if b.length < 5 then spFrameError 1 addr (spOpen s)
      else if crc8 (b.take 4) ≠ b.getD 4 0 then spCheckFailed 1 addr zeros (spOpen s)
      else if spCmdOk b false = false then spFrameError 1 addr (spOpen s)
      else if ready = false then spAnswer .wait zeros (spOpen s)
      else match frameStop u 1 (roleOf (spOpen s) 1) (frameAddrs addr n) false with
        | some st => spAnswer st zeros u
        | none => spAnswer .ok (r.2.flatMap fun v => bytesLE 4 v) r.1))) :=
  done_of_eq ((if_neg (by simp [hon])).trans (congrArg spClose (ite_eq_of_iff Iff.rfl rfl (ite_eq_of_iff (by simp) rfl
    (ite_eq_of_iff (by simp) rfl (ite_eq_of_iff (by simp) rfl rfl))))))

theorem execSpWrite_of_on (hon : s.lintel.mainOn = true) :
    execSpWrite b rivals o ready s = .next (settle (spClose (
      let addr := leAt b 1 3
      let n := spWords b
      let data := slice b 5 (4 * n)
      if b.length < 6 + 4 * n then spFrameError 2 addr (spOpen s)
      else if crc8 (b.take 4) ≠ b.getD 4 0 ∨ crc8 data ≠ b.getD (5 + 4 * n) 0 then
        spCheckFailed 2 addr (List.replicate (n + 1) 0) (spOpen s)
      else if spCmdOk b true = false then spFrameError 2 addr (spOpen s)
      else spServeWrite o rivals addr (wordsOf n data) ready (spOpen s)))) :=
  done_of_eq ((if_neg (by simp [hon])).trans (congrArg spClose (ite_eq_of_iff Iff.rfl rfl (ite_eq_of_iff (by simp) rfl
    (ite_eq_of_iff (by simp) rfl rfl)))))
end

/-! ### The optical port -/

section
variable {s : State} {f msg : List Byte} {t r : Nat} {m : Msg} {row : Msg → Bool} {rivals : List (Nat × Nat)} {o : WriteObs}

theorem execOptReply_of_due (hruns : s.boot.running = true) (hreply : (s.ports.reply <|> authReply s) = some (f, t))
    (hearly : passed s t (msTicks 20) = true) (hlate : passed s t (msTicks 200 + 1) = false) :
    execOptReply s = .next (settle (modPorts (fun p =>
      { p with
        optTx := satInc p.optTx, optSent := f, reply := none, replyAuth := none
        rateAt := if p.newRate.isSome && p.rateAt.isNone then some s.time.ticks else p.rateAt }) s)) := by
  refine done_of_eq ?_
  rw [hreply]
  exact if_pos (by simp [hruns, hearly, hlate])

theorem execOptRateSwitch_of_due (hrate : s.ports.newRate = some r) (hat : s.ports.rateAt = some t)
    (hdue : passed s t (msTicks 50) = true) :
    execOptRateSwitch s = .next (settle (modPorts (fun p => { p with rate := r, newRate := none, rateAt := none }) s)) := by
  refine done_of_eq ?_
  rw [hrate, hat]
  exact if_pos hdue

theorem optRequest_eq (o : WriteObs) (rivals : List (Nat × Nat)) (m : Msg) (s : State) :
    optRequest o rivals m s =
      if m.tagged = false then optServe o rivals 4 m none s
      else match optKey s with
        | none => optBadTag s
        | some key =>
          if optTagOk s m key = true then optServe o rivals (roleOf s 3) m (some (m.cnt, key))
            (touchSession 3 (modPorts (fun p => { p with optCnt := m.cnt }) s))
          else optBadTag s :=
  ite_eq_of_iff (by simp) rfl rfl

/-- A frame that brings a message of the commanded row whole. -/
theorem optTake_of_row (hruns : s.boot.running = true) (hhears : optHears s = true) (hframe : optMessage f = some msg)
    (hmsg : Msg.ofBytes msg = some m) (hrow : row m = true) :
    optTake row f rivals o s = optRequest o rivals m
      (modPorts (fun p => { p with opt := .opened, optAt := s.time.ticks, optRx := satInc p.optRx }) s) := by
  refine (if_neg (by simp [hruns, hhears])).trans ?_
  rw [hframe]
  dsimp only
  rw [hmsg]
  exact if_pos (by simp [hrow])
end

/-- Settles O57. -/
theorem portFrames : Obligations.PortFrames := by
  refine ⟨fun s b ready popped rivals o hon => ⟨execSpRead_of_on hon, execSpWrite_of_on hon, done_of_eq (if_pos hon)⟩,
    fun s f t r => ⟨fun hruns => ⟨fun hhears => ?_, execOptReply_of_due hruns, fun hsleep hen hlit => ?_⟩,
      execOptRateSwitch_of_due, fun hwake hlate => ?_, fun hopen hlate => ?_⟩⟩
  · exact done_of_eq (if_pos (by simp [hruns, hhears]))
  · exact done_of_eq (if_pos (by simp [hruns, hsleep, hen, hlit]))
  · exact done_of_eq (if_pos (by simp [hwake, hlate]))
  · exact done_of_eq (if_pos (by simp [hopen, hlate]))

/-- Settles O58. -/
theorem opticalMessages : Obligations.OpticalMessages := by
  intro s f msg m rivals o hruns hhears hframe hmsg
  have htake (row : Msg → Bool) (rivals : List (Nat × Nat)) (o : WriteObs) (hrow : row m = true) :=
    done_of_eq ((optTake_of_row (rivals := rivals) (o := o) hruns hhears hframe hmsg hrow).trans (optRequest_eq o rivals m _))
  exact ⟨htake _ _ _, htake _ _ _, htake _ _ _, htake _ _ _, htake _ _ _, htake _ _ _, htake _ _ _, htake _ _ _,
    htake _ _ _, htake _ _ _, htake _ _ _, htake _ _ _, htake _ _ _, htake _ _ _⟩

/-! ### The debug port -/

section
variable {s : State} {p data : List Byte} {rivals : List (Nat × Nat)} {o : WriteObs} {f : FlashObs} {cut : LockCut}
  {since : Nat} {contended : Bool}

section
variable (hon : s.lintel.mainOn = true) (hnew : s.probe.packet = none) (hlen : 5 ≤ p.length) (hgo : dbgStop s p true = none)
include hon hnew hlen hgo

/-- A whole packet of the commanded row that nothing stops acts on the port's request. -/
theorem dbgServe_of_row {row : Bool} {act : State → State} (hrow : row = true) :
    dbgServe row p true act s = act (portRequest 2 s) := by
  refine (if_neg (by simp [hon, hnew])).trans ((if_neg (Nat.not_lt.mpr hlen)).trans ?_)
  rw [hgo]
  exact if_pos hrow

theorem execDbgPoke_of_row (hop : dbgOp p = 2) :
    execDbgPoke p data rivals o s = .next (settle (
      let u := portRequest 2 s
      let ok := dbgReplyByte p .accept
      let r := writeWord o ⟨2, rivals⟩ (roleOf u 2) (dbgArg p) (BitVec.ofNat 32 (leAt data 0 4)) u
      if data.length < 5 then modProbe (fun d => { d with packet := some p, reply := [ok] }) u
      else if crc8 (p.take 4 ++ data.take 4) ≠ data.getD 4 0 then
        modProbe (fun d => { d with reply := [ok, dbgReplyByte p .reject] })
          (dbgLast p .checkFailed 0 (dbgProtocolError u))
      else modProbe (fun d => { d with reply := [ok, ok] }) (dbgLast p r.2.1 r.2.2 r.1))) :=
  done_of_eq ((dbgServe_of_row hon hnew hlen hgo (by simp [hop])).trans (ite_eq_of_iff Iff.rfl rfl (ite_eq_of_iff (by simp) rfl rfl)))

theorem execDbgPop_of_row (hop : dbgOp p = 3) :
    execDbgPop p true contended s = .next (settle (
      let u := portRequest 2 s
      let a := dbgArg p
      dbgData p (regWord u 2 (roleOf u 2) a) (
        if isRs (place a) = true then dbgLast p .done (if contended = true then 2 else 0) (rsEffect 2 (place a) u)
        else dbgLast p .refusedPolicy 0 u))) :=
  done_of_eq ((dbgServe_of_row hon hnew hlen hgo (by simp [hop])).trans (apply_ite _ _ _ _).symm)

theorem execDbgResume_of_row (hop : dbgOp p = 9) :
    execDbgResume p s = .next (settle (
      let u := portRequest 2 s
      dbgControl p .done (if u.mason.halted = true ∨ u.probe.haltPending = true then resumeCore u else u))) :=
  done_of_eq ((dbgServe_of_row hon hnew hlen hgo (by simp [hop])).trans
    (congrArg (dbgControl p .done) (ite_eq_of_iff (by simp) rfl rfl)))
end

theorem execFreezeMaxExpiry_of_late (hfrozen : s.fabric.frozen = some since)
    (hlate : passed s since (secTicks (items s).ports.freezeMaxS) = true) :
    execFreezeMaxExpiry s = .next (settle (modFabric (fun f => { f with frozen := none }) s)) := by
  refine done_of_eq ?_
  rw [hfrozen]
  exact if_pos hlate
end

/-- Settles O59. -/
theorem debugPort : Obligations.DebugPort := by
  intro s p data rivals o f cut since contended
  refine ⟨fun hon hnew hlen hgo => ?_, fun hpend hfree => done_of_eq (if_pos (by simp [hpend, hfree])),
    execFreezeMaxExpiry_of_late, rfl⟩
  have hserve {row : Bool} {act : State → State} (hrow : row = true) :=
    done_of_eq (dbgServe_of_row (act := act) hon hnew hlen hgo hrow)
  exact ⟨fun hop => hserve (by simp [hop]), execDbgPoke_of_row hon hnew hlen hgo, execDbgPop_of_row hon hnew hlen hgo,
    fun hop => hserve (by simp [hop]),
    fun hop => ⟨fun hplain => hserve (by simp [hop, hplain]), fun hforce => hserve (by simp [hop, hforce])⟩,
    execDbgResume_of_row hon hnew hlen hgo, fun hop => hserve (by simp [hop]),
    fun hop => ⟨fun hfreeze => hserve (by simp [hop, hfreeze]), fun hthaw => hserve (by simp [hop, hthaw])⟩⟩

end Sys2Proof.Machine

/-! SUPPORT. Who may open a session and commit a consent (R488, R489, R494 to R496): what the engine's operations leave of
the sessions, and what the end of an authentication exchange makes of its own. -/

namespace Sys2Proof.Machine

/-! ### Operations that leave the sessions as they are -/

section
variable {s : State}

@[simp] theorem modWin_roles {b : Block} {f : FaultWin → FaultWin} : (modWin b f s).roles = s.roles := rfl
@[simp] theorem andThen_roles {r : Reaction} : (andThen r s).roles = s.roles := rfl
@[simp] theorem audit_roles {a : AuditReq} : (audit a s).roles = s.roles := rfl

@[simp] theorem raiseAt_roles {src : FaultSrc} {c : Cause} {dt : DWord} : (raiseAt src c dt s).roles = s.roles := by
  unfold raiseAt
  split <;> rfl

@[simp] theorem raise_roles {src : FaultSrc} : (raise src s).roles = s.roles := by
  unfold raise raiseBy
  split
  · exact raiseAt_roles
  · split <;> rfl

@[simp] theorem lower_roles {src : FaultSrc} : (lower src s).roles = s.roles := by
  unfold lower
  split <;> rfl

@[simp] theorem setLevel_roles {src : FaultSrc} {holds : Bool} : (setLevel src holds s).roles = s.roles := by
  unfold setLevel
  dsimp only
  split
  · simp
  · split <;> simp

@[simp] theorem noteStale_roles : (noteStale s).roles = s.roles := by
  unfold noteStale
  split <;> simp

@[simp] theorem spendMask_roles {n : Nat} : (spendMask n s).roles = s.roles := rfl

@[simp] theorem plainCycles_roles (n : Nat) (s : State) : (plainCycles n s).2.roles = s.roles := by
  induction n generalizing s with
  | zero => rfl
  | succ n ih => exact ih _

@[simp] theorem cipherCycles_roles {mode n : Nat} : (cipherCycles mode n s).2.roles = s.roles := by
  unfold cipherCycles
  split
  · rfl
  · exact plainCycles_roles n s

@[simp] theorem runCmac_roles {mode len : Nat} : (runCmac mode len s).roles = s.roles := by
  simp [runCmac, runBlocks]

@[simp] theorem modSlot_roles {n : Nat} {f : Slot → Slot} : (modSlot n f s).roles = s.roles := rfl
@[simp] theorem emptySlot_roles {n : Nat} : (emptySlot n s).roles = s.roles := rfl
@[simp] theorem beginLoad_roles {n : Nat} : (beginLoad n s).roles = s.roles := rfl
@[simp] theorem endLoadLock_roles {us : Nat} : (endLoadLock us s).roles = s.roles := rfl
@[simp] theorem freePeers_roles {n : Nat} : (freePeers n s).roles = s.roles := rfl
@[simp] theorem engineEnds_roles {id : Nat} {r : JobResult} : (engineEnds id r s).roles = s.roles := rfl

@[simp] theorem countAbort_roles : (countAbort s).roles = s.roles := by simp [countAbort]

@[simp] theorem lockedFill_roles {n : Nat} {key : List Byte} {attr : SlotAttr} : (lockedFill n key attr s).roles = s.roles := by
  simp [lockedFill, fillSlot, maskedBlocks]

/-- A fold of steps that leave the roles leaves them. -/
theorem foldl_roles {α : Type} {step : State → α → State} (hstep : ∀ t x, (step t x).roles = t.roles) (l : List α)
    (s : State) : (l.foldl step s).roles = s.roles := by
  induction l generalizing s with
  | nil => rfl
  | cons x xs ih => exact (ih _).trans (hstep s x)

@[simp] theorem dropPortGran_roles {g : Nat} : (dropPortGran g s).roles = s.roles := by
  unfold dropPortGran releaseGran
  split <;> rfl

@[simp] theorem freePortGrans_roles {master : Nat} : (freePortGrans master s).roles = s.roles :=
  foldl_roles (fun _ _ => dropPortGran_roles) _ s

@[simp] theorem zeroSecrets_roles : (zeroSecrets s).roles = s.roles := by
  unfold zeroSecrets
  exact foldl_roles (fun t g => by split <;> rfl) _ s

@[simp] theorem endSlotJobs_roles {mask : Nat} : (endSlotJobs mask s).roles = s.roles :=
  foldl_roles (fun t j => by split <;> rfl) _ s
end

/-! ### Operations that open no session -/

/-- No session of port `i` is open. -/
def Shut (i : Nat) (s : State) : Prop := (nth s.roles.sess i).isOpen = false

section
variable {s t : State} {i k : Nat}

theorem nth_sess_modSess (hi : i < 4) {f : Session → Session} :
    nth (modSess i f s).roles.sess i = f (nth s.roles.sess i) :=
  nth_upd_same _ _ _ hi

theorem Shut.of_roles (hshut : Shut i s) (hroles : t.roles = s.roles) : Shut i t := by
  rw [Shut, hroles]
  exact hshut

theorem Shut.modSess {f : Session → Session} (hshut : Shut i s) (hf : ∀ x, x.isOpen = false → (f x).isOpen = false) :
    Shut i (modSess k f s) := by
  by_cases hk : k = i
  · subst hk
    by_cases hlt : k < 4
    · rw [Shut, nth_sess_modSess hlt]
      exact hf _ hshut
    · have hout : upd s.roles.sess k f = s.roles.sess := dif_neg hlt
      rw [Shut, Machine.modSess, modRoles_roles]
      dsimp only
      rw [hout]
      exact hshut
  · rw [Shut, Machine.modSess, modRoles_roles]
    dsimp only
    rw [nth_upd_ne _ _ _ _ hk]
    exact hshut

theorem Shut.foldl {α : Type} {step : State → α → State} (hstep : ∀ t x, Shut i t → Shut i (step t x)) (l : List α)
    (hshut : Shut i s) : Shut i (l.foldl step s) := by
  induction l generalizing s with
  | nil => exact hshut
  | cons x xs ih => exact ih (hstep s x hshut)

theorem Shut.endSession (hshut : Shut i s) : Shut i (endSession k s) := by
  have hended : Shut i (Machine.modSess k (fun y => { y with isOpen := false, role := 4, chal := none }) s) :=
    hshut.modSess fun _ _ => rfl
  unfold Machine.endSession
  dsimp only
  split
  · refine Shut.of_roles (s := modRoles (fun r => { r with authState := 0, authRoleNow := 4 })
      (Machine.modSess k (fun y => { y with isOpen := false, role := 4, chal := none }) s)) hended ?_
    split <;> simp
  · exact hended

theorem Shut.eraseSlot {n : Nat} (hshut : Shut i s) : Shut i (eraseSlot n s) := by
  unfold Machine.eraseSlot
  refine Shut.foldl (fun t k ht => ?_) _ (hshut.of_roles ?_)
  · split
    · exact ht.endSession
    · exact ht
  · split <;> simp

theorem Shut.alarm {source named ns repeats : Nat} (hshut : Shut i s) : Shut i (alarm source named true ns repeats s) := by
  unfold Machine.alarm
  dsimp only
  refine .of_roles ?_ raise_roles
  have hmasked {mask : Nat} {f : CipherSt → CipherSt} {g : Keys → Keys} : Shut i (modCipher f (zeroSecrets (endSlotJobs mask
      ((List.range 24).foldl (fun t n => if mask.testBit n then Machine.eraseSlot n t else t) (modKeys g s))))) := by
    refine .of_roles (.of_roles (.of_roles ?_ endSlotJobs_roles) zeroSecrets_roles) modCipher_roles
    refine Shut.foldl (fun t n ht => ?_) _ (hshut.of_roles modKeys_roles)
    split
    · exact ht.eraseSlot
    · exact ht
  split
  · exact hmasked.of_roles raise_roles
  · exact hmasked

theorem Shut.faultInject (hshut : Shut i s) : Shut i (faultInject s) := by
  unfold Machine.faultInject alarmBy
  exact (hshut.of_roles (by simp)).alarm

theorem Shut.authFailed {role : Nat} {nc nh : List Byte} (hshut : Shut i s) : Shut i (authFailed k role nc nh s) := by
  unfold Machine.authFailed
  have hcounted (n : Nat) : Shut i (raise Src.authFail (Machine.modSess k (fun x =>
      { x with fails := put x.fails role n, lastRole := role }) s)) := by
    refine .of_roles ?_ raise_roles
    exact hshut.modSess fun _ hx => hx
  dsimp only
  split
  · refine .of_roles ?_ audit_roles
    exact (hcounted _).modSess fun _ hx => hx
  · exact hcounted _

theorem Shut.not_open (hshut : Shut i s) : ¬ (nth s.roles.sess i).isOpen = true := by
  rw [show (nth s.roles.sess i).isOpen = false from hshut]
  decide
end

/-! ### The end of an authentication exchange -/

/-- The challenge taken away as its response comes. -/
def takeChallenge (i : Nat) (s : State) : State :=
  modRoles (fun r => { r with authState := 0 }) (modSess i (fun x => { x with chal := none }) s)

section
variable {s : State} {master i : Nat} {resp : List Byte} {fi : Bool}

theorem Shut.takeChallenge (hshut : Shut i s) : Shut i (takeChallenge i s) :=
  hshut.modSess fun _ hx => hx

/-- Where a response opens the session, its challenge lives, its role's key verifies it and the engine sees no mismatch. -/
theorem authFinish_opens_only (hsess : sessionOf master = some i) (hshut : Shut i s)
    (hopen : (nth (authFinish master resp fi s).1.roles.sess i).isOpen = true) :
    fi = false ∧ (nth s.keys.slots (sessionSlot i)).erased = false ∧ ∃ c k, (nth s.roles.sess i).chal = some c
      ∧ roleKey s c.role = some k ∧ counted s c.at_ (secTicks (items s).roles.authChalS) = false
      ∧ cmac k (authMsg s "YLAU" c.nc c.nh master c.role) = padTo 16 0 resp := by
  have hrun (len : Nat) : Shut i (runCmac 1 len (Machine.takeChallenge i s)) := hshut.takeChallenge.of_roles runCmac_roles
  unfold authFinish at hopen
  rw [hsess] at hopen
  dsimp only at hopen
  split at hopen
  · exact absurd hopen hshut.not_open
  · rename_i c hchal
    split at hopen
    · exact absurd hopen hshut.takeChallenge.not_open
    · rename_i hlive
      split at hopen
      · exact absurd hopen hshut.takeChallenge.not_open
      · rename_i k hkey
        split at hopen
        · exact absurd hopen (hrun _).faultInject.not_open
        · rename_i hfi
          split at hopen
          · refine absurd hopen (Shut.authFailed ?_).not_open
            exact (hrun _).of_roles audit_roles
          · rename_i hmatch
            split at hopen
            · exact absurd hopen (hrun _).not_open
            · rename_i herased
              exact ⟨by simpa using hfi, by simpa using herased, c, k, hchal, hkey, by simpa using hlive, by simpa using hmatch⟩

/-- The session that a matching response opens. -/
theorem authFinish_of_match {c : Challenge} {k : List Byte} (hsess : sessionOf master = some i) (hi : i < 4)
    (hchal : (nth s.roles.sess i).chal = some c) (hkey : roleKey s c.role = some k)
    (hlive : counted s c.at_ (secTicks (items s).roles.authChalS) = false)
    (hmatch : cmac k (authMsg s "YLAU" c.nc c.nh master c.role) = padTo 16 0 resp)
    (herased : (nth s.keys.slots (sessionSlot i)).erased = false) :
    (nth (authFinish master resp false s).1.roles.sess i).role = c.role
      ∧ (nth (authFinish master resp false s).1.roles.sess i).chal = none := by
  unfold authFinish
  rw [hsess]
  dsimp only
  rw [hchal]
  dsimp only
  rw [if_neg (by simp [hlive]), hkey]
  dsimp only
  rw [if_neg (by simp), if_neg (by simp [hmatch]), if_neg (by simp [herased])]
  dsimp only
  have hlast (b : Bool) (u : State) : (if b then setLevel Src.debugOpen true u else u).roles = u.roles := by
    split <;> simp
  have hports (u : State) : ((if i = 1 then modPorts (fun p => { p with optCnt := 0 }) else id) u).roles = u.roles := by
    split <;> rfl
  rw [hlast, audit_roles, hports, modRoles_roles]
  dsimp only
  rw [nth_sess_modSess hi]
  refine ⟨rfl, ?_⟩
  rw [freePeers_roles, runCmac_roles, lockedFill_roles, runCmac_roles, runCmac_roles, modRoles_roles]
  exact congrArg Session.chal (nth_sess_modSess hi)
end

/-- What a countersign that commits has met. -/
theorem signOutcome_committed {s : State} {c : Consent} {role : Nat} {x : ConsentIn}
    (hout : (signOutcome s c role x).2 = .committed) :
    c.state = .committed ∨ (c.state = .proposed ∧ role ≠ c.proposer ∧ x.items = c.items ∧ x.digest = c.digest
      ∧ x.baseSeq = c.baseSeq ∧ s.time.d04 < c.until_ ∧ c.baseSeq = s.boot.img.seq
      ∧ pairAllowed s c.items c.proposer role = true) := by
  unfold signOutcome at hout
  split at hout
  · exact .inl hout
  · rename_i hstate
    split at hout
    · exact .inl hout
    · rename_i hrole
      split at hout
      · exact .inl hout
      · rename_i hterms
        split at hout
        · cases hout
        · rename_i hlate
          split at hout
          · cases hout
          · rename_i hseq
            split at hout
            · cases hout
            · rename_i hpair
              obtain ⟨hitems, hdigest, hbase⟩ : x.items = c.items ∧ x.digest = c.digest ∧ x.baseSeq = c.baseSeq := by
                simpa [and_assoc] using hterms
              exact .inr ⟨by simpa using hstate, hrole, hitems, hdigest, hbase, Nat.lt_of_not_le hlate, by simpa using hseq,
                by simpa using hpair⟩

/-- Settles O48. -/
theorem authorityNeedsProof : Obligations.AuthorityNeedsProof := by
  refine ⟨fun s master i resp fi hsess hi hshut hopen => ?_, fun s c role x => signOutcome_committed⟩
  obtain ⟨rfl, herased, c, k, hchal, hkey, hlive, hmatch⟩ := authFinish_opens_only hsess hshut hopen
  obtain ⟨hrole, hnone⟩ := authFinish_of_match hsess hi hchal hkey hlive hmatch herased
  exact ⟨rfl, c, k, hchal, hkey, hlive, hmatch, hrole, hnone⟩

end Sys2Proof.Machine

/-! SUPPORT. Which copy runs (Boot.runB): what a command's consequences, the endings of jobs and the fences leave of it.
Only the bring-up and the end of a reseat change it. -/

namespace Sys2Proof.Machine

section
variable {s : State}

@[simp] theorem ite_runB {c : Prop} [Decidable c] {a b : State} :
    (if c then a else b).boot.runB = if c then a.boot.runB else b.boot.runB := by
  split <;> rfl

@[simp] theorem ite_step_runB {c : Prop} [Decidable c] {f g : State → State} :
    ((if c then f else g) s).boot.runB = if c then (f s).boot.runB else (g s).boot.runB := by
  split <;> rfl

/-- A fold of steps that keep the running copy keeps it. -/
@[simp] theorem foldl_runB {α : Type} {step : State → α → State} (hstep : ∀ t x, (step t x).boot.runB = t.boot.runB)
    {l : List α} : (l.foldl step s).boot.runB = s.boot.runB := by
  induction l generalizing s with
  | nil => rfl
  | cons x xs ih => exact ih.trans (hstep s x)

/-! ### Faults -/

@[simp] theorem modWin_runB {b : Block} {f : FaultWin → FaultWin} : (modWin b f s).boot.runB = s.boot.runB := by
  simp [modWin]
@[simp] theorem andThen_runB {r : Reaction} : (andThen r s).boot.runB = s.boot.runB := by simp [andThen]
@[simp] theorem audit_runB {a : AuditReq} : (audit a s).boot.runB = s.boot.runB := by simp [audit]
@[simp] theorem pinSource_runB {src : FaultSrc} : (pinSource src s).boot.runB = s.boot.runB := by simp [pinSource]
@[simp] theorem masonEvent_runB {k p a : Nat} : (masonEvent k p a s).boot.runB = s.boot.runB := by simp [masonEvent]

@[simp] theorem raiseAt_runB {src : FaultSrc} {c : Cause} {dt : DWord} : (raiseAt src c dt s).boot.runB = s.boot.runB := by
  simp [raiseAt]

@[simp] theorem raise_runB {src : FaultSrc} : (raise src s).boot.runB = s.boot.runB := by
  simp [raise, raiseBy]

@[simp] theorem raiseIf_runB {b : Bool} {src : FaultSrc} : (raiseIf b src s).boot.runB = s.boot.runB := by
  simp [raiseIf]

@[simp] theorem lower_runB {src : FaultSrc} : (lower src s).boot.runB = s.boot.runB := by
  simp [lower]

@[simp] theorem setLevel_runB {src : FaultSrc} {holds : Bool} : (setLevel src holds s).boot.runB = s.boot.runB := by
  simp [setLevel]

/-! ### Granules, rings and endings of jobs -/

@[simp] theorem modQueue_runB {q : Nat} {f : QueueSt → QueueSt} : (modQueue q f s).boot.runB = s.boot.runB := by
  simp [modQueue]
@[simp] theorem modGran_runB {g : Nat} {f : Granule → Granule} : (modGran g f s).boot.runB = s.boot.runB := by
  simp [modGran]
@[simp] theorem modJob_runB {id : Nat} {f : Job → Job} : (modJob id f s).boot.runB = s.boot.runB := by simp [modJob]
@[simp] theorem engineEnds_runB {id : Nat} {r : JobResult} : (engineEnds id r s).boot.runB = s.boot.runB := by
  simp [engineEnds]
@[simp] theorem countEnding_runB {c : Nat} {st : Status} : (countEnding c st s).boot.runB = s.boot.runB := by
  simp [countEnding]
@[simp] theorem noteCtx_runB {id : Nat} {st : Status} : (endAlone.noteCtx id st s).boot.runB = s.boot.runB := by
  simp [endAlone.noteCtx]

@[simp] theorem releaseGran_runB {g : Nat} : (releaseGran g s).boot.runB = s.boot.runB := by
  simp [releaseGran, freeGran]

@[simp] theorem releaseGrans_runB {gs : List Nat} : (releaseGrans gs s).boot.runB = s.boot.runB := by
  simp [releaseGrans]

@[simp] theorem unlend_runB {gs : List Nat} : (unlend gs s).boot.runB = s.boot.runB := by
  simp [unlend]

@[simp] theorem lendGrans_runB {gs : List Nat} : (lendGrans gs s).boot.runB = s.boot.runB := by
  simp [lendGrans]

@[simp] theorem fillGrans_runB {gs : List Nat} {bs : List Byte} : (fillGrans gs bs s).boot.runB = s.boot.runB := by
  simp [fillGrans]

@[simp] theorem linkGrans_runB {gs : List Nat} : (linkGrans gs s).boot.runB = s.boot.runB := by
  simp [linkGrans]

@[simp] theorem pushRing_runB {c : Cpl} : (pushRing c s).boot.runB = s.boot.runB := by
  simp [pushRing]

@[simp] theorem auditJob_runB {a : Actor} {q : Nat} {d : Desc} {c : Cpl} :
    (auditJob a q d c s).boot.runB = s.boot.runB := by
  simp [auditJob]

@[simp] theorem endAlone_runB {j : Job} {st : Status} {beat retryS : Nat} :
    (endAlone j st beat retryS s).boot.runB = s.boot.runB := by
  simp [endAlone]

@[simp] theorem countStuck_runB {engine : Nat} {st : Status} : (countStuck engine st s).boot.runB = s.boot.runB := by
  simp [countStuck]

@[simp] theorem completeOne_runB {j : Job} {r : JobResult} {inherited passed : Bool} :
    (completeOne j r inherited passed s).1.boot.runB = s.boot.runB := by
  simp [completeOne]

@[simp] theorem lendTemp_runB {id : Nat} : (lendTemp id s).boot.runB = s.boot.runB := by
  unfold lendTemp
  split <;> simp

@[simp] theorem releaseHeld_runB {h : Job} {p : Pred} : (releaseHeld h p s).boot.runB = s.boot.runB := by
  simp [releaseHeld]

@[simp] theorem complete_runB {fuel id : Nat} {r : JobResult} {inherited : Bool} :
    (complete fuel id r inherited s).boot.runB = s.boot.runB := by
  induction fuel generalizing id r inherited s with
  | zero => rfl
  | succ fuel ih =>
    unfold complete
    split
    · rfl
    · dsimp only
      split <;> simp [ih]

@[simp] theorem endEarly_runB {j : Job} {st : Status} {beat retryS : Nat} :
    (endEarly j st beat retryS s).boot.runB = s.boot.runB := by
  unfold endEarly
  dsimp only
  split <;> simp

@[simp] theorem completeWith_runB {id : Nat} {st : Status} : (completeWith id st s).boot.runB = s.boot.runB := by
  unfold completeWith
  split <;> simp [completeJob]

@[simp] theorem endJob_runB {j : Job} {st : Status} : (endJob j st s).boot.runB = s.boot.runB := by
  simp [endJob]

@[simp] theorem completeAll_runB {p : Job → Bool} {st : Status} : (completeAll p st s).boot.runB = s.boot.runB := by
  simp [completeAll]

/-! ### Admission -/

theorem tryAdmit_runB {id : Nat} {t : State} (h : tryAdmit id s = some t) : t.boot.runB = s.boot.runB := by
  unfold tryAdmit at h
  split at h
  · cases h
  · split at h
    · cases h
      simp
    · cases h

@[simp] theorem evictFor_runB {fuel id : Nat} : (evictFor fuel id s).boot.runB = s.boot.runB := by
  induction fuel generalizing s with
  | zero => rfl
  | succ fuel ih =>
    unfold evictFor
    split
    · rfl
    · split
      · rfl
      · simp [ih]

@[simp] theorem admitJob_runB {j : Job} : (admitJob j s).1.boot.runB = s.boot.runB := by
  unfold admitJob
  dsimp only
  split
  · rename_i t ht
    simp [tryAdmit_runB ht]
  · simp

@[simp] theorem enterFifo_runB {j : Job} : (enterFifo j s).boot.runB = s.boot.runB := by
  unfold enterFifo
  dsimp only
  split <;> split <;> simp

@[simp] theorem takeStalled_runB : (takeStalled s).boot.runB = s.boot.runB := by
  unfold takeStalled
  split <;> simp

@[simp] theorem admitFirst_runB {fuel : Nat} {l : List Job} : (admitFirst fuel l s).1.boot.runB = s.boot.runB := by
  induction fuel generalizing l s with
  | zero => rfl
  | succ fuel ih =>
    unfold admitFirst
    split
    · rfl
    · rename_i j _
      have hone : (admitJob j s).1.boot.runB = s.boot.runB := admitJob_runB
      split
      · rename_i heq
        rwa [heq] at hone
      · rename_i heq
        rw [heq] at hone
        exact ih.trans hone

@[simp] theorem admitWaiting_runB {fuel : Nat} : (admitWaiting fuel s).boot.runB = s.boot.runB := by
  induction fuel generalizing s with
  | zero => rfl
  | succ fuel ih =>
    have hone : (admitNext s).1.boot.runB = s.boot.runB := by simp [admitNext]
    unfold admitWaiting
    split
    · split
      · rename_i heq
        rw [heq] at hone
        exact ih.trans hone
      · rename_i heq
        rwa [heq] at hone
    · rfl

@[simp] theorem expireWaits_runB {q : Nat} : (expireWaits q s).boot.runB = s.boot.runB := by
  simp [expireWaits]

@[simp] theorem submitJob_runB {a : Actor} {q : Nat} {d : Desc} {payload : List Byte} {ctx : Option Nat} {final : Bool} :
    (submitJob a q d payload ctx final s).boot.runB = s.boot.runB := by
  unfold submitJob
  dsimp only
  split <;> simp

@[simp] theorem chipJob_runB {master q : Nat} {d : Desc} {payload : List Byte} :
    (chipJob master q d payload s).boot.runB = s.boot.runB := submitJob_runB

/-! ### Records and events -/

@[simp] theorem clearStepSum_runB {stream : Nat} : (clearStepSum stream s).boot.runB = s.boot.runB := by
  simp [clearStepSum]

@[simp] theorem submitRecord_runB {master stream : Nat} {rec : List Byte} :
    (submitRecord master stream rec s).boot.runB = s.boot.runB := by
  simp [submitRecord]

@[simp] theorem writeAmendment_runB {header mac : List Byte} {st : Status} {port kind : Nat} :
    (writeAmendment header mac st port kind s).boot.runB = s.boot.runB := by
  simp [writeAmendment]

@[simp] theorem enqueueEvent_runB {kind param arg : Nat} : (enqueueEvent kind param arg s).boot.runB = s.boot.runB := by
  simp [enqueueEvent]

@[simp] theorem writeHistory_runB {src : FaultSrc} {set : Bool} : (writeHistory src set s).boot.runB = s.boot.runB := by
  simp [writeHistory]

@[simp] theorem writeAudit_runB {a : AuditReq} : (writeAudit a s).boot.runB = s.boot.runB := by
  simp [writeAudit]

/-! ### Key slots, sessions and alarms -/

@[simp] theorem modSlot_runB {n : Nat} {f : Slot → Slot} : (modSlot n f s).boot.runB = s.boot.runB := by simp [modSlot]
@[simp] theorem emptySlot_runB {n : Nat} : (emptySlot n s).boot.runB = s.boot.runB := by simp [emptySlot]
@[simp] theorem endLoadLock_runB {us : Nat} : (endLoadLock us s).boot.runB = s.boot.runB := by simp [endLoadLock]
@[simp] theorem modSess_runB {i : Nat} {f : Session → Session} : (modSess i f s).boot.runB = s.boot.runB := by
  simp [modSess]

@[simp] theorem countAbort_runB : (countAbort s).boot.runB = s.boot.runB := by
  simp [countAbort]

@[simp] theorem abortLoads_runB : (abortLoads s).boot.runB = s.boot.runB := by
  simp [abortLoads]

@[simp] theorem freePortGrans_runB {master : Nat} : (freePortGrans master s).boot.runB = s.boot.runB := by
  simp [freePortGrans, dropPortGran]

@[simp] theorem endSession_runB {i : Nat} : (endSession i s).boot.runB = s.boot.runB := by
  simp [endSession]

@[simp] theorem endSessions_runB : (endSessions s).boot.runB = s.boot.runB := by
  simp [endSessions]

@[simp] theorem eraseSlot_runB {n : Nat} : (eraseSlot n s).boot.runB = s.boot.runB := by
  simp [eraseSlot]

@[simp] theorem zeroSecrets_runB : (zeroSecrets s).boot.runB = s.boot.runB := by
  simp [zeroSecrets]

@[simp] theorem endSlotJobs_runB {mask : Nat} : (endSlotJobs mask s).boot.runB = s.boot.runB :=
  foldl_runB fun _ _ => by split <;> rfl

@[simp] theorem alarm_runB {source named : Nat} {cause : Bool} {ns repeats : Nat} :
    (alarm source named cause ns repeats s).boot.runB = s.boot.runB := by
  simp [alarm]

/-! ### The link, the journal and the radio -/

@[simp] theorem modConn_runB {c : Nat} {f : Conn → Conn} : (modConn c f s).boot.runB = s.boot.runB := by simp [modConn]
@[simp] theorem linkDrop_runB {job : Nat} : (linkDrop job s).boot.runB = s.boot.runB := by simp [linkDrop]
@[simp] theorem touchFlash_runB : (touchFlash s).boot.runB = s.boot.runB := by simp [touchFlash]
@[simp] theorem freePeak_runB : (freePeak s).boot.runB = s.boot.runB := by simp [freePeak]
@[simp] theorem cutVoid_runB {a : Nat} : (cutVoid a s).boot.runB = s.boot.runB := by simp [cutVoid]
@[simp] theorem cutErase_runB {n : Nat} : (cutErase n s).boot.runB = s.boot.runB := by simp [cutErase]

@[simp] theorem dropSteps_runB {stays : FlashTask → Bool} : (dropSteps stays s).boot.runB = s.boot.runB := by
  simp [dropSteps]

@[simp] theorem sendDone_runB {job : Nat} {acked : Option Nat} : (sendDone job acked s).boot.runB = s.boot.runB := by
  unfold sendDone
  split <;> simp

@[simp] theorem freeConn_runB {c : Nat} : (freeConn c s).boot.runB = s.boot.runB := by
  simp [freeConn]

@[simp] theorem enterOff_runB : (enterOff s).boot.runB = s.boot.runB := by
  simp [enterOff]

@[simp] theorem stagingEnds_runB {j : Job} {a : Amend} {st : Status} {reject : Nat} :
    (stagingEnds j a st reject s).boot.runB = s.boot.runB := by
  simp [stagingEnds]

@[simp] theorem stageFails_runB {j : Job} {a : Amend} {st : Status} {reject : Nat} :
    (stageFails j a st reject s).boot.runB = s.boot.runB := by
  simp [stageFails]

@[simp] theorem programByte_runB {o : FlashObs} {a : Nat} {b : Byte} : (programByte o a b s).boot.runB = s.boot.runB := by
  simp [programByte]

@[simp] theorem programFlash_runB {o : FlashObs} {a : Nat} {bs : List Byte} :
    (programFlash o a bs s).boot.runB = s.boot.runB := by
  simp [programFlash]

@[simp] theorem unlockAs_runB {k : LockKind} : (unlockAs k s).boot.runB = s.boot.runB := by
  simp [unlockAs]

@[simp] theorem cutProgram_runB {a : Nat} {bs : List Byte} : (cutProgram a bs s).boot.runB = s.boot.runB := by
  unfold cutProgram
  dsimp only
  split <;> simp

@[simp] theorem leaveWork_runB {id : Nat} : (leaveWork id s).boot.runB = s.boot.runB := by
  simp [leaveWork]

@[simp] theorem cutOp_runB : (cutOp s).boot.runB = s.boot.runB := by
  unfold cutOp
  split
  · split <;> simp [cutStageHead]
  · rfl

@[simp] theorem cutFlash_runB : (cutFlash s).boot.runB = s.boot.runB := by
  simp [cutFlash, journalUnlock]

@[simp] theorem journalRollback_runB {o : FlashObs} {st : Status} : (journalRollback o st s).boot.runB = s.boot.runB := by
  unfold journalRollback
  split
  · dsimp only
    split <;> simp
  · rfl

@[simp] theorem endAct_runB : (endAct s).boot.runB = s.boot.runB := by
  unfold endAct
  dsimp only
  split <;> simp

@[simp] theorem radioDrop_runB {job : Nat} : (radioDrop job s).boot.runB = s.boot.runB := by
  simp [radioDrop]

@[simp] theorem radioReseat_runB : (radioReseat s).boot.runB = s.boot.runB := by
  simp [radioReseat]

@[simp] theorem afterPair_runB {queue path job : Nat} {st : Status} :
    (afterPair queue path job st s).boot.runB = s.boot.runB := by
  unfold afterPair
  dsimp only
  split <;> simp [setEval, joinEvent]

/-! ### Fences and the grave state -/

@[simp] theorem markFenced_runB {src : FaultSrc} {b : Block} : (markFenced src b s).boot.runB = s.boot.runB := by
  simp [markFenced]

@[simp] theorem fenceReseat_runB : (fenceReseat s).boot.runB = s.boot.runB := by
  simp [fenceReseat]

@[simp] theorem fenceBlocks_runB {src : FaultSrc} {blocks : List Block} {engines : List Nat} :
    (fenceBlocks src blocks engines s).boot.runB = s.boot.runB := by
  simp [fenceBlocks]

@[simp] theorem fencePath_runB {p : Nat} {src : FaultSrc} : (fencePath p src s).boot.runB = s.boot.runB := by
  simp [fencePath]

@[simp] theorem fenceJournal_runB {src : FaultSrc} : (fenceJournal src s).boot.runB = s.boot.runB := by
  unfold fenceJournal
  dsimp only
  split <;> split <;> simp

@[simp] theorem fenceRadio_runB {src : FaultSrc} : (fenceRadio src s).boot.runB = s.boot.runB := by
  simp [fenceRadio]

@[simp] theorem dropTempRecord_runB : (dropTempRecord s).boot.runB = s.boot.runB := by
  unfold dropTempRecord
  split <;> simp

@[simp] theorem fenceUnit_runB {u : FaultUnit} {src : FaultSrc} : (fenceUnit u src s).boot.runB = s.boot.runB := by
  cases u <;> simp [fenceUnit]

@[simp] theorem enterGrave_runB {src : FaultSrc} : (enterGrave src s).boot.runB = s.boot.runB := by
  simp [enterGrave, apply_ite Boot.runB]

/-! ### The consequences of a cycle -/

@[simp] theorem classReaction_runB {src : FaultSrc} : (classReaction src s).boot.runB = s.boot.runB := by
  unfold classReaction
  split
  · split <;> simp
  · simp
  · rfl

@[simp] theorem takeReaction_runB {r : Reaction} : (takeReaction r s).boot.runB = s.boot.runB := by
  cases r <;> simp [takeReaction]

@[simp] theorem react_runB {fuel : Nat} : (react fuel s).boot.runB = s.boot.runB := by
  induction fuel generalizing s with
  | zero => rfl
  | succ fuel ih =>
    unfold react
    split
    · rfl
    · exact ih.trans takeReaction_runB

/-! ### The jobs that a reseat stops -/

@[simp] theorem undoSnapshot_runB {job : Nat} : (undoSnapshot job s).boot.runB = s.boot.runB := by
  unfold undoSnapshot
  split <;> simp [billLevel, commitInteg]

@[simp] theorem stageDrop_runB {j : Job} {st : Status} : (stageDrop j st s).boot.runB = s.boot.runB := by
  simp [stageDrop]

@[simp] theorem dropJob_runB {j : Job} {st : Status} : (dropJob j st s).boot.runB = s.boot.runB := by
  unfold dropJob
  dsimp only
  split <;> simp

@[simp] theorem stopJobs_runB {p : Job → Bool} {st : Status} : (stopJobs p st s).boot.runB = s.boot.runB := by
  simp [stopJobs]

@[simp] theorem reseatTake_runB : (reseatTake s).boot.runB = s.boot.runB := by
  simp [reseatTake, reseatStop]
end

end Sys2Proof.Machine

/-! SUPPORT. The reseat (R50 to R53, Table 1.9): its steps, and the configuration that runs after one that runs whole. -/

namespace Sys2Proof.Machine

section
variable {k : Guard} {s0 s : State} {o : FlashObs} {dur : Nat} {d : LockDur} {img : RunImage}

/-- The configuration of the switch point, before the engines follow it. -/
def imageTaken (img : RunImage) (s : State) : State :=
  modBoot (fun b => { b with img := img }) ((List.range (pathCount s)).foldl (fun t p =>
    modShotPath p (fun x => { x with plumbDue := plumbDueNow s p }) t) s)

theorem imageTaken_bare (hbare : s.boot.bare = false) : (imageTaken img s).boot.bare = false :=
  (kept_foldl (k := { img := true }) (Kept.refl _ s) fun _ _ h => modShotPath_kept h).bare rfl hbare

/-- After the switch point nothing changes the configuration taken. -/
theorem switchImage_keeps_taken : Kept k (imageTaken img s) (switchImage img s) := by
  have h1 := Kept.refl k (imageTaken img s)
  unfold switchImage
  unfold imageTaken at h1 ⊢
  dsimp only at h1 ⊢
  generalize modBoot _ _ = s1 at h1 ⊢
  refine stopJobs_kept (kept_ite (restartTemp_kept ?_) ?_) <;>
    exact reraise_kept (keepRecipes_kept (restartLoops_kept (h1.same rfl rfl rfl rfl rfl rfl rfl rfl rfl rfl)))

theorem switchImage_img (hbare : s.boot.bare = false) :
    (switchImage img s).boot.img = img ∧ (switchImage img s).boot.bare = false :=
  have hkept : Kept { img := true } (imageTaken img s) (switchImage img s) := switchImage_keeps_taken
  ⟨hkept.img rfl (imageTaken_bare hbare), hkept.bare rfl (imageTaken_bare hbare)⟩

/-- A standby copy that does not pass leaves the old configuration running. -/
theorem reseatSwitch_of_fail (hfail : (judgeCopy s (standbyB s)).reject ≠ 0 ∨ (judgeCopy s (standbyB s)).active = true
      ∨ (judgeCopy s (standbyB s)).seq ≤ s.boot.img.seq) (hs : Kept k s0 s) : Kept k s0 (reseatSwitch d s) := by
  unfold reseatSwitch
  dsimp only
  rw [if_pos (by simpa [or_assoc] using hfail)]
  exact reseatUnlock_kept (raise_kept (setCopy_kept (verified_kept hs)))

/-- A standby copy that passes becomes the configuration that runs. -/
theorem reseatSwitch_of_pass (hbare : s.boot.bare = false) (hreject : (judgeCopy s (standbyB s)).reject = 0)
    (hactive : (judgeCopy s (standbyB s)).active = false) (hseq : s.boot.img.seq < (judgeCopy s (standbyB s)).seq) :
    (reseatSwitch d s).boot.img = (judgeCopy s (standbyB s)).img ∧ (reseatSwitch d s).boot.bare = false := by
  unfold reseatSwitch
  dsimp only
  rw [if_neg (by simp [hreject, hactive, hseq])]
  refine switchImage_img ?_
  refine Kept.bare (k := { img := true }) (s0 := s) ?_ rfl hbare
  exact keepPhase_kept (modBoot_kept (fun _ => rfl) (fun _ h => h) (maskedBlocks_kept (Kept.refl _ s)))

/-- From the switch to the unlock and the end of the command nothing changes the configuration. -/
theorem reseatWhole_keeps_switched :
    Kept k (reseatSwitch (.whole dur) (reseatTake s)) (settle (reseatWhole o dur s)) := by
  refine settle_kept ?_
  unfold reseatWhole
  generalize reseatSwitch (.whole dur) (reseatTake s) = t
  exact kept_ite (reseatFinish_kept (resumeSlots_kept (reseatStore_kept (Kept.refl k t)))) (Kept.refl k t)

theorem standbyB_reseatTake : standbyB (reseatTake s) = standbyB s := by
  simp [standbyB]

theorem reseatTake_img (hbare : s.boot.bare = false) :
    (reseatTake s).boot.img = s.boot.img ∧ (reseatTake s).boot.bare = false :=
  have hkept : Kept { img := true } s (reseatTake s) := reseatTake_kept (Kept.refl _ s)
  ⟨hkept.img rfl hbare, hkept.bare rfl hbare⟩

theorem reseatWhole_of_pass (hbare : s.boot.bare = false) (hreject : (judgeCopy (reseatTake s) (standbyB s)).reject = 0)
    (hactive : (judgeCopy (reseatTake s) (standbyB s)).active = false)
    (hseq : s.boot.img.seq < (judgeCopy (reseatTake s) (standbyB s)).seq) :
    (settle (reseatWhole o dur s)).boot.img = (judgeCopy (reseatTake s) (standbyB s)).img := by
  obtain ⟨himg, htaken⟩ := reseatTake_img hbare
  rw [← himg] at hseq
  rw [← standbyB_reseatTake] at hreject hactive hseq ⊢
  obtain ⟨hnew, hrun⟩ := reseatSwitch_of_pass (d := .whole dur) htaken hreject hactive hseq
  exact (reseatWhole_keeps_switched.img (k := { img := true }) rfl hrun).trans hnew

theorem reseatWhole_of_fail (hbare : s.boot.bare = false) (hfail : (judgeCopy (reseatTake s) (standbyB s)).reject ≠ 0
      ∨ (judgeCopy (reseatTake s) (standbyB s)).active = true
      ∨ (judgeCopy (reseatTake s) (standbyB s)).seq ≤ s.boot.img.seq) :
    (settle (reseatWhole o dur s)).boot.img = s.boot.img := by
  rw [← (reseatTake_img hbare).1, ← standbyB_reseatTake] at hfail
  have hold : Kept { img := true } s (reseatSwitch (.whole dur) (reseatTake s)) :=
    reseatSwitch_of_fail hfail (reseatTake_kept (Kept.refl _ s))
  exact (hold.trans reseatWhole_keeps_switched).img rfl hbare
end

/-- Settles O37. -/
theorem reseatSwitches : Obligations.ReseatSwitches := by
  intro s t o dur
  refine ⟨fun hmay => done_of_eq (if_pos hmay), fun ⟨hphase, htime⟩ hfenced => ?_,
    fun ⟨hphase, htime⟩ hlive hflash => ?_, fun ⟨hphase, htime⟩ hflash => ?_, fun ⟨hphase, htime⟩ => ?_,
    fun ⟨hphase, htime⟩ => ?_, fun hmay hflash hdur => ?_⟩
  · exact done_of_eq (if_pos (by simp [hphase, htime, hfenced]))
  · exact done_of_eq ((if_neg (by simp [hlive])).trans (if_pos (by simp [hphase, htime, hflash])))
  · exact done_of_eq (if_pos (by simp [hphase, htime, hflash]))
  · exact done_of_eq (if_pos (by simp [hphase, htime]))
  · exact done_of_eq (if_pos (by simp [hphase, htime]))
  · have hwhole : exec (.reseatLock ⟨.whole, o⟩ dur) s = .next (settle (reseatWhole o dur s)) :=
      done_of_eq (if_pos (by simp [hmay, hflash, hdur]))
    refine ⟨hwhole, fun hbare hnext => ?_⟩
    have ht : settle (reseatWhole o dur s) = t := Host.Outcome.next.inj (hwhole.symm.trans hnext)
    rw [← ht]
    exact ⟨reseatWhole_of_pass hbare, reseatWhole_of_fail hbare⟩

end Sys2Proof.Machine
